-- ==== Sys2Proof/Word.lean ====
section
/-!
DEFINITION. The word types of the ZV7-M28 and their plainest arithmetic (00_scope.md R2, 17_vector_isa.md R188).
-/

namespace Sys2Proof

/-- A byte of memory or of a typed buffer. -/
abbrev Byte := BitVec 8

/-- An instruction word, a semaphore, a generator register (R123, R27, R243). -/
abbrev Word := BitVec 32

/-- A CTL, transfer or CMP scalar register (R139, R164, R188). -/
abbrev DWord := BitVec 64

/-- A vector register: 256 bytes, byte 0 least significant (R188). -/
abbrev VReg := BitVec 2048

/-- A predicate register: one bit a byte of a vector register (R188). -/
abbrev PReg := BitVec 256

/-- A logical core number 0 to 127 (R11). -/
abbrev CoreId := BitVec 7

/-- A hypothesis id (R263). -/
abbrev HypId := BitVec 8

/-- 0 or 1, as a number. -/
def bit (b : Bool) : Nat := if b then 1 else 0

end Sys2Proof
end

