-- ==== Sys2Proof/Fields.lean ====
section
/-!
DEFINITION. The closed sets of names that fields of instructions, descriptors and events hold: engines, element
types, rounding modes, spaces, token bits, predicates, operand forms, and the arguments of device events.
-/

namespace Sys2Proof

/-- The three engines that CTL dispatches to, with their DISP codes 0, 1, 2 (R127, R128). -/
inductive Engine where
  | lds | cmp | sts
  deriving DecidableEq, Repr, Inhabited

/-- The four sequencers of a core (R16). -/
inductive Sequencer where
  | ctl | lds | cmp | sts
  deriving DecidableEq, Repr, Inhabited

/-- The sequencer that an engine is. -/
def Engine.seqr : Engine → Sequencer
  | .lds => .lds
  | .cmp => .cmp
  | .sts => .sts

/-- DISP code of an engine (R128). -/
def Engine.code : Engine → Nat
  | .lds => 0
  | .cmp => 1
  | .sts => 2

/-- TSTAT.ENG code of a sequencer (R140). -/
def Sequencer.code : Sequencer → Nat
  | .ctl => 0
  | .lds => 1
  | .cmp => 2
  | .sts => 3

/-- Element types, in the order of their codes 0 to 12 (R68). -/
inductive EType where
  | i8 | u8 | i16 | u16 | i32 | u32 | f16 | bf16 | f32 | k8 | k4 | a64 | ks8
  deriving DecidableEq, Repr, Inhabited

/-- The code of an element type (R68). -/
def EType.code : EType → Nat
  | .i8 => 0 | .u8 => 1 | .i16 => 2 | .u16 => 3 | .i32 => 4 | .u32 => 5 | .f16 => 6 | .bf16 => 7
  | .f32 => 8 | .k8 => 9 | .k4 => 10 | .a64 => 11 | .ks8 => 12

/-- The element type of a code; 13 to 15 are reserved (R68, R69). -/
def EType.ofCode : Nat → Option EType
  | 0 => some .i8 | 1 => some .u8 | 2 => some .i16 | 3 => some .u16 | 4 => some .i32 | 5 => some .u32
  | 6 => some .f16 | 7 => some .bf16 | 8 => some .f32 | 9 => some .k8 | 10 => some .k4 | 11 => some .a64
  | 12 => some .ks8 | _ => none

/-- Storage size in bits: K4 takes half a byte (R68). -/
def EType.bits : EType → Nat
  | .i8 => 8 | .u8 => 8 | .i16 => 16 | .u16 => 16 | .i32 => 32 | .u32 => 32 | .f16 => 16 | .bf16 => 16
  | .f32 => 32 | .k8 => 8 | .k4 => 4 | .a64 => 64 | .ks8 => 8

/-- Rounding modes, codes 0 to 3 (R70). -/
inductive RMode where
  | rne | rz | rd | ru
  deriving DecidableEq, Repr, Inhabited

def RMode.code : RMode → Nat
  | .rne => 0 | .rz => 1 | .rd => 2 | .ru => 3

def RMode.ofCode : Nat → RMode
  | 0 => .rne | 1 => .rz | 2 => .rd | _ => .ru

/-- Address spaces, codes 0 to 3 (R134). -/
inductive Space where
  | glob | abuf | wbuf | cbuf
  deriving DecidableEq, Repr, Inhabited

def Space.code : Space → Nat
  | .glob => 0 | .abuf => 1 | .wbuf => 2 | .cbuf => 3

def Space.ofCode : Nat → Space
  | 0 => .glob | 1 => .abuf | 2 => .wbuf | _ => .cbuf

/-- The token bits of an LDS, CMP or STS word (R26, R132, R137). -/
structure Tok where
  wp : Bool := false
  wn : Bool := false
  sp : Bool := false
  sn : Bool := false
  deriving DecidableEq, Repr, Inhabited

/-- The four token bits as a number, WP most significant (R132, R137). -/
def Tok.code (t : Tok) : Nat := 8 * bit t.wp + 4 * bit t.wn + 2 * bit t.sp + bit t.sn

def Tok.ofCode (n : Nat) : Tok :=
  { wp := n / 8 % 2 == 1, wn := n / 4 % 2 == 1, sp := n / 2 % 2 == 1, sn := n % 2 == 1 }

/-- The predicate field of a class 00 or 01 word (R132): the inverted sense and p0 to p3. -/
structure Pred where
  neg : Bool := false
  reg : BitVec 2 := 0
  deriving DecidableEq, Repr, Inhabited

def Pred.code (p : Pred) : Nat := 4 * bit p.neg + p.reg.toNat

def Pred.ofCode (n : Nat) : Pred := { neg := n / 4 % 2 == 1, reg := BitVec.ofNat 2 n }

/-- The second source of a class 00 word: a vector register, or a k register broadcast (S = 1) (R133). -/
inductive VSrc where
  | v (r : BitVec 5)
  | k (r : BitVec 4)
  deriving DecidableEq, Repr, Inhabited

/-- vb and S as one number, S least significant (R133). -/
def VSrc.code : VSrc → Nat
  | .v r => 2 * r.toNat
  | .k r => 2 * r.toNat + 1

/-- Full-empty qualifier of a class 01 load (R47). -/
inductive LoadQual where
  | plain | waitFull | clearOnRead
  deriving DecidableEq, Repr, Inhabited

def LoadQual.code : LoadQual → Nat
  | .plain => 0 | .waitFull => 1 | .clearOnRead => 2

/-- Full-empty qualifier of a class 01 store (R47). -/
inductive StoreQual where
  | plain | setFull
  deriving DecidableEq, Repr, Inhabited

def StoreQual.code : StoreQual → Nat
  | .plain => 0 | .setFull => 3

/-- Size of an AMO: 32 or 64 bits (R130). -/
inductive AmoSize where
  | w | d
  deriving DecidableEq, Repr, Inhabited

def AmoSize.code : AmoSize → Nat
  | .w => 0 | .d => 1

/-- Operand of CMP's SEMWAIT and SEMADD (R136, R212). -/
inductive CmpSemArg where
  | imm (v : BitVec 16)
  | k (r : BitVec 4)
  deriving DecidableEq, Repr, Inhabited

/-- [16:0] of a CMP SEMWAIT or SEMADD word (R136). -/
def CmpSemArg.code : CmpSemArg → Nat
  | .imm v => 2 ^ 16 + v.toNat
  | .k r => 2 ^ 12 * r.toNat

/-- Operand of the LDS and STS SEMWAIT and SEMADD (R137, R170). -/
inductive XferSemArg where
  | imm (v : BitVec 8)
  | a (r : BitVec 4)
  deriving DecidableEq, Repr, Inhabited

/-- Selector of SMOD, codes 0 to 11 (R136, R221). -/
inductive SmodSel where
  | base | rows | cols | stride | row0 | col0 | sbase | seed | addbase | addrow0 | addcol0 | addseed
  deriving DecidableEq, Repr, Inhabited

def SmodSel.code : SmodSel → Nat
  | .base => 0 | .rows => 1 | .cols => 2 | .stride => 3 | .row0 => 4 | .col0 => 5 | .sbase => 6 | .seed => 7
  | .addbase => 8 | .addrow0 => 9 | .addcol0 => 10 | .addseed => 11

def SmodSel.ofCode : Nat → Option SmodSel
  | 0 => some .base | 1 => some .rows | 2 => some .cols | 3 => some .stride | 4 => some .row0
  | 5 => some .col0 | 6 => some .sbase | 7 => some .seed | 8 => some .addbase | 9 => some .addrow0
  | 10 => some .addcol0 | 11 => some .addseed | _ => none

/-- Mode of PSET (R211). -/
inductive PsetMode where
  | all | none | first (k : BitVec 4) | bits (k : BitVec 4)
  deriving DecidableEq, Repr, Inhabited

/-- [17:12] of a PSET word (R136). -/
def PsetMode.code : PsetMode → Nat
  | .all => 0
  | .none => 16
  | .first k => 32 + k.toNat
  | .bits k => 48 + k.toNat

/-- A firmware image as the boot ROM sees it (R316): what its SM3 digest stands for, whether its SM2 signature verifies
against the fused key, and its security version. -/
structure FwImage where
  content : BitVec 32 := 0
  signed  : Bool := true
  version : BitVec 8 := 0
  deriving DecidableEq, Repr, Inhabited

/-- The three images of R317's measurement blocks 2 to 4: security processor, device, management. -/
inductive FwPart where
  | sec | dev | mgmt
  deriving DecidableEq, Repr, Inhabited

def FwPart.index : FwPart → Fin 3
  | .sec => 0 | .dev => 1 | .mgmt => 2

/-- A PCIe port's width as it trains (R13, R335); code 1 is reserved. -/
inductive PcieWidth where
  | none | x8 | x16
  deriving DecidableEq, Repr, Inhabited

def PcieWidth.code : PcieWidth → Nat
  | .none => 0 | .x8 => 2 | .x16 => 3

/-- What a cold bring-up meets (R335): the fuses and the parts that are mapped out, at most the reductions of R14, and
what trains. -/
structure BringUp where
  /-- HBM training and UCIe training succeed. -/
  hbm       : Bool := true
  ucie      : Bool := true
  pcie0     : PcieWidth := .x16
  pcie1     : PcieWidth := .x16
  stepping  : BitVec 8 := 1
  /-- Cores and L2 slices offlined on each die, and pseudo-channels mapped out of each stack (R14). -/
  coresOff  : Vector (Fin 5) 4 := Vector.replicate 4 0
  slicesOff : Vector (Fin 5) 4 := Vector.replicate 4 0
  chansOff  : Vector (Fin 5) 12 := Vector.replicate 12 0
  /-- Width of each Nudon port: 0 x2, 1 x4, 2 x8 (R14). -/
  nudon     : Vector (Fin 3) 16 := Vector.replicate 16 2
  devid     : BitVec 9 := 0
  /-- The fused minimum of the security version, and what the fuse block measures (R316, R317). -/
  minVersion : BitVec 8 := 0
  fuses     : BitVec 32 := 0
  deriving DecidableEq, Repr, Inhabited

/-- Operations an atomic performs at memory (R130, R147). -/
inductive AmoOp where
  | add | and | or | xor | min | max | minu | maxu | swap | cas | fadd
  deriving DecidableEq, Repr, Inhabited

/-- An access that another device makes to this one over Nudon (R63, R298). `addr` is the physical address at this
device; a store carries its bytes, an atomic its operation, size, operand and expected value. -/
inductive RemoteAcc where
  | load (addr : BitVec 52) (n : BitVec 8)
  | store (addr : BitVec 52) (bytes : List Byte)
  | amo (addr : BitVec 52) (op : AmoOp) (sz : AmoSize) (val exp : DWord)
  deriving DecidableEq, Repr, Inhabited

/-- An access that another device makes, and whether its leaf carries MSIDE (R58, R298). -/
structure RemoteReq where
  mside : Bool := false
  acc   : RemoteAcc
  deriving DecidableEq, Repr, Inhabited

/-- What a shadow control context's handler changes of its own (R311): a register, its program counter, one of the CSRs
0x800 to 0xFFF by its low 11 bits. -/
inductive ShadowWrite where
  | reg (n : BitVec 5) (v : DWord)
  | pc (v : BitVec 14)
  | csr (n : BitVec 11) (v : DWord)
  deriving DecidableEq, Repr, Inhabited

/-- What a handler fragment writes while it serves a fault (R66, R311): 64-bit words of memory, by physical address, and its
own context. -/
structure HandlerWrites where
  mem : List (Nat × DWord) := []
  own : List ShadowWrite := []
  deriving DecidableEq, Repr, Inhabited

/-- Progress of a collective: up to `lines` lines of the transfer, or the instance, at place i of the device's list. -/
structure Part where
  i     : Nat
  lines : Nat
  deriving DecidableEq, Repr, Inhabited

/-- A place in the command queue of a stack's Termite (R294). -/
structure QueuePos where
  st : BitVec 4
  n  : Nat
  deriving DecidableEq, Repr, Inhabited

/-- A picture (R185): its size, bits a sample, whether it is monochrome, and the samples of its planes in row order. -/
structure Pic where
  w    : Nat
  h    : Nat
  bits : Nat
  mono : Bool
  luma : List Nat
  cb   : List Nat
  cr   : List Nat
  deriving DecidableEq, Repr, Inhabited

/-- A picture as a bitstream codes it, before any film grain synthesis, with the luma columns and rows that lie outside its
conformance window on each side (R185). -/
structure CodedPic where
  pic    : Pic
  left   : Nat
  right  : Nat
  top    : Nat
  bottom : Nat
  deriving DecidableEq, Repr, Inhabited

/-- The profiles that R185 tells apart: Main of either codec, Main 10 of HEVC, and all others. -/
inductive MediaProfile where
  | main | main10 | other
  deriving DecidableEq, Repr, Inhabited

/-- The forms of a bitstream that R185 tells apart. -/
inductive StreamForm where
  /-- HEVC's Annex B byte stream, with its parameter sets in band or not. -/
  | annexB (inBand : Bool)
  /-- AV1's low-overhead OBU stream. -/
  | obus
  /-- AV1's Annex B length-delimited form, and all others. -/
  | other
  deriving DecidableEq, Repr, Inhabited

/-- What the headers of a bitstream declare (R185); of several sequences, the one furthest outside what R185 supports. -/
structure StreamHead where
  profile  : MediaProfile
  mainTier : Bool
  /-- The level, times ten. -/
  level    : Nat
  form     : StreamForm
  deriving DecidableEq, Repr, Inhabited

/-- What a bitstream holds (R185, R187): what its headers declare, the pictures that it codes before a syntax or decode error
ends it, and the places among them of those that it shows, in output order; AV1's show_existing_frame shows one again. -/
structure Decoded where
  head  : StreamHead
  bad   : Bool
  coded : List CodedPic
  shown : List Nat
  deriving DecidableEq, Repr, Inhabited

/-- A transfer of a collective that another device sends to a member of this one (R293): context on this device, member
core, tag (COLLID, rank, walk index), destination and bytes. -/
structure InColl where
  ctx    : BitVec 6
  tgt    : CoreId
  collid : Word
  rank   : Nat
  walk   : Nat
  daddr  : DWord
  bytes  : List Byte
  deriving DecidableEq, Repr, Inhabited

end Sys2Proof
end

