-- ==== Sys2Proof/Syntax.lean ====
section
/-!
DEFINITION. The instruction set of the ZV7-M28: one constructor per row of spec/opcode_table.json. The first 238 are
the words of the four instruction memories and of generator slots (R123); the rest are the steps of the device that
no word encodes (95_what_each_step_holds.md), with the arguments that say where each of them happens.
-/

namespace Sys2Proof

/-- One instruction, or one step of the device. -/
inductive Instr where
  /-- R142. CTL adds two registers modulo 2^w, with W selecting a 32-bit operation. -/
  | add (d : BitVec 5) (a : BitVec 5) (b : BitVec 5) (w : Bool)
  /-- R142. CTL subtracts s[b] from s[a] modulo 2^w. -/
  | sub (d : BitVec 5) (a : BitVec 5) (b : BitVec 5) (w : Bool)
  /-- R142. CTL bitwise AND of two registers. -/
  | and (d : BitVec 5) (a : BitVec 5) (b : BitVec 5) (w : Bool)
  /-- R142. CTL bitwise OR of two registers. -/
  | or (d : BitVec 5) (a : BitVec 5) (b : BitVec 5) (w : Bool)
  /-- R142. CTL bitwise exclusive OR of two registers. -/
  | xor (d : BitVec 5) (a : BitVec 5) (b : BitVec 5) (w : Bool)
  /-- R142. CTL shifts s[a] left by the low bits of s[b]. -/
  | shl (d : BitVec 5) (a : BitVec 5) (b : BitVec 5) (w : Bool)
  /-- R142. CTL shifts s[a] logically right. -/
  | shr (d : BitVec 5) (a : BitVec 5) (b : BitVec 5) (w : Bool)
  /-- R142. CTL shifts s[a] arithmetically right. -/
  | sra (d : BitVec 5) (a : BitVec 5) (b : BitVec 5) (w : Bool)
  /-- R142. CTL rotates s[a] left within w bits. -/
  | rol (d : BitVec 5) (a : BitVec 5) (b : BitVec 5) (w : Bool)
  /-- R142. CTL sets 1 when s[a] is less than s[b] as signed values. -/
  | slt (d : BitVec 5) (a : BitVec 5) (b : BitVec 5) (w : Bool)
  /-- R142. CTL sets 1 when s[a] is less than s[b] as unsigned values. -/
  | sltu (d : BitVec 5) (a : BitVec 5) (b : BitVec 5) (w : Bool)
  /-- R142. CTL signed minimum of two registers. -/
  | min (d : BitVec 5) (a : BitVec 5) (b : BitVec 5) (w : Bool)
  /-- R142. CTL signed maximum of two registers. -/
  | max (d : BitVec 5) (a : BitVec 5) (b : BitVec 5) (w : Bool)
  /-- R142. CTL unsigned minimum of two registers. -/
  | minu (d : BitVec 5) (a : BitVec 5) (b : BitVec 5) (w : Bool)
  /-- R142. CTL unsigned maximum of two registers. -/
  | maxu (d : BitVec 5) (a : BitVec 5) (b : BitVec 5) (w : Bool)
  /-- R142. CTL counts leading zeros of s[a]. -/
  | clz (d : BitVec 5) (a : BitVec 5) (w : Bool)
  /-- R142. CTL counts trailing zeros of s[a]. -/
  | ctz (d : BitVec 5) (a : BitVec 5) (w : Bool)
  /-- R142. CTL counts set bits of s[a]. -/
  | popc (d : BitVec 5) (a : BitVec 5) (w : Bool)
  /-- R143. CTL adds a sign-extended 16-bit immediate. -/
  | addi (d : BitVec 5) (a : BitVec 5) (imm : BitVec 16)
  /-- R143. CTL signed compare against a sign-extended immediate. -/
  | slti (d : BitVec 5) (a : BitVec 5) (imm : BitVec 16)
  /-- R143. CTL unsigned compare against a sign-extended immediate. -/
  | sltiu (d : BitVec 5) (a : BitVec 5) (imm : BitVec 16)
  /-- R143. CTL AND with a zero-extended immediate. -/
  | andi (d : BitVec 5) (a : BitVec 5) (imm : BitVec 16)
  /-- R143. CTL OR with a zero-extended immediate. -/
  | ori (d : BitVec 5) (a : BitVec 5) (imm : BitVec 16)
  /-- R143. CTL exclusive OR with a zero-extended immediate. -/
  | xori (d : BitVec 5) (a : BitVec 5) (imm : BitVec 16)
  /-- R143. CTL shifts left by an immediate amount. -/
  | shli (d : BitVec 5) (a : BitVec 5) (w : Bool) (imm : BitVec 6)
  /-- R143. CTL shifts logically right by an immediate amount. -/
  | shri (d : BitVec 5) (a : BitVec 5) (w : Bool) (imm : BitVec 6)
  /-- R143. CTL shifts arithmetically right by an immediate amount. -/
  | srai (d : BitVec 5) (a : BitVec 5) (w : Bool) (imm : BitVec 6)
  /-- R143. CTL rotates left by an immediate amount. -/
  | roli (d : BitVec 5) (a : BitVec 5) (w : Bool) (imm : BitVec 6)
  /-- R143. CTL sets s[d] to the sign extension of imm16 times 2^16. -/
  | lui (d : BitVec 5) (imm : BitVec 16)
  /-- R143. CTL writes imm16 into bits 47:32 of s[d]. -/
  | lih (d : BitVec 5) (imm : BitVec 16)
  /-- R144. CTL low w bits of a product. -/
  | mul (d : BitVec 5) (a : BitVec 5) (b : BitVec 5) (w : Bool)
  /-- R144. CTL high 64 bits of a signed 128-bit product. -/
  | mulh (d : BitVec 5) (a : BitVec 5) (b : BitVec 5)
  /-- R144. CTL high 64 bits of an unsigned 128-bit product. -/
  | mulhu (d : BitVec 5) (a : BitVec 5) (b : BitVec 5)
  /-- R144. CTL signed division; a zero divisor gives 0 and sets CSTAT.DZ. -/
  | div (d : BitVec 5) (a : BitVec 5) (b : BitVec 5) (w : Bool)
  /-- R144. CTL unsigned division. -/
  | divu (d : BitVec 5) (a : BitVec 5) (b : BitVec 5) (w : Bool)
  /-- R144. CTL signed remainder; a zero divisor gives the dividend. -/
  | rem (d : BitVec 5) (a : BitVec 5) (b : BitVec 5) (w : Bool)
  /-- R144. CTL unsigned remainder. -/
  | remu (d : BitVec 5) (a : BitVec 5) (b : BitVec 5) (w : Bool)
  /-- R145. CTL loads a sign-extended byte. -/
  | ldb (d : BitVec 5) (a : BitVec 5) (imm : BitVec 16)
  /-- R145. CTL loads a zero-extended byte. -/
  | ldbu (d : BitVec 5) (a : BitVec 5) (imm : BitVec 16)
  /-- R145. CTL loads a sign-extended halfword. -/
  | ldh (d : BitVec 5) (a : BitVec 5) (imm : BitVec 16)
  /-- R145. CTL loads a zero-extended halfword. -/
  | ldhu (d : BitVec 5) (a : BitVec 5) (imm : BitVec 16)
  /-- R145. CTL loads a sign-extended word. -/
  | ldw (d : BitVec 5) (a : BitVec 5) (imm : BitVec 16)
  /-- R145. CTL loads a zero-extended word. -/
  | ldwu (d : BitVec 5) (a : BitVec 5) (imm : BitVec 16)
  /-- R145. CTL loads a doubleword. -/
  | ldd (d : BitVec 5) (a : BitVec 5) (imm : BitVec 16)
  /-- R145. CTL stores a byte. -/
  | stb (b : BitVec 5) (a : BitVec 5) (imm : BitVec 16)
  /-- R145. CTL stores a halfword. -/
  | sth (b : BitVec 5) (a : BitVec 5) (imm : BitVec 16)
  /-- R145. CTL stores a word. -/
  | stw (b : BitVec 5) (a : BitVec 5) (imm : BitVec 16)
  /-- R145. CTL stores a doubleword. -/
  | std (b : BitVec 5) (a : BitVec 5) (imm : BitVec 16)
  /-- R147. Atomic add returning the old value. -/
  | amoadd (d : BitVec 5) (a : BitVec 5) (b : BitVec 5) (ms : Bool) (sz : AmoSize)
  /-- R147. Atomic AND returning the old value. -/
  | amoand (d : BitVec 5) (a : BitVec 5) (b : BitVec 5) (ms : Bool) (sz : AmoSize)
  /-- R147. Atomic OR returning the old value. -/
  | amoor (d : BitVec 5) (a : BitVec 5) (b : BitVec 5) (ms : Bool) (sz : AmoSize)
  /-- R147. Atomic exclusive OR returning the old value. -/
  | amoxor (d : BitVec 5) (a : BitVec 5) (b : BitVec 5) (ms : Bool) (sz : AmoSize)
  /-- R147. Atomic signed minimum. -/
  | amomin (d : BitVec 5) (a : BitVec 5) (b : BitVec 5) (ms : Bool) (sz : AmoSize)
  /-- R147. Atomic signed maximum. -/
  | amomax (d : BitVec 5) (a : BitVec 5) (b : BitVec 5) (ms : Bool) (sz : AmoSize)
  /-- R147. Atomic unsigned minimum. -/
  | amominu (d : BitVec 5) (a : BitVec 5) (b : BitVec 5) (ms : Bool) (sz : AmoSize)
  /-- R147. Atomic unsigned maximum. -/
  | amomaxu (d : BitVec 5) (a : BitVec 5) (b : BitVec 5) (ms : Bool) (sz : AmoSize)
  /-- R147. Atomic swap. -/
  | amoswap (d : BitVec 5) (a : BitVec 5) (b : BitVec 5) (ms : Bool) (sz : AmoSize)
  /-- R147. Atomic compare-and-swap against the prior s[d]. -/
  | amocas (d : BitVec 5) (a : BitVec 5) (b : BitVec 5) (ms : Bool) (sz : AmoSize)
  /-- R147. Atomic floating-point add under RNE, setting no flag. -/
  | amofadd (d : BitVec 5) (a : BitVec 5) (b : BitVec 5) (ms : Bool) (sz : AmoSize)
  /-- R147. Atomic swap of one nibble of a byte. -/
  | amonswap (d : BitVec 5) (a : BitVec 5) (b : BitVec 5) (hi : Bool) (ms : Bool)
  /-- R148. Writes back a dirty line from this core's L1 or this die's L2. -/
  | cwb (a : BitVec 5) (imm : BitVec 16)
  /-- R148. Removes this core's L1 copy of a line after writing it back. -/
  | cinv (a : BitVec 5) (imm : BitVec 16)
  /-- R148. Writes back and removes L1 and L2 copies of a line. -/
  | cwbinv (a : BitVec 5) (imm : BitVec 16)
  /-- R148. Fetches a line into this core's L1. -/
  | cpref (a : BitVec 5) (imm : BitVec 16)
  /-- R149. Branches when two registers are equal. -/
  | beq (a : BitVec 5) (b : BitVec 5) (off : BitVec 16)
  /-- R149. Branches when two registers differ. -/
  | bne (a : BitVec 5) (b : BitVec 5) (off : BitVec 16)
  /-- R149. Branches on signed less-than. -/
  | blt (a : BitVec 5) (b : BitVec 5) (off : BitVec 16)
  /-- R149. Branches on signed not-less-than. -/
  | bge (a : BitVec 5) (b : BitVec 5) (off : BitVec 16)
  /-- R149. Branches on unsigned less-than. -/
  | bltu (a : BitVec 5) (b : BitVec 5) (off : BitVec 16)
  /-- R149. Branches on unsigned not-less-than. -/
  | bgeu (a : BitVec 5) (b : BitVec 5) (off : BitVec 16)
  /-- R149. Jumps by a signed word offset and links into s31. -/
  | jal (off : BitVec 26)
  /-- R149. Jumps to s[a] plus offset and links into s[d]. -/
  | jalr (d : BitVec 5) (a : BitVec 5) (imm : BitVec 16)
  /-- R150. Pushes a hardware loop repeating the following words s[a] times. -/
  | loop (a : BitVec 5) (imm : BitVec 16)
  /-- R151. Pushes one command with a constant fragment onto an engine's queue. -/
  | disp (eng : Engine) (frag : BitVec 8) (n : BitVec 5) (g : BitVec 5)
  /-- R151. Pushes one command whose fragment comes from JSEL. -/
  | dispx (eng : Engine) (n : BitVec 5) (g : BitVec 5)
  /-- R37. Discards queued commands with tag at or above t and marks running ones. -/
  | qcancel (a : BitVec 5)
  /-- R153. Waits until all queues are empty and engines idle. -/
  | qdrain
  /-- R153. Reads QSTAT and clears the abandoned and poison bits it returned. -/
  | qstatrd (d : BitVec 5)
  /-- R154. CTL adds a signed value to a semaphore, releasing earlier stores. -/
  | semadd (a : BitVec 5) (b : BitVec 4)
  /-- R154. CTL waits until a semaphore reaches a target. -/
  | semwait (a : BitVec 5) (b : BitVec 4)
  /-- R155. Adds a value to a semaphore of a named core, locally or on another device. -/
  | rflag (d : BitVec 5) (a : BitVec 5) (b : BitVec 4)
  /-- R155. Sets a semaphore on every masked present core of this device. -/
  | mflag (d : BitVec 5) (a : BitVec 5) (b : BitVec 4)
  /-- R156. Reads a 256-byte child launch record and places it in the spawn pool or spill queue. -/
  | spawn (a : BitVec 5)
  /-- R156. Waits until a 64-bit event reaches a target. -/
  | waitev (a : BitVec 5) (b : BitVec 5)
  /-- R17. Ends the task once all queues are empty and engines idle. -/
  | exit
  /-- R156. Adds to a 64-bit event with release and wakes matching waiters. -/
  | sigev (a : BitVec 5) (b : BitVec 5)
  /-- R267. Allocates the lowest free hypothesis id under a parent and set. -/
  | hopen (d : BitVec 5) (a : BitVec 5)
  /-- R268. Opens a Mayfly window of K chained hypothesis ids. -/
  | hwin (d : BitVec 5) (a : BitVec 5)
  /-- R269. Sets HCUR to 0 or a live id. -/
  | hset (a : BitVec 5)
  /-- R270. Confirms or refutes a hypothesis at one point in the order. -/
  | hresolve (a : BitVec 5) (confirm : Bool)
  /-- R271. Confirms the first n members of a window and refutes the rest. -/
  | hcommit (a : BitVec 5) (b : BitVec 5)
  /-- R272. Returns the state of a hypothesis id. -/
  | hstat (d : BitVec 5) (a : BitVec 5)
  /-- R238. Checks a generator image and loads it into a slot after waiting for steps naming the slot. -/
  | gload (a : BitVec 5) (b : BitVec 4)
  /-- R240. Frees a generator slot after waiting for steps naming it. -/
  | gfree (b : BitVec 4)
  /-- R240. Sets the parameters of a loaded generator slot. -/
  | gparam (a : BitVec 5) (b : BitVec 4)
  /-- R279. Allocates the lowest free page of a pool, with an allocation record under a hypothesis. -/
  | palloc (d : BitVec 5) (a : BitVec 5)
  /-- R280. Frees a pool page, deferred to confirm under a hypothesis. -/
  | pfree (a : BitVec 5)
  /-- R158. Creates a tensor lifetime entry for a range and use count. -/
  | tltset (d : BitVec 5) (a : BitVec 5) (b : BitVec 5)
  /-- R158. Counts one use against the lifetime entry holding an address. -/
  | tltuse (a : BitVec 5)
  /-- R49. Maps buffer units onto a virtual range as a window. -/
  | mapw (d : BitVec 4) (a : BitVec 5) (b : BitVec 5)
  /-- R51. Writes back and removes a mapped window. -/
  | unmapw (d : BitVec 4)
  /-- R141. Reads a control register into s[d]. -/
  | csrd (d : BitVec 5) (csr : BitVec 12)
  /-- R141. Writes s[a] to a control register under its access codes. -/
  | cswr (a : BitVec 5) (csr : BitVec 12)
  /-- R161. Raises cause SOFT with TVAL from s[a]. -/
  | trap (a : BitVec 5)
  /-- R161. Returns from the trap handler to TPC and clears INH. -/
  | rett
  /-- R161. Raises cause BRK. -/
  | brk
  /-- R162. Retires when CTL's earlier accesses are performed throughout the scope. -/
  | fence (a : BitVec 5)
  /-- R162. Halts CTL issue until a wake-up event. -/
  | wfe
  /-- R169. LDS or STS word with no effect beyond its token bits. -/
  | xferNop (t : Tok)
  /-- R23. Ends an LDS or STS fragment iteration, acting its token bits. -/
  | xferEnd (t : Tok)
  /-- R174. Starts a box copy in 128-byte units. -/
  | copy (t : Tok) (x : BitVec 4) (y : BitVec 4) (z : BitVec 3) (src : Space) (dst : Space) (use : Bool)
  /-- R174. Starts a copy whose source rows come from an index list. -/
  | gath (t : Tok) (x : BitVec 4) (y : BitVec 4) (z : BitVec 3) (src : Space) (dst : Space) (use : Bool)
  /-- R174. Starts a copy whose destination rows come from an index list. -/
  | scat (t : Tok) (x : BitVec 4) (y : BitVec 4) (z : BitVec 3) (src : Space) (dst : Space) (use : Bool)
  /-- R171. Loads a 128-byte box record into a box register. -/
  | boxld (t : Tok) (x : BitVec 3) (y : BitVec 4)
  /-- R167. Adds two a registers. -/
  | aadd (t : Tok) (x : BitVec 4) (y : BitVec 4) (z : BitVec 4)
  /-- R167. Loads a sign-extended 18-bit immediate into an a register. -/
  | ali (t : Tok) (x : BitVec 4) (imm : BitVec 18)
  /-- R167. Copies one a register to another. -/
  | amov (t : Tok) (x : BitVec 4) (y : BitVec 4)
  /-- R170. LDS or STS waits until a semaphore reaches a target. -/
  | xferSemwait (t : Tok) (sem : BitVec 4) (arg : XferSemArg)
  /-- R170. LDS or STS adds to a semaphore after its earlier steps complete. -/
  | xferSemadd (t : Tok) (sem : BitVec 4) (arg : XferSemArg)
  /-- R168. Repeats following transfer steps a[x] times. -/
  | loopt (t : Tok) (x : BitVec 4) (imm : BitVec 8)
  /-- R183. Reads a loop-nest record and starts the collective walker. -/
  | coll (t : Tok) (x : BitVec 4)
  /-- R184. Reads a media decode job record and queues it on a decode engine. -/
  | mdec (t : Tok) (x : BitVec 4)
  /-- R176. Prefetches the source box's lines into the die L2. -/
  | pref (t : Tok) (x : BitVec 4) (z : BitVec 3) (src : Space)
  /-- R174. Starts writing zeros over a destination box. -/
  | zero (t : Tok) (x : BitVec 4) (z : BitVec 3) (dst : Space)
  /-- R177. Counts one tensor lifetime use after earlier steps complete. -/
  | tuse (t : Tok) (x : BitVec 4)
  /-- R193. Per-lane add. -/
  | vadd (t : Tok) (p : Pred) (d : BitVec 5) (a : BitVec 5) (b : VSrc)
  /-- R193. Per-lane subtract. -/
  | vsub (t : Tok) (p : Pred) (d : BitVec 5) (a : BitVec 5) (b : VSrc)
  /-- R193. Per-lane multiply. -/
  | vmul (t : Tok) (p : Pred) (d : BitVec 5) (a : BitVec 5) (b : VSrc)
  /-- R193. Per-lane high half of an integer product. -/
  | vmulh (t : Tok) (p : Pred) (d : BitVec 5) (a : BitVec 5) (b : VSrc)
  /-- R194. Per-lane fused multiply-add into vd. -/
  | vfma (t : Tok) (p : Pred) (d : BitVec 5) (a : BitVec 5) (b : VSrc)
  /-- R194. Per-lane fused multiply-subtract into vd. -/
  | vfms (t : Tok) (p : Pred) (d : BitVec 5) (a : BitVec 5) (b : VSrc)
  /-- R193. Per-lane minimum. -/
  | vmin (t : Tok) (p : Pred) (d : BitVec 5) (a : BitVec 5) (b : VSrc)
  /-- R193. Per-lane maximum. -/
  | vmax (t : Tok) (p : Pred) (d : BitVec 5) (a : BitVec 5) (b : VSrc)
  /-- R193. Per-lane absolute value. -/
  | vabs (t : Tok) (p : Pred) (d : BitVec 5) (a : BitVec 5)
  /-- R193. Per-lane negation. -/
  | vneg (t : Tok) (p : Pred) (d : BitVec 5) (a : BitVec 5)
  /-- R193. Per-lane division. -/
  | vdiv (t : Tok) (p : Pred) (d : BitVec 5) (a : BitVec 5) (b : VSrc)
  /-- R100. Per-lane correctly rounded square root. -/
  | vsqrt (t : Tok) (p : Pred) (d : BitVec 5) (a : BitVec 5)
  /-- R100. Per-lane reciprocal. -/
  | vrcp (t : Tok) (p : Pred) (d : BitVec 5) (a : BitVec 5)
  /-- R100. Per-lane reciprocal square root. -/
  | vrsq (t : Tok) (p : Pred) (d : BitVec 5) (a : BitVec 5)
  /-- R100. Per-lane base-2 exponential. -/
  | vexp2 (t : Tok) (p : Pred) (d : BitVec 5) (a : BitVec 5)
  /-- R100. Per-lane base-2 logarithm. -/
  | vlog2 (t : Tok) (p : Pred) (d : BitVec 5) (a : BitVec 5)
  /-- R193. Per-lane bitwise AND. -/
  | vand (t : Tok) (p : Pred) (d : BitVec 5) (a : BitVec 5) (b : VSrc)
  /-- R193. Per-lane bitwise OR. -/
  | vor (t : Tok) (p : Pred) (d : BitVec 5) (a : BitVec 5) (b : VSrc)
  /-- R193. Per-lane bitwise exclusive OR. -/
  | vxor (t : Tok) (p : Pred) (d : BitVec 5) (a : BitVec 5) (b : VSrc)
  /-- R193. Per-lane bitwise complement. -/
  | vnot (t : Tok) (p : Pred) (d : BitVec 5) (a : BitVec 5)
  /-- R193. Per-lane left shift. -/
  | vshl (t : Tok) (p : Pred) (d : BitVec 5) (a : BitVec 5) (b : VSrc)
  /-- R193. Per-lane logical right shift. -/
  | vshr (t : Tok) (p : Pred) (d : BitVec 5) (a : BitVec 5) (b : VSrc)
  /-- R193. Per-lane arithmetic right shift. -/
  | vsra (t : Tok) (p : Pred) (d : BitVec 5) (a : BitVec 5) (b : VSrc)
  /-- R194. Per-lane funnel shift left. -/
  | vfshl (t : Tok) (p : Pred) (d : BitVec 5) (a : BitVec 5) (b : VSrc)
  /-- R194. Per-lane funnel shift right. -/
  | vfshr (t : Tok) (p : Pred) (d : BitVec 5) (a : BitVec 5) (b : VSrc)
  /-- R193. Per-lane leading zero count. -/
  | vclz (t : Tok) (p : Pred) (d : BitVec 5) (a : BitVec 5)
  /-- R193. Per-lane population count. -/
  | vpopc (t : Tok) (p : Pred) (d : BitVec 5) (a : BitVec 5)
  /-- R194. Per-lane bitwise select by vd. -/
  | vsel (t : Tok) (p : Pred) (d : BitVec 5) (a : BitVec 5) (b : VSrc)
  /-- R193. Per-lane move. -/
  | vmov (t : Tok) (p : Pred) (d : BitVec 5) (a : BitVec 5)
  /-- R196. Converts elements from a source type into the shape's type. -/
  | vcvt (t : Tok) (p : Pred) (d : BitVec 5) (a : BitVec 5) (src : EType)
  /-- R195. Per-lane equality compare into a predicate. -/
  | vcmpeq (t : Tok) (p : Pred) (d : BitVec 3) (a : BitVec 5) (b : VSrc)
  /-- R195. Per-lane less-than compare into a predicate. -/
  | vcmplt (t : Tok) (p : Pred) (d : BitVec 3) (a : BitVec 5) (b : VSrc)
  /-- R195. Per-lane less-or-equal compare into a predicate. -/
  | vcmple (t : Tok) (p : Pred) (d : BitVec 3) (a : BitVec 5) (b : VSrc)
  /-- R195. Per-lane inequality compare into a predicate. -/
  | vcmpne (t : Tok) (p : Pred) (d : BitVec 3) (a : BitVec 5) (b : VSrc)
  /-- R193. Per-lane saturating add. -/
  | vadds (t : Tok) (p : Pred) (d : BitVec 5) (a : BitVec 5) (b : VSrc)
  /-- R193. Per-lane saturating subtract. -/
  | vsubs (t : Tok) (p : Pred) (d : BitVec 5) (a : BitVec 5) (b : VSrc)
  /-- R197. Group sum broadcast to enabled lanes. -/
  | vredsum (t : Tok) (p : Pred) (d : BitVec 5) (a : BitVec 5)
  /-- R197. Group maximum broadcast to enabled lanes. -/
  | vredmax (t : Tok) (p : Pred) (d : BitVec 5) (a : BitVec 5)
  /-- R197. Group minimum broadcast to enabled lanes. -/
  | vredmin (t : Tok) (p : Pred) (d : BitVec 5) (a : BitVec 5)
  /-- R197. Inclusive group prefix sum. -/
  | vscan (t : Tok) (p : Pred) (d : BitVec 5) (a : BitVec 5)
  /-- R197. Exclusive group prefix sum. -/
  | vscanx (t : Tok) (p : Pred) (d : BitVec 5) (a : BitVec 5)
  /-- R198. Broadcasts a selected lane within each group. -/
  | vbcast (t : Tok) (p : Pred) (d : BitVec 5) (a : BitVec 5) (b : VSrc)
  /-- R198. Writes lane indices, optionally in transposed order. -/
  | viota (t : Tok) (p : Pred) (d : BitVec 5)
  /-- R286. Tests drafted tokens against target and draft records and writes verdicts. -/
  | vaccept (t : Tok) (p : Pred) (d : BitVec 5) (a : BitVec 5) (b : VSrc)
  /-- R198. Writes the position of the first true predicate lane of each group. -/
  | vfirst (t : Tok) (p : Pred) (d : BitVec 5) (a : BitVec 3)
  /-- R193. Per-lane hash32 of the exclusive OR of two operands. -/
  | vhash (t : Tok) (p : Pred) (d : BitVec 5) (a : BitVec 5) (b : VSrc)
  /-- R193. Per-lane uniform value from a 32-bit lane. -/
  | vunif (t : Tok) (p : Pred) (d : BitVec 5) (a : BitVec 5)
  /-- R201. Contiguous vector load. -/
  | vld (t : Tok) (p : Pred) (v : BitVec 5) (k : BitVec 4) (sp : Space) (q : LoadQual)
  /-- R201. Contiguous vector store. -/
  | vst (t : Tok) (p : Pred) (v : BitVec 5) (k : BitVec 4) (sp : Space) (q : StoreQual)
  /-- R201. Contiguous vector load with pointer post-increment. -/
  | vldi (t : Tok) (p : Pred) (v : BitVec 5) (k : BitVec 4) (sp : Space) (q : LoadQual)
  /-- R201. Contiguous vector store with pointer post-increment. -/
  | vsti (t : Tok) (p : Pred) (v : BitVec 5) (k : BitVec 4) (sp : Space) (q : StoreQual)
  /-- R202. Byte-masked store of a whole vector register. -/
  | vstu (t : Tok) (p : Pred) (v : BitVec 5) (k : BitVec 4) (sp : Space) (q : StoreQual)
  /-- R203. Indexed vector gather. -/
  | vgath (t : Tok) (p : Pred) (v : BitVec 5) (vi : BitVec 5) (k : BitVec 4) (sp : Space)
  /-- R203. Indexed vector scatter. -/
  | vscat (t : Tok) (p : Pred) (v : BitVec 5) (vi : BitVec 5) (k : BitVec 4) (sp : Space)
  /-- R207. Partitions enabled lanes by a key and counts the true ones. -/
  | vpart (t : Tok) (p : Pred) (v : BitVec 5) (vi : BitVec 5) (m : BitVec 4)
  /-- R208. Permutes lanes by an index vector. -/
  | vperm (t : Tok) (p : Pred) (v : BitVec 5) (vi : BitVec 5)
  /-- R201. Loads one element and broadcasts it to enabled lanes. -/
  | vldb (t : Tok) (p : Pred) (v : BitVec 5) (k : BitVec 4) (sp : Space) (q : LoadQual)
  /-- R223. Issues a matrix step accumulating into a tile. -/
  | mma (t : Tok) (sa : BitVec 4) (sb : BitVec 4) (acc : BitVec 6) (depth : BitVec 8)
  /-- R223. Issues a matrix step that zeroes the tile first. -/
  | mmaz (t : Tok) (sa : BitVec 4) (sb : BitVec 4) (acc : BitVec 6) (depth : BitVec 8)
  /-- R223. Issues a matrix-vector step updating tile rows 0 to 7. -/
  | mmv (t : Tok) (sa : BitVec 4) (sb : BitVec 4) (acc : BitVec 6) (depth : BitVec 8)
  /-- R227. Issues a drain converting a tile through a destination stream. -/
  | mdrain (t : Tok) (sa : BitVec 4) (acc : BitVec 6) (rm : RMode) (auto : Bool) (hist : Bool) (set : BitVec 2)
  /-- R230. Seals the open matrix batch. -/
  | mseal (t : Tok)
  /-- R231. Holds CMP until at most n sealed batches are in flight. -/
  | msettle (t : Tok) (n : BitVec 8)
  /-- R228. Sets every element of a tile to +0. -/
  | accz (t : Tok) (acc : BitVec 6)
  /-- R228. Loads a tile from a source stream. -/
  | accld (t : Tok) (sa : BitVec 4) (acc : BitVec 6)
  /-- R209. CMP word with no effect beyond its token bits. -/
  | cmpNop (t : Tok)
  /-- R23. Ends a CMP fragment iteration. -/
  | cmpEnd (t : Tok)
  /-- R190. Sets the shape register. -/
  | shape (t : Tok) (ty : EType) (rm : RMode) (sat : Bool) (g : BitVec 3) (k : BitVec 4)
  /-- R220. Loads a 64-byte stream descriptor. -/
  | sld (t : Tok) (st : BitVec 4) (k : BitVec 4) (sp : Space)
  /-- R221. Changes one field of a stream descriptor. -/
  | smod (t : Tok) (st : BitVec 4) (sel : SmodSel) (k : BitVec 4)
  /-- R210. Adds an immediate to a k register. -/
  | kadd (t : Tok) (d : BitVec 4) (a : BitVec 4) (imm : BitVec 13)
  /-- R210. Loads a sign-extended immediate into a k register. -/
  | kli (t : Tok) (d : BitVec 4) (imm : BitVec 17)
  /-- R210. Copies a k register. -/
  | kmov (t : Tok) (d : BitVec 4) (a : BitVec 4)
  /-- R210. Writes an immediate to every lane below VL. -/
  | vli (t : Tok) (d : BitVec 5) (imm : BitVec 16)
  /-- R211. Writes a predicate register by mode. -/
  | pset (t : Tok) (d : BitVec 3) (mode : PsetMode)
  /-- R212. CMP waits until a semaphore reaches a target. -/
  | cmpSemwait (t : Tok) (sem : BitVec 4) (arg : CmpSemArg)
  /-- R212. CMP adds to a semaphore after earlier vector words complete. -/
  | cmpSemadd (t : Tok) (sem : BitVec 4) (arg : CmpSemArg)
  /-- R213. Repeats following CMP words k[n] times. -/
  | loopk (t : Tok) (k : BitVec 4) (imm : BitVec 17)
  /-- R214. Writes JSEL and ACCN and increments semaphore 15. -/
  | fragsel (t : Tok) (f : BitVec 4) (a : BitVec 4)
  /-- R229. Reads a histogram set into a vector register, optionally clearing it. -/
  | histrd (t : Tok) (d : BitVec 5) (set : BitVec 2) (clr : Bool)
  /-- R215. Empties the full-empty granules of a buffer range. -/
  | feclr (t : Tok) (sp : Space) (o : BitVec 4) (l : BitVec 4)
  /-- R241. Writes a generator slot's state into a k register. -/
  | gstat (t : Tok) (d : BitVec 4) (slot : BitVec 4)
  /-- R244. Generator add modulo 2^32. -/
  | genAdd (d : BitVec 4) (a : BitVec 4) (b : BitVec 4)
  /-- R244. Generator subtract. -/
  | genSub (d : BitVec 4) (a : BitVec 4) (b : BitVec 4)
  /-- R244. Generator low 32 bits of a product. -/
  | genMul (d : BitVec 4) (a : BitVec 4) (b : BitVec 4)
  /-- R244. Generator high 32 bits of an unsigned product. -/
  | genMulhu (d : BitVec 4) (a : BitVec 4) (b : BitVec 4)
  /-- R244. Generator bitwise AND. -/
  | genAnd (d : BitVec 4) (a : BitVec 4) (b : BitVec 4)
  /-- R244. Generator bitwise OR. -/
  | genOr (d : BitVec 4) (a : BitVec 4) (b : BitVec 4)
  /-- R244. Generator bitwise exclusive OR. -/
  | genXor (d : BitVec 4) (a : BitVec 4) (b : BitVec 4)
  /-- R244. Generator left shift. -/
  | genShl (d : BitVec 4) (a : BitVec 4) (b : BitVec 4)
  /-- R244. Generator logical right shift. -/
  | genShr (d : BitVec 4) (a : BitVec 4) (b : BitVec 4)
  /-- R244. Generator arithmetic right shift. -/
  | genSra (d : BitVec 4) (a : BitVec 4) (b : BitVec 4)
  /-- R244. Generator rotate left. -/
  | genRotl (d : BitVec 4) (a : BitVec 4) (b : BitVec 4)
  /-- R244. Generator add of a signed immediate. -/
  | genAddi (d : BitVec 4) (a : BitVec 4) (imm : BitVec 14)
  /-- R244. Generator exclusive OR with a zero-extended immediate. -/
  | genXori (d : BitVec 4) (a : BitVec 4) (imm : BitVec 14)
  /-- R244. Generator load of a signed immediate. -/
  | genLi (d : BitVec 4) (imm : BitVec 14)
  /-- R244. Generator load of an immediate into bits 31:18. -/
  | genLui (d : BitVec 4) (imm : BitVec 14)
  /-- R244. Generator hash32 of the exclusive OR of two registers. -/
  | genHash (d : BitVec 4) (a : BitVec 4) (b : BitVec 4)
  /-- R244. Generator select by gd. -/
  | genSel (d : BitVec 4) (a : BitVec 4) (b : BitVec 4)
  /-- R244. Generator unsigned less-than. -/
  | genSltu (d : BitVec 4) (a : BitVec 4) (b : BitVec 4)
  /-- R244. Generator signed less-than. -/
  | genSlt (d : BitVec 4) (a : BitVec 4) (b : BitVec 4)
  /-- R244. Generator f32 add under RNE. -/
  | genFadd (d : BitVec 4) (a : BitVec 4) (b : BitVec 4)
  /-- R244. Generator f32 multiply under RNE. -/
  | genFmul (d : BitVec 4) (a : BitVec 4) (b : BitVec 4)
  /-- R244. Generator f32 fused multiply-add. -/
  | genFfma (d : BitVec 4) (a : BitVec 4) (b : BitVec 4)
  /-- R244. Generator signed integer to f32. -/
  | genI2f (d : BitVec 4) (a : BitVec 4)
  /-- R244. Generator f32 pattern of unif. -/
  | genUnif (d : BitVec 4) (a : BitVec 4)
  /-- R244. Generator plus or minus 1.0 from bit 0. -/
  | genRade (d : BitVec 4) (a : BitVec 4)
  /-- R244. Generator f32 sign inversion. -/
  | genFneg (d : BitVec 4) (a : BitVec 4)
  /-- R244. Generator f32 minimum. -/
  | genFmin (d : BitVec 4) (a : BitVec 4) (b : BitVec 4)
  /-- R244. Generator f32 maximum. -/
  | genFmax (d : BitVec 4) (a : BitVec 4) (b : BitVec 4)
  /-- R244. Generator counted loop over following words. -/
  | genLoop (a : BitVec 4) (imm : BitVec 6)
  /-- R245. Ends an evaluation delivering an f32 result. -/
  | genOut (a : BitVec 4)
  /-- R245. Ends an evaluation delivering a signed integer result. -/
  | genOuti (a : BitVec 4)
  /-- R125. A sequencer fetches a word that decodes as no instruction, or fetches beyond its instruction memory, and faults ILLEGAL_INSTR or RESERVED_FIELD. -/
  | illegalInstrFetch (reserved : Bool) (tval : DWord)
  /-- R23. An idle engine pops the next command from its queue and starts its iterations. -/
  | commandPop (c : CoreId) (e : Engine)
  /-- R26. A word waiting on tokens issues when every FIFO it waits on holds a token. -/
  | tokenWaitIssue (c : CoreId) (e : Engine)
  /-- R26. A push held on a full FIFO is made once the FIFO has space. -/
  | tokenPushDelayed (c : CoreId) (e : Engine)
  /-- R27. A waiting SEMWAIT completes when the semaphore reaches its target. -/
  | semwaitSatisfied (c : CoreId) (q : Sequencer)
  /-- R156. A waiting WAITEV completes when its event reaches the target. -/
  | waitevSatisfied (c : CoreId)
  /-- R162. WFE resumes issue on a semaphore change, engine retire or fault, or event increment. -/
  | wfeWake (c : CoreId)
  /-- R162. WFE resumes after 65,536 clocks. -/
  | wfeTimeout (c : CoreId)
  /-- R19. A stalled DISP places its command once the queue has room. -/
  | dispPlace (c : CoreId)
  /-- R153. QDRAIN retires once queues are empty and engines idle. -/
  | qdrainComplete (c : CoreId)
  /-- R37. QCANCEL phase 3 ends when engines are idle and phase 4 clears the FIFOs. -/
  | qcancelComplete (c : CoreId)
  /-- R17. EXIT retires once engines are idle, discarding tokens and semaphores and counting completion. -/
  | taskEnd (c : CoreId)
  /-- R170. A SEMADD, FRAGSEL, TUSE or HISTRD that waited for earlier work retires. -/
  | deferredRetire (c : CoreId) (e : Engine)
  /-- R46. A wait-full or clear-on-read access proceeds once its granules are FULL. -/
  | fullEmptyWaitDone (c : CoreId)
  /-- R174. A copy, gather, scatter or zero writes its last unit and pushes its tokens. -/
  | copyComplete (c : CoreId) (e : Engine) (op units : Nat)
  /-- R179. A copy unit meets an unresolvable fault, ending the step with poisoned tokens or an engine fault. -/
  | copyUnitFault (c : CoreId) (e : Engine) (op : Nat)
  /-- R225. A matrix word completes its effects in program order and pushes its tokens. -/
  | matrixWordComplete (c : CoreId) (parts : Nat)
  /-- R225. CMP issue held by the 16-word or eight-batch limit resumes when a word or batch completes. -/
  | matrixIssueResume (c : CoreId)
  /-- R231. MSETTLE completes when enough batches have completed and acquires their effects. -/
  | msettleComplete (c : CoreId)
  /-- R232. An access fault ends a matrix word, keeping completed granules and discarding later words. -/
  | matrixWordFault (c : CoreId)
  /-- R66. A V = 0 fault on a matrix access holds the core's clocks for shadow service. -/
  | clockHold (c : CoreId)
  /-- R236. A waiting GLOAD, GFREE or GPARAM retires once earlier steps naming the slot complete. -/
  | slotChangeRetire (c : CoreId)
  /-- R160. An engine fault is taken at CTL's next boundary, entering the handler or ending the task. -/
  | trapEntry (c : CoreId)
  /-- R311. The shadow control context starts serving the next pending fault. -/
  | shadowFaultService (c : CoreId)
  /-- R311. A shadow service ends resolved or unresolvable and the faulting operation resumes or faults. -/
  | shadowServiceDone (c : CoreId) (resolved : Bool) (writes : HandlerWrites)
  /-- R67. A shadow service outlasting SHLIM becomes unresolvable. -/
  | shadowLimitExpiry (c : CoreId)
  /-- R65. A PRI page request group response arrives for a waiting access. -/
  | prgResponse (c : CoreId) (success : Bool)
  /-- R65. A host ATS invalidation is honoured under TLB completion rules. -/
  | atsInvalidation (pasid : BitVec 20) (addr len : DWord)
  /-- R59. The last use's accesses retire and a lifetime entry's dirty lines are dropped, making it DEAD. -/
  | tltDrainComplete (entry : BitVec 8)
  /-- R184. An MDEC stalled on a full engine queue places its job. -/
  | mdecQueuePlace (c : CoreId) (e : Engine)
  /-- R185. A media decode engine starts its next queued job. -/
  | mediaDecodeJob (m : BitVec 2)
  /-- R187. A job writes its status record and pushes its tokens. -/
  | mediaDecodeComplete (m : BitVec 2)
  /-- R293. The collective walker's last source read returns and SRC_FREE is raised. -/
  | srcFree (c : CoreId) (e : Engine) (op steps : Nat)
  /-- R295. A collective transfer arrives at Termite and is written or staged and counted. -/
  | collArrival (p : Part)
  /-- R295. After EXPECT arrivals, staged lines are combined in rank order and written. -/
  | collCombine (p : Part)
  /-- R296. Combined lines are written; LOCAL_DONE is raised and a report goes to the root. -/
  | localDone (i : Nat)
  /-- R296. The root receives a report and notifies all members once all have reported. -/
  | collReport (i : Nat)
  /-- R296. A member's notification arrives and ALL_DONE is raised. -/
  | allDone (i : Nat)
  /-- R294. Termite performs a queued memory-side access or atomic for a line. -/
  | termiteCommand (q : QueuePos)
  /-- R299. An RFLAG add reaches the target core's task or is refused. -/
  | rflagDelivery (c : CoreId)
  /-- R299. An MFLAG set reaches each masked core's task. -/
  | mflagDelivery (c tgt : CoreId)
  /-- R282. A store of 1 to ARM begins a Firefly round. -/
  | fireflyArm
  /-- R283. All logits written; Firefly filters, writes the result record and increments the event. -/
  | fireflyRound (i : Nat)
  /-- R301. A host write to LQTAIL publishes launch records. -/
  | lqtailDoorbell (q : BitVec 6) (v : DWord)
  /-- R301. The Launch Controller takes a record from a queue or the spawn pool into a free slot. -/
  | launchRecordRead
  /-- R36. The Launch Controller moves a spilled child record into the spawn pool. -/
  | spawnSpillMove (slot : BitVec 8)
  /-- R306. A launch's dependences are met and it becomes ready. -/
  | launchReady (slot : BitVec 8)
  /-- R122. A ready launch's container is fetched and checked. -/
  | containerLoad (slot : BitVec 8)
  /-- R307. On free cores or a ready launch, launches are selected and teams placed. -/
  | launchSelection
  /-- R309. A victim reaches its stop points and its state is written to its save area. -/
  | taskSave (c : CoreId)
  /-- R307. Each 10 ms of waiting raises a ready launch's effective priority. -/
  | priorityAging (slot : BitVec 8)
  /-- R313. All tasks ended and visibility holds; the completion record is written and the event incremented. -/
  | launchCompletion (slot : BitVec 8)
  /-- R64. A TLBICMD write with GO starts invalidation for a context and range. -/
  | tlbInvalidation (v : DWord)
  /-- R64. No access using the old entry remains in flight and GO clears. -/
  | tlbInvalidationComplete
  /-- R304. CTXCMD DESTROY frees a context's slots, hypotheses, lifetime entries and containers. -/
  | ctxDestroy (ctx : BitVec 6)
  /-- R304. CTXCMD UNLOAD makes a resident container non-resident. -/
  | ctxUnload (ctx : BitVec 6)
  /-- R334. RESETCTL KIND 1 or a PCIe hot reset performs a warm device reset. -/
  | warmDeviceReset
  /-- R315. RESETCTL KIND 2 ends a die's tasks, quiesces, retrains and re-admits the die. -/
  | warmDieReset (die : BitVec 2)
  /-- R334. RESETCTL KIND 3 ends the core's task and group and clears the core. -/
  | coreReset (c : CoreId)
  /-- R335. Power-on or PERST# brings the device up through verified boot. -/
  | coldReset (up : BringUp)
  /-- R332. The fused thermal trip removes compute-die power. -/
  | thermalTrip
  /-- R333. Approaching power or thermal limits starts or stops issue throttling. -/
  | throttleChange (power thermal : Bool)
  /-- R314. A die-to-die link fails, ending spanning tasks with LINK_DOWN. -/
  | ucieLinkFailure (a b : BitVec 3)
  /-- R331. A Nudon port trains after its partner completes SPDM authentication. -/
  | nudonPortTrain (port : BitVec 4) (authenticated : Bool)
  /-- R335. A PCIe configuration request is answered, with retry status until READY or BOOTFAIL. -/
  | configRequest (fn : BitVec 4)
  /-- R4. A BAR0 write to a register with no behaviour of its own stores per its access codes. -/
  | registerWrite (fn : BitVec 4) (off : BitVec 32) (v : DWord)
  /-- R323. A read of VIOLCNT returns and clears the count. -/
  | violcntRead (fn : BitVec 4)
  /-- R305. A read of LDROP returns and clears the count. -/
  | ldropRead
  /-- R323. An untrusted access to a TDI private page reads all ones, discards writes and counts a violation. -/
  | untrustedPrivateAccess (fn : BitVec 4) (isWrite : Bool)
  /-- R321. A TLP of a locked TDI fails IDE checks, is discarded and moves the TDI to ERROR. -/
  | ideIntegrityFailure (fn : BitVec 4)
  /-- R319. A function-level reset moves a locked TDI to ERROR. -/
  | functionLevelReset (fn : BitVec 4)
  /-- R331. A debug enable moves every locked TDI to ERROR. -/
  | debugEnable
  /-- R322. Every 100 µs the locked set is digested and compared, moving the TDI to ERROR on mismatch. -/
  | lockDigestWalk
  /-- R327. The last 6 µs of a frame seal the outgoing world's state and clear the core. -/
  | frameSeal (c : CoreId)
  /-- R326. A frame begins for the next valid entry and its world runs. -/
  | frameStart (c : CoreId)
  /-- R330. A write to CHRESET discards slots in flight and opens the bounce channel. -/
  | channelReset (fn : BitVec 4) (ch : BitVec 2) (base : Word)
  /-- R329. The host writes its producer tail for a host-to-device channel. -/
  | chdoorWrite (fn : BitVec 4) (ch : BitVec 2) (tail : BitVec 16)
  /-- R330. The channel unit checks a slot and copies it to the other ring or enters RESYNC. -/
  | bounceSlotCopy (fn : BitVec 4) (ch : BitVec 2)
  /-- R317. SPDM GET_VERSION request. -/
  | getVersion
  /-- R317. SPDM GET_CAPABILITIES request. -/
  | getCapabilities
  /-- R317. SPDM algorithm negotiation, refused if nothing supported is offered. -/
  | negotiateAlgorithms (supported : Bool)
  /-- R317. SPDM GET_DIGESTS request. -/
  | getDigests
  /-- R317. SPDM GET_CERTIFICATE request for slot 0 or 1. -/
  | getCertificate (slot : BitVec 8)
  /-- R317. SPDM CHALLENGE request. -/
  | challenge (slot : BitVec 8)
  /-- R317. SPDM GET_MEASUREMENTS request for the boot measurement blocks. -/
  | getMeasurements (block : BitVec 8)
  /-- R317. SPDM KEY_EXCHANGE with SM2-P256 ECDHE. -/
  | keyExchange
  /-- R317. SPDM FINISH completing a secured session. -/
  | finish
  /-- R317. SPDM KEY_UPDATE on a session. -/
  | keyUpdate
  /-- R317. SPDM HEARTBEAT on a session. -/
  | heartbeat
  /-- R317. SPDM END_SESSION. -/
  | endSession
  /-- R317. An SPDM request outside the supported set receives ERROR UnsupportedRequest. -/
  | spdmUnsupportedRequest (code : BitVec 8)
  /-- R321. An IDE_KM message over a secured session sets up a selective IDE stream. -/
  | ideKm (fn : BitVec 4)
  /-- R321. IDE_KM K_SET_GO switches a stream's key set. -/
  | kSetGo (fn : BitVec 4) (set : Bool)
  /-- R318. TDISP version request. -/
  | getTdispVersion (fn : BitVec 4)
  /-- R318. TDISP capabilities request. -/
  | getTdispCapabilities (fn : BitVec 4)
  /-- R319. Locks a TDI, capturing descriptors, generating a key and taking the lock digest. -/
  | lockInterfaceRequest (fn : BitVec 4) (queues ctxs : DWord)
  /-- R318. TDISP interface report request. -/
  | getDeviceInterfaceReport (fn : BitVec 4)
  /-- R318. TDISP interface state request. -/
  | getDeviceInterfaceState (fn : BitVec 4)
  /-- R319. Moves a locked TDI to RUN. -/
  | startInterfaceRequest (fn : BitVec 4)
  /-- R319. Ends the world's tasks, refuses its launches, destroys its key and unlocks the TDI. -/
  | stopInterfaceRequest (fn : BitVec 4)
  /-- R318. Any other TDISP message receives TDISP_ERROR UNSUPPORTED_REQUEST. -/
  | tdispUnsupportedRequest (fn : BitVec 4) (code : BitVec 8)
  /-- R338. MCTP control message for discovery, EID assignment or version query. -/
  | mctpControl (cmd eid : BitVec 8)
  /-- R338. PLDM Type 0 discovery message. -/
  | pldmDiscovery
  /-- R338. PLDM Type 2 sensor monitoring and control message. -/
  | pldmMonitoring (sensor : BitVec 8)
  /-- R338. PLDM Type 5 message staging a firmware image. -/
  | pldmFirmwareUpdate (part : FwPart) (image : FwImage)
  /-- R338. An MCTP message of an unsupported type is discarded. -/
  | mctpUnsupportedType (ty : BitVec 8)
  /-- R63. A load, store or AMO from another device of the load-store domain arrives over Nudon for a FAB leaf, is translated again against this device's map and is performed at its home. -/
  | remoteHomeAccess (dev : BitVec 9) (acc : RemoteReq)
  /-- R323. A trusted TLP to a TDI's shared register page completes as Unsupported Request. -/
  | trustedSharedPageAccess (fn : BitVec 4)
  deriving DecidableEq, Repr, Inhabited

end Sys2Proof
end

