-- ==== Sys2Proof/Config.lean ====
section
/-!
DEFINITION. What the specification leaves to the implementation or to the world outside: which agent moves next, the
values it leaves open, and the functions of units whose inner working it does not give. Every constant here is opaque:
nothing can be proved about its value, so a claim holds whatever it is.
-/

namespace Sys2Proof

/-- Something that happens next: a sequencer of a core runs the word it stands at, the Operand Generator Unit of a core
runs one word, a step of the device without a word takes place, or the outside world acts. -/
inductive Act where
  /-- Sequencer `q` of core `c` takes its next word. -/
  | seq (c : CoreId) (q : Sequencer)
  /-- The OGU of core `c` runs the next word of its evaluation, or begins one (R243). -/
  | ogu (c : CoreId)
  /-- A step of the device that no word encodes. -/
  | event (i : Instr)
  /-- The host, a peer or a storage device writes physical memory (R40, R65, R182). -/
  | hostWrite (pa : BitVec 52) (bytes : List Byte)
  /-- Another device of the load-store domain writes its own memory (R261). -/
  | remoteWrite (dev : BitVec 9) (pa : BitVec 52) (bytes : List Byte)
  /-- Another device becomes reachable or unreachable (R289). -/
  | remoteLink (dev : BitVec 9) (up : Bool)
  /-- An ATS page of a PASID becomes present or absent at the host (R65). -/
  | atsPage (pasid : BitVec 20) (page : BitVec 36) (present : Bool)
  /-- The host reads a register of BAR0 of a function; `t`: the TLP carries T = 1 on the function's IDE stream (R323). -/
  | barRead (fn : BitVec 4) (t : Bool) (off : BitVec 32)
  /-- A debug access is attempted (R331). -/
  | debugAccess
  /-- Steps 5 and 6 of a warm die reset: the die's links are retrained and it is re-admitted (R315). -/
  | dieReadmit (d : BitVec 2)
  /-- What the flash holds as the image of a part changes (R316). -/
  | flashChange (part : FwPart) (image : FwImage)
  /-- A line becomes uncorrectable, or is repaired by a write from outside (R312). -/
  | upset (line : BitVec 45) (bad : Bool)
  /-- An access that has issued to a home elsewhere is performed there, by its number (R261). -/
  | perform (n : Nat)
  /-- CMP of a core reads one 16-byte granule for the word it stands at ahead of the rest of it (R45, R257): of a typed
  buffer by its number, of memory by its virtual address / 16. -/
  | peekCmp (c : CoreId) (g : BitVec 60)
  /-- LDS or STS of a core reads one 16-byte granule of the record that the word it stands at reads (R257). -/
  | peekRec (c : CoreId) (sts : Bool) (g : BitVec 60)
  /-- A copy step of LDS or STS reads a granule of its source ahead. -/
  | peekCopy (c : CoreId) (sts : Bool) (op : Nat) (g : BitVec 60)
  /-- The matrix engine reads a granule of a space for a word in flight ahead. -/
  | peekMat (c : CoreId) (id : Nat) (sp : Space) (g : BitVec 60)
  /-- A media decode engine reads a granule of its bitstream ahead. -/
  | peekJob (eng : BitVec 2) (g : BitVec 60)
  /-- A media decode engine makes progress: it reads its bitstream, or writes up to n granules of its frames (R257). -/
  | jobPart (eng : BitVec 2) (n : Nat)
  /-- A copy step moves one 16-byte granule of its next unit ahead of the rest of it (R257). -/
  | copyPart (c : CoreId) (sts : Bool) (op : Nat) (g : BitVec 60)
  /-- A granule of a typed buffer becomes uncorrectable, or is put right (R312). -/
  | sramUpset (c : CoreId) (sp : Space) (g : BitVec 18) (bad : Bool)
  /-- An RFLAG of another device arrives for the task of a launch here (R299). -/
  | flagIn (slot : BitVec 8) (tgt : CoreId) (sem : BitVec 4) (val : DWord)
  /-- Another device's collective transfer reaches this one (R289, R293). -/
  | collData (x : InColl)
  /-- Another device's member reports to a root here, by context, COLLID, root core and member word (R296). -/
  | collReportIn (ctx : BitVec 6) (collid : Word) (root : CoreId) (member : Word)
  /-- A root on another device notifies a member here (R296). -/
  | collNoteIn (ctx : BitVec 6) (collid : Word) (tgt : CoreId)
  /-- Nothing happens but time. -/
  | idle
  deriving DecidableEq, Repr, Inhabited

/-- One entry of the schedule: how many clocks pass, and what happens then. -/
structure Move where
  clocks : Nat
  act    : Act
  deriving DecidableEq, Repr, Inhabited

namespace Config

/-- The move made when the schedule in the state is empty (log 4): the specification fixes no order between agents
and no durations. -/
opaque move : Nat → Move

/-- What the boot ROM measures as (R316, R317). -/
opaque bootRom : BitVec 32

/-- A byte whose value the specification leaves open, by a number drawn from the state's counter and a place. -/
opaque freeByte : Nat → Nat → Byte

/-- Byte i of the stored ciphertext of a line (R324): by world, key generation, line and the 128 plaintext bytes. The
cipher's value under keys the specification does not give is open. -/
opaque cipher : Nat → Nat → Nat → List Byte → Nat → Byte

/-- What another device answers to an RFLAG (R155, R299): 1 refused for overflow, 2 refused because no task of the
launch stands there, otherwise applied. -/
opaque remoteFlag : Nat → BitVec 2

/-- Pseudo-channels missing from a stack of another device, which that device's own map knows (R14, R40, R63). -/
opaque remoteOff : Nat → Nat → Fin 5

/-- What a bitstream declares and codes, by codec and bytes (R185): the standards that fix it are no part of the
specification (log 14). -/
opaque mediaDecode : Nat → List Byte → Decoded

end Config

end Sys2Proof
end

