-- ==== Sys2Proof/WellFormed.lean ====
section
/-!
DEFINITION. Which instructions are well formed: the operands that the field rules of 11_encoding_rules.md allow beyond
what the types of Instr already say (R26, R47, R124, R126, R128, R131, R135 to R138). A word of an ill-formed
instruction would be refused by the decoder.
-/

namespace Sys2Proof

/-- Spaces that carry full-empty granules: the W- and A-buffers (R46, R47). -/
def Space.isTyped : Space → Bool
  | .abuf => true
  | .wbuf => true
  | .glob => false
  | .cbuf => false

/-- An LDS word has a neighbour on its next side only: WN and SN (R26, R137). -/
def Tok.fitsLds (t : Tok) : Bool := !t.wp && !t.sp

/-- An STS word has a neighbour on its previous side only: WP and SP (R26, R137). -/
def Tok.fitsSts (t : Tok) : Bool := !t.wn && !t.sn

/-- Token bits that some transfer sequencer accepts. -/
def Tok.fitsTransfer (t : Tok) : Bool := t.fitsLds || t.fitsSts

/-- The section an instruction belongs to (R123); `event` has no word. -/
inductive Section where
  | ctl | xfer | cmp | gen | event
  deriving DecidableEq, Repr, Inhabited

/-- The section of each instruction. -/
def Instr.sect : Instr → Section
  | .add _ _ _ _ => .ctl
  | .sub _ _ _ _ => .ctl
  | .and _ _ _ _ => .ctl
  | .or _ _ _ _ => .ctl
  | .xor _ _ _ _ => .ctl
  | .shl _ _ _ _ => .ctl
  | .shr _ _ _ _ => .ctl
  | .sra _ _ _ _ => .ctl
  | .rol _ _ _ _ => .ctl
  | .slt _ _ _ _ => .ctl
  | .sltu _ _ _ _ => .ctl
  | .min _ _ _ _ => .ctl
  | .max _ _ _ _ => .ctl
  | .minu _ _ _ _ => .ctl
  | .maxu _ _ _ _ => .ctl
  | .clz _ _ _ => .ctl
  | .ctz _ _ _ => .ctl
  | .popc _ _ _ => .ctl
  | .addi _ _ _ => .ctl
  | .slti _ _ _ => .ctl
  | .sltiu _ _ _ => .ctl
  | .andi _ _ _ => .ctl
  | .ori _ _ _ => .ctl
  | .xori _ _ _ => .ctl
  | .shli _ _ _ _ => .ctl
  | .shri _ _ _ _ => .ctl
  | .srai _ _ _ _ => .ctl
  | .roli _ _ _ _ => .ctl
  | .lui _ _ => .ctl
  | .lih _ _ => .ctl
  | .mul _ _ _ _ => .ctl
  | .mulh _ _ _ => .ctl
  | .mulhu _ _ _ => .ctl
  | .div _ _ _ _ => .ctl
  | .divu _ _ _ _ => .ctl
  | .rem _ _ _ _ => .ctl
  | .remu _ _ _ _ => .ctl
  | .ldb _ _ _ => .ctl
  | .ldbu _ _ _ => .ctl
  | .ldh _ _ _ => .ctl
  | .ldhu _ _ _ => .ctl
  | .ldw _ _ _ => .ctl
  | .ldwu _ _ _ => .ctl
  | .ldd _ _ _ => .ctl
  | .stb _ _ _ => .ctl
  | .sth _ _ _ => .ctl
  | .stw _ _ _ => .ctl
  | .std _ _ _ => .ctl
  | .amoadd _ _ _ _ _ => .ctl
  | .amoand _ _ _ _ _ => .ctl
  | .amoor _ _ _ _ _ => .ctl
  | .amoxor _ _ _ _ _ => .ctl
  | .amomin _ _ _ _ _ => .ctl
  | .amomax _ _ _ _ _ => .ctl
  | .amominu _ _ _ _ _ => .ctl
  | .amomaxu _ _ _ _ _ => .ctl
  | .amoswap _ _ _ _ _ => .ctl
  | .amocas _ _ _ _ _ => .ctl
  | .amofadd _ _ _ _ _ => .ctl
  | .amonswap _ _ _ _ _ => .ctl
  | .cwb _ _ => .ctl
  | .cinv _ _ => .ctl
  | .cwbinv _ _ => .ctl
  | .cpref _ _ => .ctl
  | .beq _ _ _ => .ctl
  | .bne _ _ _ => .ctl
  | .blt _ _ _ => .ctl
  | .bge _ _ _ => .ctl
  | .bltu _ _ _ => .ctl
  | .bgeu _ _ _ => .ctl
  | .jal _ => .ctl
  | .jalr _ _ _ => .ctl
  | .loop _ _ => .ctl
  | .disp _ _ _ _ => .ctl
  | .dispx _ _ _ => .ctl
  | .qcancel _ => .ctl
  | .qdrain => .ctl
  | .qstatrd _ => .ctl
  | .semadd _ _ => .ctl
  | .semwait _ _ => .ctl
  | .rflag _ _ _ => .ctl
  | .mflag _ _ _ => .ctl
  | .spawn _ => .ctl
  | .waitev _ _ => .ctl
  | .exit => .ctl
  | .sigev _ _ => .ctl
  | .hopen _ _ => .ctl
  | .hwin _ _ => .ctl
  | .hset _ => .ctl
  | .hresolve _ _ => .ctl
  | .hcommit _ _ => .ctl
  | .hstat _ _ => .ctl
  | .gload _ _ => .ctl
  | .gfree _ => .ctl
  | .gparam _ _ => .ctl
  | .palloc _ _ => .ctl
  | .pfree _ => .ctl
  | .tltset _ _ _ => .ctl
  | .tltuse _ => .ctl
  | .mapw _ _ _ => .ctl
  | .unmapw _ => .ctl
  | .csrd _ _ => .ctl
  | .cswr _ _ => .ctl
  | .trap _ => .ctl
  | .rett => .ctl
  | .brk => .ctl
  | .fence _ => .ctl
  | .wfe => .ctl
  | .xferNop _ => .xfer
  | .xferEnd _ => .xfer
  | .copy _ _ _ _ _ _ _ => .xfer
  | .gath _ _ _ _ _ _ _ => .xfer
  | .scat _ _ _ _ _ _ _ => .xfer
  | .boxld _ _ _ => .xfer
  | .aadd _ _ _ _ => .xfer
  | .ali _ _ _ => .xfer
  | .amov _ _ _ => .xfer
  | .xferSemwait _ _ _ => .xfer
  | .xferSemadd _ _ _ => .xfer
  | .loopt _ _ _ => .xfer
  | .coll _ _ => .xfer
  | .mdec _ _ => .xfer
  | .pref _ _ _ _ => .xfer
  | .zero _ _ _ _ => .xfer
  | .tuse _ _ => .xfer
  | .vadd _ _ _ _ _ => .cmp
  | .vsub _ _ _ _ _ => .cmp
  | .vmul _ _ _ _ _ => .cmp
  | .vmulh _ _ _ _ _ => .cmp
  | .vfma _ _ _ _ _ => .cmp
  | .vfms _ _ _ _ _ => .cmp
  | .vmin _ _ _ _ _ => .cmp
  | .vmax _ _ _ _ _ => .cmp
  | .vabs _ _ _ _ => .cmp
  | .vneg _ _ _ _ => .cmp
  | .vdiv _ _ _ _ _ => .cmp
  | .vsqrt _ _ _ _ => .cmp
  | .vrcp _ _ _ _ => .cmp
  | .vrsq _ _ _ _ => .cmp
  | .vexp2 _ _ _ _ => .cmp
  | .vlog2 _ _ _ _ => .cmp
  | .vand _ _ _ _ _ => .cmp
  | .vor _ _ _ _ _ => .cmp
  | .vxor _ _ _ _ _ => .cmp
  | .vnot _ _ _ _ => .cmp
  | .vshl _ _ _ _ _ => .cmp
  | .vshr _ _ _ _ _ => .cmp
  | .vsra _ _ _ _ _ => .cmp
  | .vfshl _ _ _ _ _ => .cmp
  | .vfshr _ _ _ _ _ => .cmp
  | .vclz _ _ _ _ => .cmp
  | .vpopc _ _ _ _ => .cmp
  | .vsel _ _ _ _ _ => .cmp
  | .vmov _ _ _ _ => .cmp
  | .vcvt _ _ _ _ _ => .cmp
  | .vcmpeq _ _ _ _ _ => .cmp
  | .vcmplt _ _ _ _ _ => .cmp
  | .vcmple _ _ _ _ _ => .cmp
  | .vcmpne _ _ _ _ _ => .cmp
  | .vadds _ _ _ _ _ => .cmp
  | .vsubs _ _ _ _ _ => .cmp
  | .vredsum _ _ _ _ => .cmp
  | .vredmax _ _ _ _ => .cmp
  | .vredmin _ _ _ _ => .cmp
  | .vscan _ _ _ _ => .cmp
  | .vscanx _ _ _ _ => .cmp
  | .vbcast _ _ _ _ _ => .cmp
  | .viota _ _ _ => .cmp
  | .vaccept _ _ _ _ _ => .cmp
  | .vfirst _ _ _ _ => .cmp
  | .vhash _ _ _ _ _ => .cmp
  | .vunif _ _ _ _ => .cmp
  | .vld _ _ _ _ _ _ => .cmp
  | .vst _ _ _ _ _ _ => .cmp
  | .vldi _ _ _ _ _ _ => .cmp
  | .vsti _ _ _ _ _ _ => .cmp
  | .vstu _ _ _ _ _ _ => .cmp
  | .vgath _ _ _ _ _ _ => .cmp
  | .vscat _ _ _ _ _ _ => .cmp
  | .vpart _ _ _ _ _ => .cmp
  | .vperm _ _ _ _ => .cmp
  | .vldb _ _ _ _ _ _ => .cmp
  | .mma _ _ _ _ _ => .cmp
  | .mmaz _ _ _ _ _ => .cmp
  | .mmv _ _ _ _ _ => .cmp
  | .mdrain _ _ _ _ _ _ _ => .cmp
  | .mseal _ => .cmp
  | .msettle _ _ => .cmp
  | .accz _ _ => .cmp
  | .accld _ _ _ => .cmp
  | .cmpNop _ => .cmp
  | .cmpEnd _ => .cmp
  | .shape _ _ _ _ _ _ => .cmp
  | .sld _ _ _ _ => .cmp
  | .smod _ _ _ _ => .cmp
  | .kadd _ _ _ _ => .cmp
  | .kli _ _ _ => .cmp
  | .kmov _ _ _ => .cmp
  | .vli _ _ _ => .cmp
  | .pset _ _ _ => .cmp
  | .cmpSemwait _ _ _ => .cmp
  | .cmpSemadd _ _ _ => .cmp
  | .loopk _ _ _ => .cmp
  | .fragsel _ _ _ => .cmp
  | .histrd _ _ _ _ => .cmp
  | .feclr _ _ _ _ => .cmp
  | .gstat _ _ _ => .cmp
  | .genAdd _ _ _ => .gen
  | .genSub _ _ _ => .gen
  | .genMul _ _ _ => .gen
  | .genMulhu _ _ _ => .gen
  | .genAnd _ _ _ => .gen
  | .genOr _ _ _ => .gen
  | .genXor _ _ _ => .gen
  | .genShl _ _ _ => .gen
  | .genShr _ _ _ => .gen
  | .genSra _ _ _ => .gen
  | .genRotl _ _ _ => .gen
  | .genAddi _ _ _ => .gen
  | .genXori _ _ _ => .gen
  | .genLi _ _ => .gen
  | .genLui _ _ => .gen
  | .genHash _ _ _ => .gen
  | .genSel _ _ _ => .gen
  | .genSltu _ _ _ => .gen
  | .genSlt _ _ _ => .gen
  | .genFadd _ _ _ => .gen
  | .genFmul _ _ _ => .gen
  | .genFfma _ _ _ => .gen
  | .genI2f _ _ => .gen
  | .genUnif _ _ => .gen
  | .genRade _ _ => .gen
  | .genFneg _ _ => .gen
  | .genFmin _ _ _ => .gen
  | .genFmax _ _ _ => .gen
  | .genLoop _ _ => .gen
  | .genOut _ => .gen
  | .genOuti _ => .gen
  | .illegalInstrFetch _ _ => .event
  | .commandPop _ _ => .event
  | .tokenWaitIssue _ _ => .event
  | .tokenPushDelayed _ _ => .event
  | .semwaitSatisfied _ _ => .event
  | .waitevSatisfied _ => .event
  | .wfeWake _ => .event
  | .wfeTimeout _ => .event
  | .dispPlace _ => .event
  | .qdrainComplete _ => .event
  | .qcancelComplete _ => .event
  | .taskEnd _ => .event
  | .deferredRetire _ _ => .event
  | .fullEmptyWaitDone _ => .event
  | .copyComplete _ _ _ _ => .event
  | .copyUnitFault _ _ _ => .event
  | .matrixWordComplete _ _ => .event
  | .matrixIssueResume _ => .event
  | .msettleComplete _ => .event
  | .matrixWordFault _ => .event
  | .clockHold _ => .event
  | .slotChangeRetire _ => .event
  | .trapEntry _ => .event
  | .shadowFaultService _ => .event
  | .shadowServiceDone _ _ _ => .event
  | .shadowLimitExpiry _ => .event
  | .prgResponse _ _ => .event
  | .atsInvalidation _ _ _ => .event
  | .tltDrainComplete _ => .event
  | .mdecQueuePlace _ _ => .event
  | .mediaDecodeJob _ => .event
  | .mediaDecodeComplete _ => .event
  | .srcFree _ _ _ _ => .event
  | .collArrival _ => .event
  | .collCombine _ => .event
  | .localDone _ => .event
  | .collReport _ => .event
  | .allDone _ => .event
  | .termiteCommand _ => .event
  | .rflagDelivery _ => .event
  | .mflagDelivery _ _ => .event
  | .fireflyArm => .event
  | .fireflyRound _ => .event
  | .lqtailDoorbell _ _ => .event
  | .launchRecordRead => .event
  | .spawnSpillMove _ => .event
  | .launchReady _ => .event
  | .containerLoad _ => .event
  | .launchSelection => .event
  | .taskSave _ => .event
  | .priorityAging _ => .event
  | .launchCompletion _ => .event
  | .tlbInvalidation _ => .event
  | .tlbInvalidationComplete => .event
  | .ctxDestroy _ => .event
  | .ctxUnload _ => .event
  | .warmDeviceReset => .event
  | .warmDieReset _ => .event
  | .coreReset _ => .event
  | .coldReset _ => .event
  | .thermalTrip => .event
  | .throttleChange _ _ => .event
  | .ucieLinkFailure _ _ => .event
  | .nudonPortTrain _ _ => .event
  | .configRequest _ => .event
  | .registerWrite _ _ _ => .event
  | .violcntRead _ => .event
  | .ldropRead => .event
  | .untrustedPrivateAccess _ _ => .event
  | .ideIntegrityFailure _ => .event
  | .functionLevelReset _ => .event
  | .debugEnable => .event
  | .lockDigestWalk => .event
  | .frameSeal _ => .event
  | .frameStart _ => .event
  | .channelReset _ _ _ => .event
  | .chdoorWrite _ _ _ => .event
  | .bounceSlotCopy _ _ => .event
  | .getVersion => .event
  | .getCapabilities => .event
  | .negotiateAlgorithms _ => .event
  | .getDigests => .event
  | .getCertificate _ => .event
  | .challenge _ => .event
  | .getMeasurements _ => .event
  | .keyExchange => .event
  | .finish => .event
  | .keyUpdate => .event
  | .heartbeat => .event
  | .endSession => .event
  | .spdmUnsupportedRequest _ => .event
  | .ideKm _ => .event
  | .kSetGo _ _ => .event
  | .getTdispVersion _ => .event
  | .getTdispCapabilities _ => .event
  | .lockInterfaceRequest _ _ _ => .event
  | .getDeviceInterfaceReport _ => .event
  | .getDeviceInterfaceState _ => .event
  | .startInterfaceRequest _ => .event
  | .stopInterfaceRequest _ => .event
  | .tdispUnsupportedRequest _ _ => .event
  | .mctpControl _ _ => .event
  | .pldmDiscovery => .event
  | .pldmMonitoring _ => .event
  | .pldmFirmwareUpdate _ _ => .event
  | .mctpUnsupportedType _ => .event
  | .remoteHomeAccess _ _ => .event
  | .trustedSharedPageAccess _ => .event

/-- The conditions on operands that the types of Instr leave open. -/
def Instr.wf : Instr → Bool
  | .add _ _ _ _ => true
  | .sub _ _ _ _ => true
  | .and _ _ _ _ => true
  | .or _ _ _ _ => true
  | .xor _ _ _ _ => true
  | .shl _ _ _ _ => true
  | .shr _ _ _ _ => true
  | .sra _ _ _ _ => true
  | .rol _ _ _ _ => true
  | .slt _ _ _ _ => true
  | .sltu _ _ _ _ => true
  | .min _ _ _ _ => true
  | .max _ _ _ _ => true
  | .minu _ _ _ _ => true
  | .maxu _ _ _ _ => true
  | .clz _ _ _ => true
  | .ctz _ _ _ => true
  | .popc _ _ _ => true
  | .addi _ _ _ => true
  | .slti _ _ _ => true
  | .sltiu _ _ _ => true
  | .andi _ _ _ => true
  | .ori _ _ _ => true
  | .xori _ _ _ => true
  | .shli _ _ w imm => !w || decide (imm.toNat < 32)
  | .shri _ _ w imm => !w || decide (imm.toNat < 32)
  | .srai _ _ w imm => !w || decide (imm.toNat < 32)
  | .roli _ _ w imm => !w || decide (imm.toNat < 32)
  | .lui _ _ => true
  | .lih _ _ => true
  | .mul _ _ _ _ => true
  | .mulh _ _ _ => true
  | .mulhu _ _ _ => true
  | .div _ _ _ _ => true
  | .divu _ _ _ _ => true
  | .rem _ _ _ _ => true
  | .remu _ _ _ _ => true
  | .ldb _ _ _ => true
  | .ldbu _ _ _ => true
  | .ldh _ _ _ => true
  | .ldhu _ _ _ => true
  | .ldw _ _ _ => true
  | .ldwu _ _ _ => true
  | .ldd _ _ _ => true
  | .stb _ _ _ => true
  | .sth _ _ _ => true
  | .stw _ _ _ => true
  | .std _ _ _ => true
  | .amoadd _ _ _ _ _ => true
  | .amoand _ _ _ _ _ => true
  | .amoor _ _ _ _ _ => true
  | .amoxor _ _ _ _ _ => true
  | .amomin _ _ _ _ _ => true
  | .amomax _ _ _ _ _ => true
  | .amominu _ _ _ _ _ => true
  | .amomaxu _ _ _ _ _ => true
  | .amoswap _ _ _ _ _ => true
  | .amocas _ _ _ _ _ => true
  | .amofadd _ _ _ _ _ => true
  | .amonswap _ _ _ _ _ => true
  | .cwb _ _ => true
  | .cinv _ _ => true
  | .cwbinv _ _ => true
  | .cpref _ _ => true
  | .beq _ _ _ => true
  | .bne _ _ _ => true
  | .blt _ _ _ => true
  | .bge _ _ _ => true
  | .bltu _ _ _ => true
  | .bgeu _ _ _ => true
  | .jal _ => true
  | .jalr _ _ _ => true
  | .loop _ imm => imm != 0
  | .disp _ _ _ _ => true
  | .dispx _ _ _ => true
  | .qcancel _ => true
  | .qdrain => true
  | .qstatrd _ => true
  | .semadd _ _ => true
  | .semwait _ _ => true
  | .rflag _ _ _ => true
  | .mflag _ a _ => a != 31
  | .spawn _ => true
  | .waitev _ _ => true
  | .exit => true
  | .sigev _ _ => true
  | .hopen _ _ => true
  | .hwin _ _ => true
  | .hset _ => true
  | .hresolve _ _ => true
  | .hcommit _ _ => true
  | .hstat _ _ => true
  | .gload _ _ => true
  | .gfree _ => true
  | .gparam a _ => decide (a.toNat ≤ 28)
  | .palloc _ _ => true
  | .pfree _ => true
  | .tltset _ _ _ => true
  | .tltuse _ => true
  | .mapw _ _ _ => true
  | .unmapw _ => true
  | .csrd _ _ => true
  | .cswr _ _ => true
  | .trap _ => true
  | .rett => true
  | .brk => true
  | .fence a => decide (a.toNat ≤ 4)
  | .wfe => true
  | .xferNop t => t.fitsTransfer && t != { }
  | .xferEnd t => t.fitsTransfer
  | .copy t _ _ _ _ _ _ => t.fitsTransfer
  | .gath t _ _ _ _ _ _ => t.fitsTransfer
  | .scat t _ _ _ _ _ _ => t.fitsTransfer
  | .boxld t _ _ => t.fitsTransfer
  | .aadd t _ _ _ => t.fitsTransfer
  | .ali t _ _ => t.fitsTransfer
  | .amov t _ _ => t.fitsTransfer
  | .xferSemwait t _ _ => t.fitsTransfer
  | .xferSemadd t _ _ => t.fitsTransfer
  | .loopt t _ imm => t.fitsTransfer && imm != 0
  | .coll t _ => t.fitsTransfer
  | .mdec t _ => t.fitsTransfer
  | .pref t _ _ _ => t.fitsTransfer
  | .zero t _ _ _ => t.fitsTransfer
  | .tuse t _ => t.fitsTransfer
  | .vadd t p d a b => !(t == { } && p == { } && d == 0 && a == 0 && b == .v 0)
  | .vsub _ _ _ _ _ => true
  | .vmul _ _ _ _ _ => true
  | .vmulh _ _ _ _ _ => true
  | .vfma _ _ _ _ _ => true
  | .vfms _ _ _ _ _ => true
  | .vmin _ _ _ _ _ => true
  | .vmax _ _ _ _ _ => true
  | .vabs _ _ _ _ => true
  | .vneg _ _ _ _ => true
  | .vdiv _ _ _ _ _ => true
  | .vsqrt _ _ _ _ => true
  | .vrcp _ _ _ _ => true
  | .vrsq _ _ _ _ => true
  | .vexp2 _ _ _ _ => true
  | .vlog2 _ _ _ _ => true
  | .vand _ _ _ _ _ => true
  | .vor _ _ _ _ _ => true
  | .vxor _ _ _ _ _ => true
  | .vnot _ _ _ _ => true
  | .vshl _ _ _ _ _ => true
  | .vshr _ _ _ _ _ => true
  | .vsra _ _ _ _ _ => true
  | .vfshl _ _ _ _ _ => true
  | .vfshr _ _ _ _ _ => true
  | .vclz _ _ _ _ => true
  | .vpopc _ _ _ _ => true
  | .vsel _ _ _ _ _ => true
  | .vmov _ _ _ _ => true
  | .vcvt _ _ _ _ _ => true
  | .vcmpeq _ _ d _ _ => d != 0
  | .vcmplt _ _ d _ _ => d != 0
  | .vcmple _ _ d _ _ => d != 0
  | .vcmpne _ _ d _ _ => d != 0
  | .vadds _ _ _ _ _ => true
  | .vsubs _ _ _ _ _ => true
  | .vredsum _ _ _ _ => true
  | .vredmax _ _ _ _ => true
  | .vredmin _ _ _ _ => true
  | .vscan _ _ _ _ => true
  | .vscanx _ _ _ _ => true
  | .vbcast _ _ _ _ _ => true
  | .viota _ _ _ => true
  | .vaccept _ _ _ _ _ => true
  | .vfirst _ _ _ _ => true
  | .vhash _ _ _ _ _ => true
  | .vunif _ _ _ _ => true
  | .vld _ _ _ _ sp q => q == .plain || sp.isTyped
  | .vst _ _ _ _ sp q => q == .plain || sp.isTyped
  | .vldi _ _ _ _ sp q => q == .plain || sp.isTyped
  | .vsti _ _ _ _ sp q => q == .plain || sp.isTyped
  | .vstu _ _ _ _ sp q => q == .plain || sp.isTyped
  | .vgath _ _ _ _ _ _ => true
  | .vscat _ _ _ _ _ _ => true
  | .vpart _ _ _ _ _ => true
  | .vperm _ _ _ _ => true
  | .vldb _ _ _ _ sp q => q == .plain || sp.isTyped
  | .mma _ _ _ _ _ => true
  | .mmaz _ _ _ _ _ => true
  | .mmv _ _ _ _ _ => true
  | .mdrain _ _ _ _ _ hist set => hist || set == 0
  | .mseal _ => true
  | .msettle _ _ => true
  | .accz _ _ => true
  | .accld _ _ _ => true
  | .cmpNop _ => true
  | .cmpEnd _ => true
  | .shape _ ty _ _ _ _ => decide (ty.code ≤ 10)
  | .sld _ _ _ sp => sp != .cbuf
  | .smod _ _ _ _ => true
  | .kadd _ _ _ _ => true
  | .kli _ _ _ => true
  | .kmov _ _ _ => true
  | .vli _ _ _ => true
  | .pset _ d _ => d != 0
  | .cmpSemwait _ _ _ => true
  | .cmpSemadd _ _ _ => true
  | .loopk _ _ imm => imm != 0
  | .fragsel _ _ _ => true
  | .histrd _ _ _ _ => true
  | .feclr _ sp _ _ => sp.isTyped
  | .gstat _ _ _ => true
  | .genAdd _ _ _ => true
  | .genSub _ _ _ => true
  | .genMul _ _ _ => true
  | .genMulhu _ _ _ => true
  | .genAnd _ _ _ => true
  | .genOr _ _ _ => true
  | .genXor _ _ _ => true
  | .genShl _ _ _ => true
  | .genShr _ _ _ => true
  | .genSra _ _ _ => true
  | .genRotl _ _ _ => true
  | .genAddi _ _ _ => true
  | .genXori _ _ _ => true
  | .genLi _ _ => true
  | .genLui _ _ => true
  | .genHash _ _ _ => true
  | .genSel _ _ _ => true
  | .genSltu _ _ _ => true
  | .genSlt _ _ _ => true
  | .genFadd _ _ _ => true
  | .genFmul _ _ _ => true
  | .genFfma _ _ _ => true
  | .genI2f _ _ => true
  | .genUnif _ _ => true
  | .genRade _ _ => true
  | .genFneg _ _ => true
  | .genFmin _ _ _ => true
  | .genFmax _ _ _ => true
  | .genLoop _ imm => imm != 0
  | .genOut _ => true
  | .genOuti _ => true
  | .illegalInstrFetch _ _ => true
  | .commandPop _ _ => true
  | .tokenWaitIssue _ _ => true
  | .tokenPushDelayed _ _ => true
  | .semwaitSatisfied _ _ => true
  | .waitevSatisfied _ => true
  | .wfeWake _ => true
  | .wfeTimeout _ => true
  | .dispPlace _ => true
  | .qdrainComplete _ => true
  | .qcancelComplete _ => true
  | .taskEnd _ => true
  | .deferredRetire _ _ => true
  | .fullEmptyWaitDone _ => true
  | .copyComplete _ _ _ _ => true
  | .copyUnitFault _ _ _ => true
  | .matrixWordComplete _ _ => true
  | .matrixIssueResume _ => true
  | .msettleComplete _ => true
  | .matrixWordFault _ => true
  | .clockHold _ => true
  | .slotChangeRetire _ => true
  | .trapEntry _ => true
  | .shadowFaultService _ => true
  | .shadowServiceDone _ _ _ => true
  | .shadowLimitExpiry _ => true
  | .prgResponse _ _ => true
  | .atsInvalidation _ _ _ => true
  | .tltDrainComplete _ => true
  | .mdecQueuePlace _ _ => true
  | .mediaDecodeJob _ => true
  | .mediaDecodeComplete _ => true
  | .srcFree _ _ _ _ => true
  | .collArrival _ => true
  | .collCombine _ => true
  | .localDone _ => true
  | .collReport _ => true
  | .allDone _ => true
  | .termiteCommand _ => true
  | .rflagDelivery _ => true
  | .mflagDelivery _ _ => true
  | .fireflyArm => true
  | .fireflyRound _ => true
  | .lqtailDoorbell _ _ => true
  | .launchRecordRead => true
  | .spawnSpillMove _ => true
  | .launchReady _ => true
  | .containerLoad _ => true
  | .launchSelection => true
  | .taskSave _ => true
  | .priorityAging _ => true
  | .launchCompletion _ => true
  | .tlbInvalidation _ => true
  | .tlbInvalidationComplete => true
  | .ctxDestroy _ => true
  | .ctxUnload _ => true
  | .warmDeviceReset => true
  | .warmDieReset _ => true
  | .coreReset _ => true
  | .coldReset _ => true
  | .thermalTrip => true
  | .throttleChange _ _ => true
  | .ucieLinkFailure _ _ => true
  | .nudonPortTrain _ _ => true
  | .configRequest _ => true
  | .registerWrite _ _ _ => true
  | .violcntRead _ => true
  | .ldropRead => true
  | .untrustedPrivateAccess _ _ => true
  | .ideIntegrityFailure _ => true
  | .functionLevelReset _ => true
  | .debugEnable => true
  | .lockDigestWalk => true
  | .frameSeal _ => true
  | .frameStart _ => true
  | .channelReset _ _ _ => true
  | .chdoorWrite _ _ _ => true
  | .bounceSlotCopy _ _ => true
  | .getVersion => true
  | .getCapabilities => true
  | .negotiateAlgorithms _ => true
  | .getDigests => true
  | .getCertificate _ => true
  | .challenge _ => true
  | .getMeasurements _ => true
  | .keyExchange => true
  | .finish => true
  | .keyUpdate => true
  | .heartbeat => true
  | .endSession => true
  | .spdmUnsupportedRequest _ => true
  | .ideKm _ => true
  | .kSetGo _ _ => true
  | .getTdispVersion _ => true
  | .getTdispCapabilities _ => true
  | .lockInterfaceRequest _ _ _ => true
  | .getDeviceInterfaceReport _ => true
  | .getDeviceInterfaceState _ => true
  | .startInterfaceRequest _ => true
  | .stopInterfaceRequest _ => true
  | .tdispUnsupportedRequest _ _ => true
  | .mctpControl _ _ => true
  | .pldmDiscovery => true
  | .pldmMonitoring _ => true
  | .pldmFirmwareUpdate _ _ => true
  | .mctpUnsupportedType _ => true
  | .remoteHomeAccess _ _ => true
  | .trustedSharedPageAccess _ => true

end Sys2Proof
end

