-- ==== Sys2Proof/Decode.lean ====
section
/-!
DEFINITION. The decoder of 11_encoding_rules.md (R123 to R138), total on any word and on any bytes, and after it the
encoder written from the same tables. A word is checked in the order of R125: the zero word, the opcode, the function
value, then the fields.
-/

namespace Sys2Proof

/-- Why the decoder refuses a word. -/
inductive Reject where
  /-- R125 check 1: the word 0x0000_0000 (cause ILLEGAL_INSTR). -/
  | zeroWord
  /-- R125 check 2: an unallocated opcode (cause ILLEGAL_INSTR). -/
  | unallocatedOpcode
  /-- R125 check 3: an unallocated function value (cause ILLEGAL_INSTR). -/
  | unallocatedFunction
  /-- R125 check 4: a nonzero reserved field, a reserved code, or a token bit without a neighbour (RESERVED_FIELD). -/
  | reservedField
  /-- Fewer than four bytes: no word (only a caller that hands over bytes meets it). -/
  | truncated
  deriving DecidableEq, Repr, Inhabited

/-- R125: check 4 raises RESERVED_FIELD, the checks before it ILLEGAL_INSTR. -/
def Reject.isReserved : Reject → Bool
  | .reservedField => true
  | .zeroWord => false
  | .unallocatedOpcode => false
  | .unallocatedFunction => false
  | .truncated => false

/-- The `n` bits of a word from bit `lo` up. -/
def fld (w : Word) (lo n : Nat) : Nat := w.toNat / 2 ^ lo % 2 ^ n

/-- The same as a bit vector. -/
def bvf (w : Word) (lo n : Nat) : BitVec n := BitVec.ofNat n (fld w lo n)

/-- One bit of a word. -/
def flag (w : Word) (lo : Nat) : Bool := fld w lo 1 == 1

/-- R125 check 4: the instruction when its fields are as its table marks them. -/
def rsv (ok : Bool) (i : Instr) : Except Reject Instr := if ok then .ok i else .error .reservedField

/-! ### CTL (R127 to R131) -/

/-- ALU-R group, op 0x01 (R128, R129). -/
def decodeAluR (w : Word) : Except Reject Instr :=
  let d := bvf w 21 5
  let a := bvf w 16 5
  let b := bvf w 11 5
  let ok := fld w 7 4 == 0
  match fld w 0 6 with
  | 0 => rsv ok (.add d a b (flag w 6))
  | 1 => rsv ok (.sub d a b (flag w 6))
  | 2 => rsv ok (.and d a b (flag w 6))
  | 3 => rsv ok (.or d a b (flag w 6))
  | 4 => rsv ok (.xor d a b (flag w 6))
  | 5 => rsv ok (.shl d a b (flag w 6))
  | 6 => rsv ok (.shr d a b (flag w 6))
  | 7 => rsv ok (.sra d a b (flag w 6))
  | 8 => rsv ok (.rol d a b (flag w 6))
  | 9 => rsv ok (.slt d a b (flag w 6))
  | 10 => rsv ok (.sltu d a b (flag w 6))
  | 11 => rsv ok (.min d a b (flag w 6))
  | 12 => rsv ok (.max d a b (flag w 6))
  | 13 => rsv ok (.minu d a b (flag w 6))
  | 14 => rsv ok (.maxu d a b (flag w 6))
  | 15 => rsv (ok && b == 0) (.clz d a (flag w 6))
  | 16 => rsv (ok && b == 0) (.ctz d a (flag w 6))
  | 17 => rsv (ok && b == 0) (.popc d a (flag w 6))
  | _ => .error .unallocatedFunction

/-- SHIFTI group, op 0x08 (R128). -/
def decodeShiftI (w : Word) : Except Reject Instr :=
  let d := bvf w 21 5
  let a := bvf w 16 5
  let n := bvf w 0 6
  let ww := flag w 8
  let ok := fld w 9 7 == 0 && (!ww || decide (n.toNat < 32))
  match fld w 6 2 with
  | 0 => rsv ok (.shli d a ww n)
  | 1 => rsv ok (.shri d a ww n)
  | 2 => rsv ok (.srai d a ww n)
  | _ => rsv ok (.roli d a ww n)

/-- MULDIV group, op 0x0B (R129). -/
def decodeMulDiv (w : Word) : Except Reject Instr :=
  let d := bvf w 21 5
  let a := bvf w 16 5
  let b := bvf w 11 5
  let ww := flag w 6
  let ok := fld w 3 3 == 0 && fld w 7 4 == 0
  match fld w 0 3 with
  | 0 => rsv ok (.mul d a b ww)
  | 1 => rsv (ok && !ww) (.mulh d a b)
  | 2 => rsv (ok && !ww) (.mulhu d a b)
  | 3 => rsv ok (.div d a b ww)
  | 4 => rsv ok (.divu d a b ww)
  | 5 => rsv ok (.rem d a b ww)
  | 6 => rsv ok (.remu d a b ww)
  | _ => .error .unallocatedFunction

/-- AMO group, op 0x1C (R130). -/
def decodeAmo (w : Word) : Except Reject Instr :=
  let d := bvf w 21 5
  let a := bvf w 16 5
  let b := bvf w 11 5
  let ms := flag w 6
  let size := fld w 4 2
  let sz := if size = 0 then AmoSize.w else AmoSize.d
  let ok := fld w 8 3 == 0 && fld w 7 1 == 0 && decide (size < 2)
  match fld w 0 4 with
  | 0 => rsv ok (.amoadd d a b ms sz)
  | 1 => rsv ok (.amoand d a b ms sz)
  | 2 => rsv ok (.amoor d a b ms sz)
  | 3 => rsv ok (.amoxor d a b ms sz)
  | 4 => rsv ok (.amomin d a b ms sz)
  | 5 => rsv ok (.amomax d a b ms sz)
  | 6 => rsv ok (.amominu d a b ms sz)
  | 7 => rsv ok (.amomaxu d a b ms sz)
  | 8 =>
    if size = 2 then rsv (fld w 8 3 == 0) (.amonswap d a b (flag w 7) ms)
    else rsv ok (.amoswap d a b ms sz)
  | 9 => rsv ok (.amocas d a b ms sz)
  | 10 => rsv ok (.amofadd d a b ms sz)
  | _ => .error .unallocatedFunction

/-- The grouped opcodes share their layout (R131): d, a, b and fn; the value is fn[5:0], and `z` says that the bits
fn[10:6] are zero. -/
def decodeQctl (w : Word) : Except Reject Instr :=
  let d := bvf w 21 5
  let a := bvf w 16 5
  let b := bvf w 11 5
  let z := fld w 6 5 == 0
  match fld w 0 6 with
  | 0 => rsv (z && d == 0 && b == 0) (.qcancel a)
  | 1 => rsv (z && d == 0 && a == 0 && b == 0) .qdrain
  | 2 => rsv (z && a == 0 && b == 0) (.qstatrd d)
  | _ => .error .unallocatedFunction

/-- SEM group, op 0x30 (R131). -/
def decodeSem (w : Word) : Except Reject Instr :=
  let d := bvf w 21 5
  let a := bvf w 16 5
  let s := bvf w 11 4
  let z := fld w 6 5 == 0 && fld w 15 1 == 0
  match fld w 0 6 with
  | 0 => rsv (z && d == 0) (.semadd a s)
  | 1 => rsv (z && d == 0) (.semwait a s)
  | 2 => rsv z (.rflag d a s)
  | 3 => rsv (z && a != 31) (.mflag d a s)
  | _ => .error .unallocatedFunction

/-- WORK group, op 0x31 (R131). -/
def decodeWork (w : Word) : Except Reject Instr :=
  let d := bvf w 21 5
  let a := bvf w 16 5
  let b := bvf w 11 5
  let z := fld w 6 5 == 0 && d == 0
  match fld w 0 6 with
  | 0 => rsv (z && b == 0) (.spawn a)
  | 1 => rsv z (.waitev a b)
  | 2 => rsv (z && a == 0 && b == 0) .exit
  | 3 => rsv z (.sigev a b)
  | _ => .error .unallocatedFunction

/-- HYP group, op 0x32 (R131): fn[6] is HRESOLVE's confirm bit and zero elsewhere. -/
def decodeHyp (w : Word) : Except Reject Instr :=
  let d := bvf w 21 5
  let a := bvf w 16 5
  let b := bvf w 11 5
  let z7 := fld w 7 4 == 0
  let z := z7 && !flag w 6
  match fld w 0 6 with
  | 0 => rsv (z && b == 0) (.hopen d a)
  | 1 => rsv (z && b == 0) (.hwin d a)
  | 2 => rsv (z && d == 0 && b == 0) (.hset a)
  | 3 => rsv (z7 && d == 0 && b == 0) (.hresolve a (flag w 6))
  | 4 => rsv (z && d == 0) (.hcommit a b)
  | 5 => rsv (z && b == 0) (.hstat d a)
  | _ => .error .unallocatedFunction

/-- GEN group, op 0x33 (R131). -/
def decodeGenGroup (w : Word) : Except Reject Instr :=
  let a := bvf w 16 5
  let s := bvf w 11 4
  let z := fld w 6 5 == 0 && fld w 15 1 == 0 && fld w 21 5 == 0
  match fld w 0 6 with
  | 0 => rsv z (.gload a s)
  | 1 => rsv (z && a == 0) (.gfree s)
  | 2 => rsv (z && decide (a.toNat ≤ 28)) (.gparam a s)
  | _ => .error .unallocatedFunction

/-- MEMM group, op 0x34 (R131). -/
def decodeMemm (w : Word) : Except Reject Instr :=
  let d := bvf w 21 5
  let a := bvf w 16 5
  let b := bvf w 11 5
  let d4 := bvf w 21 4
  let z := fld w 6 5 == 0
  match fld w 0 6 with
  | 0 => rsv (z && b == 0) (.palloc d a)
  | 1 => rsv (z && d == 0 && b == 0) (.pfree a)
  | 2 => rsv z (.tltset d a b)
  | 3 => rsv (z && d == 0 && b == 0) (.tltuse a)
  | 4 => rsv (z && fld w 25 1 == 0) (.mapw d4 a b)
  | 5 => rsv (z && fld w 25 1 == 0 && a == 0 && b == 0) (.unmapw d4)
  | _ => .error .unallocatedFunction

/-- SYS group, op 0x3A (R131). -/
def decodeSys (w : Word) : Except Reject Instr :=
  let a := bvf w 16 5
  let z := fld w 6 5 == 0 && fld w 21 5 == 0 && fld w 11 5 == 0
  match fld w 0 6 with
  | 0 => rsv z (.trap a)
  | 1 => rsv (z && a == 0) .rett
  | 2 => rsv (z && a == 0) .brk
  | 3 => rsv (z && decide (a.toNat ≤ 4)) (.fence a)
  | 4 => rsv (z && a == 0) .wfe
  | _ => .error .unallocatedFunction

/-- CACHE group, op 0x1D (R128): d is the operation. -/
def decodeCache (w : Word) : Except Reject Instr :=
  let a := bvf w 16 5
  let imm := bvf w 0 16
  match fld w 21 5 with
  | 0 => .ok (.cwb a imm)
  | 1 => .ok (.cinv a imm)
  | 2 => .ok (.cwbinv a imm)
  | 3 => .ok (.cpref a imm)
  | _ => .error .reservedField

/-- The engine of a D-form word (R127, R128): 3 is RESERVED_FIELD. -/
def engOf (n : Nat) : Option Engine :=
  match n with
  | 0 => some .lds
  | 1 => some .cmp
  | 2 => some .sts
  | _ => none

/-- DISP, op 0x2C (R127, R128). -/
def decodeDisp (w : Word) : Except Reject Instr :=
  match engOf (fld w 24 2) with
  | some e => rsv (fld w 0 6 == 0) (.disp e (bvf w 16 8) (bvf w 11 5) (bvf w 6 5))
  | none => .error .reservedField

/-- DISPX, op 0x2D (R127, R128): frag is zero. -/
def decodeDispx (w : Word) : Except Reject Instr :=
  match engOf (fld w 24 2) with
  | some e => rsv (fld w 0 6 == 0 && fld w 16 8 == 0) (.dispx e (bvf w 11 5) (bvf w 6 5))
  | none => .error .reservedField

/-- A CTL word (R128). -/
def decodeCtl (w : Word) : Except Reject Instr :=
  let d := bvf w 21 5
  let a := bvf w 16 5
  let imm := bvf w 0 16
  if w = 0 then .error .zeroWord else
  match fld w 26 6 with
  | 0x01 => decodeAluR w
  | 0x02 => .ok (.addi d a imm)
  | 0x03 => .ok (.slti d a imm)
  | 0x04 => .ok (.sltiu d a imm)
  | 0x05 => .ok (.andi d a imm)
  | 0x06 => .ok (.ori d a imm)
  | 0x07 => .ok (.xori d a imm)
  | 0x08 => decodeShiftI w
  | 0x09 => rsv (a == 0) (.lui d imm)
  | 0x0a => rsv (a == 0) (.lih d imm)
  | 0x0b => decodeMulDiv w
  | 0x10 => .ok (.ldb d a imm)
  | 0x11 => .ok (.ldbu d a imm)
  | 0x12 => .ok (.ldh d a imm)
  | 0x13 => .ok (.ldhu d a imm)
  | 0x14 => .ok (.ldw d a imm)
  | 0x15 => .ok (.ldwu d a imm)
  | 0x16 => .ok (.ldd d a imm)
  | 0x18 => .ok (.stb d a imm)
  | 0x19 => .ok (.sth d a imm)
  | 0x1a => .ok (.stw d a imm)
  | 0x1b => .ok (.std d a imm)
  | 0x1c => decodeAmo w
  | 0x1d => decodeCache w
  | 0x20 => .ok (.beq d a imm)
  | 0x21 => .ok (.bne d a imm)
  | 0x22 => .ok (.blt d a imm)
  | 0x23 => .ok (.bge d a imm)
  | 0x24 => .ok (.bltu d a imm)
  | 0x25 => .ok (.bgeu d a imm)
  | 0x26 => .ok (.jal (bvf w 0 26))
  | 0x27 => .ok (.jalr d a imm)
  | 0x28 => rsv (d == 0 && imm != 0) (.loop a imm)
  | 0x2c => decodeDisp w
  | 0x2d => decodeDispx w
  | 0x2e => decodeQctl w
  | 0x30 => decodeSem w
  | 0x31 => decodeWork w
  | 0x32 => decodeHyp w
  | 0x33 => decodeGenGroup w
  | 0x34 => decodeMemm w
  | 0x38 => rsv (a == 0 && fld w 12 4 == 0) (.csrd d (bvf w 0 12))
  | 0x39 => rsv (d == 0 && fld w 12 4 == 0) (.cswr a (bvf w 0 12))
  | 0x3a => decodeSys w
  | _ => .error .unallocatedOpcode

/-! ### LDS and STS (R137) -/

/-- A transfer step word for LDS (`sts` false) or STS (`sts` true), which differ in the token bits they may use. -/
def decodeXfer (sts : Bool) (w : Word) : Except Reject Instr :=
  let t := Tok.ofCode (fld w 23 4)
  let tk := if sts then t.fitsSts else t.fitsLds
  let x := bvf w 18 4
  let y := bvf w 13 4
  let z := bvf w 8 3
  let xz := fld w 18 5 == 0
  let yz := fld w 13 5 == 0
  let zz := fld w 8 5 == 0
  let iz := fld w 0 8 == 0
  let x4 := fld w 22 1 == 0
  let y4 := fld w 17 1 == 0
  let z3 := fld w 11 2 == 0
  let src := Space.ofCode (fld w 3 2)
  let dst := Space.ofCode (fld w 1 2)
  let box := tk && x4 && y4 && z3 && fld w 5 3 == 0
  let semArg := if flag w 22 then XferSemArg.imm (bvf w 0 8) else XferSemArg.a x
  let semOk := tk && y4 && zz && (if flag w 22 then fld w 18 4 == 0 else iz)
  if w = 0 then .error .zeroWord else
  match fld w 27 5 with
  | 0 => rsv (tk && xz && yz && zz && iz) (.xferNop t)
  | 1 => rsv (tk && xz && yz && zz && iz) (.xferEnd t)
  | 2 => rsv box (.copy t x y z src dst (flag w 0))
  | 3 => rsv box (.gath t x y z src dst (flag w 0))
  | 4 => rsv box (.scat t x y z src dst (flag w 0))
  | 5 => rsv (tk && fld w 21 2 == 0 && y4 && zz && iz) (.boxld t (bvf w 18 3) y)
  | 6 => rsv (tk && x4 && y4 && fld w 12 1 == 0 && iz) (.aadd t x y (bvf w 8 4))
  | 7 => rsv (tk && x4) (.ali t x (bvf w 0 18))
  | 8 => rsv (tk && x4 && y4 && zz && iz) (.amov t x y)
  | 9 => rsv semOk (.xferSemwait t y semArg)
  | 10 => rsv semOk (.xferSemadd t y semArg)
  | 11 => rsv (tk && x4 && yz && zz && fld w 0 8 != 0) (.loopt t x (bvf w 0 8))
  | 12 => rsv (tk && x4 && yz && zz && iz) (.coll t x)
  | 13 => rsv (tk && x4 && yz && zz && iz) (.mdec t x)
  | 14 => rsv (tk && x4 && yz && z3 && fld w 5 3 == 0 && fld w 0 3 == 0) (.pref t x z src)
  | 15 => rsv (tk && x4 && yz && z3 && fld w 3 5 == 0 && fld w 0 1 == 0) (.zero t x z dst)
  | 16 => rsv (tk && x4 && yz && zz && iz) (.tuse t x)
  | _ => .error .unallocatedOpcode

/-! ### CMP (R132 to R136) -/

/-- The second source of a class 00 word (R133), with its check: S = 1 needs vb[4] zero. -/
def vsrcOf (w : Word) : VSrc := if flag w 0 then .k (bvf w 1 4) else .v (bvf w 1 5)

/-- With S = 1, vb[4] is zero (R133). -/
def vsrcOk (w : Word) : Bool := !flag w 0 || fld w 5 1 == 0

/-- Class 00 (R133). -/
def decodeClass0 (w : Word) : Except Reject Instr :=
  let t := Tok.ofCode (fld w 26 4)
  let p := Pred.ofCode (fld w 23 3)
  let d := bvf w 11 5
  let a := bvf w 6 5
  let b := vsrcOf w
  let bok := vsrcOk w
  let bz := fld w 0 6 == 0
  let pd := bvf w 11 3
  let pok := bok && fld w 14 2 == 0 && pd != 0
  match fld w 16 7 with
  | 0x00 => rsv bok (.vadd t p d a b)
  | 0x01 => rsv bok (.vsub t p d a b)
  | 0x02 => rsv bok (.vmul t p d a b)
  | 0x03 => rsv bok (.vmulh t p d a b)
  | 0x04 => rsv bok (.vfma t p d a b)
  | 0x05 => rsv bok (.vfms t p d a b)
  | 0x06 => rsv bok (.vmin t p d a b)
  | 0x07 => rsv bok (.vmax t p d a b)
  | 0x08 => rsv bz (.vabs t p d a)
  | 0x09 => rsv bz (.vneg t p d a)
  | 0x0a => rsv bok (.vdiv t p d a b)
  | 0x0b => rsv bz (.vsqrt t p d a)
  | 0x0c => rsv bz (.vrcp t p d a)
  | 0x0d => rsv bz (.vrsq t p d a)
  | 0x0e => rsv bz (.vexp2 t p d a)
  | 0x0f => rsv bz (.vlog2 t p d a)
  | 0x10 => rsv bok (.vand t p d a b)
  | 0x11 => rsv bok (.vor t p d a b)
  | 0x12 => rsv bok (.vxor t p d a b)
  | 0x13 => rsv bz (.vnot t p d a)
  | 0x14 => rsv bok (.vshl t p d a b)
  | 0x15 => rsv bok (.vshr t p d a b)
  | 0x16 => rsv bok (.vsra t p d a b)
  | 0x17 => rsv bok (.vfshl t p d a b)
  | 0x18 => rsv bok (.vfshr t p d a b)
  | 0x19 => rsv bz (.vclz t p d a)
  | 0x1a => rsv bz (.vpopc t p d a)
  | 0x1b => rsv bok (.vsel t p d a b)
  | 0x1c => rsv bz (.vmov t p d a)
  | 0x1d =>
    match EType.ofCode (fld w 1 4) with
    | some ty => rsv (!flag w 0 && fld w 5 1 == 0) (.vcvt t p d a ty)
    | none => .error .reservedField
  | 0x1e => rsv pok (.vcmpeq t p pd a b)
  | 0x1f => rsv pok (.vcmplt t p pd a b)
  | 0x20 => rsv pok (.vcmple t p pd a b)
  | 0x21 => rsv pok (.vcmpne t p pd a b)
  | 0x22 => rsv bok (.vadds t p d a b)
  | 0x23 => rsv bok (.vsubs t p d a b)
  | 0x24 => rsv bz (.vredsum t p d a)
  | 0x25 => rsv bz (.vredmax t p d a)
  | 0x26 => rsv bz (.vredmin t p d a)
  | 0x27 => rsv bz (.vscan t p d a)
  | 0x28 => rsv bz (.vscanx t p d a)
  | 0x29 => rsv bok (.vbcast t p d a b)
  | 0x2a => rsv (bz && a == 0) (.viota t p d)
  | 0x2b => rsv bok (.vaccept t p d a b)
  | 0x2c => rsv (bz && fld w 9 2 == 0) (.vfirst t p d (bvf w 6 3))
  | 0x2d => rsv bok (.vhash t p d a b)
  | 0x2e => rsv bz (.vunif t p d a)
  | _ => .error .unallocatedOpcode

/-- R47: a load's qualifier code; 3 is RESERVED_FIELD. -/
def loadQualOf (n : Nat) : Option LoadQual :=
  match n with
  | 0 => some .plain
  | 1 => some .waitFull
  | 2 => some .clearOnRead
  | _ => none

/-- R47: a store's qualifier code; 1 and 2 are RESERVED_FIELD. -/
def storeQualOf (n : Nat) : Option StoreQual :=
  match n with
  | 0 => some .plain
  | 3 => some .setFull
  | _ => none

/-- A class 01 load: its qualifier stands with spaces 1 and 2 only (R47). -/
def rsvLoad (w : Word) (ok : Bool) (f : LoadQual → Instr) : Except Reject Instr :=
  match loadQualOf (fld w 0 2) with
  | some q => rsv (ok && (q == .plain || (Space.ofCode (fld w 2 2)).isTyped)) (f q)
  | none => .error .reservedField

/-- A class 01 store, as rsvLoad. -/
def rsvStore (w : Word) (ok : Bool) (f : StoreQual → Instr) : Except Reject Instr :=
  match storeQualOf (fld w 0 2) with
  | some q => rsv (ok && (q == .plain || (Space.ofCode (fld w 2 2)).isTyped)) (f q)
  | none => .error .reservedField

/-- Class 01 (R134). -/
def decodeClass1 (w : Word) : Except Reject Instr :=
  let t := Tok.ofCode (fld w 26 4)
  let p := Pred.ofCode (fld w 23 3)
  let v := bvf w 13 5
  let vi := bvf w 8 5
  let k := bvf w 4 4
  let sp := Space.ofCode (fld w 2 2)
  let viz := vi == 0
  match fld w 18 5 with
  | 0 => rsvLoad w viz (.vld t p v k sp)
  | 1 => rsvStore w viz (.vst t p v k sp)
  | 2 => rsvLoad w viz (.vldi t p v k sp)
  | 3 => rsvStore w viz (.vsti t p v k sp)
  | 4 => rsvStore w viz (.vstu t p v k sp)
  | 5 => rsv (fld w 0 2 == 0) (.vgath t p v vi k sp)
  | 6 => rsv (fld w 0 2 == 0) (.vscat t p v vi k sp)
  | 7 => rsv (k == 0) (.vpart t p v vi (bvf w 0 4))
  | 8 => rsv (fld w 0 8 == 0) (.vperm t p v vi)
  | 9 => rsvLoad w viz (.vldb t p v k sp)
  | _ => .error .unallocatedOpcode

/-- Class 10 (R135). -/
def decodeClass2 (w : Word) : Except Reject Instr :=
  let t := Tok.ofCode (fld w 26 4)
  let sa := bvf w 18 4
  let sb := bvf w 14 4
  let acc := bvf w 8 6
  let d8 := bvf w 0 8
  let bz := sb == 0
  let dz := d8 == 0
  match fld w 22 4 with
  | 0 => .ok (.mma t sa sb acc d8)
  | 1 => .ok (.mmaz t sa sb acc d8)
  | 2 => .ok (.mmv t sa sb acc d8)
  | 3 => rsv (bz && fld w 0 2 == 0 && (flag w 4 || fld w 2 2 == 0))
      (.mdrain t sa acc (RMode.ofCode (fld w 6 2)) (flag w 5) (flag w 4) (bvf w 2 2))
  | 4 => rsv (bz && dz && sa == 0 && acc == 0) (.mseal t)
  | 5 => rsv (bz && sa == 0 && acc == 0) (.msettle t d8)
  | 6 => rsv (bz && dz && sa == 0) (.accz t acc)
  | 7 => rsv (bz && dz) (.accld t sa acc)
  | _ => .error .unallocatedOpcode

/-- PSET's mode and k (R136): k is zero for modes 0 and 1. -/
def psetModeOf (m k : Nat) : Option PsetMode :=
  match m with
  | 0 => if k = 0 then some .all else none
  | 1 => if k = 0 then some .none else none
  | 2 => some (.first (BitVec.ofNat 4 k))
  | _ => some (.bits (BitVec.ofNat 4 k))

/-- Class 11 (R136). -/
def decodeClass3 (w : Word) : Except Reject Instr :=
  let t := Tok.ofCode (fld w 26 4)
  let f17 := bvf w 17 4
  let f13 := bvf w 13 4
  let semArg := if flag w 16 then CmpSemArg.imm (bvf w 0 16) else CmpSemArg.k (bvf w 12 4)
  let semOk := flag w 16 || fld w 0 12 == 0
  match fld w 21 5 with
  | 0 => rsv (fld w 0 21 == 0) (.cmpNop t)
  | 1 => rsv (fld w 0 21 == 0) (.cmpEnd t)
  | 2 =>
    match EType.ofCode (fld w 17 4) with
    | some ty => rsv (decide (ty.code ≤ 10) && fld w 0 7 == 0)
        (.shape t ty (RMode.ofCode (fld w 15 2)) (flag w 14) (bvf w 11 3) (bvf w 7 4))
    | none => .error .reservedField
  | 3 => rsv (fld w 11 2 != 3 && fld w 0 11 == 0) (.sld t f17 f13 (Space.ofCode (fld w 11 2)))
  | 4 =>
    match SmodSel.ofCode (fld w 13 4) with
    | some sel => rsv (fld w 0 9 == 0) (.smod t f17 sel (bvf w 9 4))
    | none => .error .reservedField
  | 5 => .ok (.kadd t f17 f13 (bvf w 0 13))
  | 6 => .ok (.kli t f17 (bvf w 0 17))
  | 7 => rsv (fld w 0 13 == 0) (.kmov t f17 f13)
  | 8 => .ok (.vli t (bvf w 16 5) (bvf w 0 16))
  | 9 =>
    match psetModeOf (fld w 16 2) (fld w 12 4) with
    | some m => rsv (fld w 0 12 == 0 && fld w 18 3 != 0) (.pset t (bvf w 18 3) m)
    | none => .error .reservedField
  | 10 => rsv semOk (.cmpSemwait t f17 semArg)
  | 11 => rsv semOk (.cmpSemadd t f17 semArg)
  | 12 => rsv (fld w 0 17 != 0) (.loopk t f17 (bvf w 0 17))
  | 13 => rsv (fld w 0 13 == 0) (.fragsel t f17 f13)
  | 14 => rsv (fld w 0 13 == 0) (.histrd t (bvf w 16 5) (bvf w 14 2) (flag w 13))
  | 15 => rsv ((Space.ofCode (fld w 19 2)).isTyped && fld w 0 11 == 0)
      (.feclr t (Space.ofCode (fld w 19 2)) (bvf w 15 4) (bvf w 11 4))
  | 16 => rsv (fld w 0 13 == 0) (.gstat t f17 f13)
  | _ => .error .unallocatedOpcode

/-- A CMP word (R132). -/
def decodeCmp (w : Word) : Except Reject Instr :=
  if w = 0 then .error .zeroWord else
  match fld w 30 2 with
  | 0 => decodeClass0 w
  | 1 => decodeClass1 w
  | 2 => decodeClass2 w
  | _ => decodeClass3 w

/-! ### Generator words (R138) -/

/-- A generator word (R138). -/
def decodeGen (w : Word) : Except Reject Instr :=
  let d := bvf w 22 4
  let a := bvf w 18 4
  let b := bvf w 14 4
  let imm := bvf w 0 14
  let dz := d == 0
  let az := a == 0
  let bz := b == 0
  let iz := imm == 0
  if w = 0 then .error .zeroWord else
  match fld w 26 6 with
  | 1 => rsv iz (.genAdd d a b)
  | 2 => rsv iz (.genSub d a b)
  | 3 => rsv iz (.genMul d a b)
  | 4 => rsv iz (.genMulhu d a b)
  | 5 => rsv iz (.genAnd d a b)
  | 6 => rsv iz (.genOr d a b)
  | 7 => rsv iz (.genXor d a b)
  | 8 => rsv iz (.genShl d a b)
  | 9 => rsv iz (.genShr d a b)
  | 10 => rsv iz (.genSra d a b)
  | 11 => rsv iz (.genRotl d a b)
  | 12 => rsv bz (.genAddi d a imm)
  | 13 => rsv bz (.genXori d a imm)
  | 14 => rsv (az && bz) (.genLi d imm)
  | 15 => rsv (az && bz) (.genLui d imm)
  | 16 => rsv iz (.genHash d a b)
  | 17 => rsv iz (.genSel d a b)
  | 18 => rsv iz (.genSltu d a b)
  | 19 => rsv iz (.genSlt d a b)
  | 20 => rsv iz (.genFadd d a b)
  | 21 => rsv iz (.genFmul d a b)
  | 22 => rsv iz (.genFfma d a b)
  | 23 => rsv (iz && bz) (.genI2f d a)
  | 24 => rsv (iz && bz) (.genUnif d a)
  | 25 => rsv (iz && bz) (.genRade d a)
  | 26 => rsv (iz && bz) (.genFneg d a)
  | 27 => rsv iz (.genFmin d a b)
  | 28 => rsv iz (.genFmax d a b)
  | 29 => rsv (dz && bz && fld w 6 8 == 0 && fld w 0 6 != 0) (.genLoop a (bvf w 0 6))
  | 30 => rsv (dz && bz && iz) (.genOut a)
  | 31 => rsv (dz && bz && iz) (.genOuti a)
  | _ => .error .unallocatedOpcode

/-! ### Bytes -/

/-- Where a word is fetched from, which decides its meaning (R123). -/
inductive Fetch where
  | ctl | lds | sts | cmp | gen
  deriving DecidableEq, Repr, Inhabited

/-- R123: the decoder of one memory. -/
def decodeWord (f : Fetch) (w : Word) : Except Reject Instr :=
  match f with
  | .ctl => decodeCtl w
  | .lds => decodeXfer false w
  | .sts => decodeXfer true w
  | .cmp => decodeCmp w
  | .gen => decodeGen w

/-- Four bytes, least significant first, as a word (R2, R123). -/
def wordOfBytes (b0 b1 b2 b3 : Byte) : Word :=
  BitVec.ofNat 32 (b0.toNat + 2 ^ 8 * b1.toNat + 2 ^ 16 * b2.toNat + 2 ^ 24 * b3.toNat)

/-- The four bytes of a word as memory holds them (R2). -/
def bytesOfWord (w : Word) : List Byte :=
  [BitVec.ofNat 8 (fld w 0 8), BitVec.ofNat 8 (fld w 8 8), BitVec.ofNat 8 (fld w 16 8), BitVec.ofNat 8 (fld w 24 8)]

/-- Decoding of bytes: the instruction of the first word and the bytes after it. -/
def decodeBytes (f : Fetch) (bs : List Byte) : Except Reject (Instr × List Byte) :=
  match bs with
  | b0 :: b1 :: b2 :: b3 :: rest =>
    match decodeWord f (wordOfBytes b0 b1 b2 b3) with
    | .ok i => .ok (i, rest)
    | .error r => .error r
  | _ => .error .truncated

/-- The memory whose decoder accepts a word, in the fixed order CTL, CMP, LDS, STS, generator (log 7). -/
def tableFetch (w : Word) : Option Fetch :=
  [Fetch.ctl, .cmp, .lds, .sts, .gen].find? (fun f => (decodeWord f w).isOk)

/-- The instruction read from an opcode-table word. A bit pattern is a different instruction in each memory (R123) and
the table does not say which memory; the first memory whose decoder accepts it is taken (log 7). -/
def decodeTableWord (nbits w : Nat) : Option Instr :=
  if nbits = 32 then
    let ww := BitVec.ofNat 32 w
    match tableFetch ww with
    | some f =>
      match decodeBytes f (bytesOfWord ww) with
      | .ok (i, _) => some i
      | .error _ => none
    | none => none
  else none

/-! ### The encoder, from the same tables -/

/-- [22:18] and [7:0] of an LDS or STS SEMWAIT or SEMADD word (R137). -/
def XferSemArg.code : XferSemArg → Nat
  | .imm v => 2 ^ 22 + v.toNat
  | .a r => 2 ^ 18 * r.toNat

/-- A word built from its constant bits and its fields, each a bit position and a value. -/
def place (base : Nat) : List (Nat × Nat) → Nat
  | [] => base
  | (lo, v) :: fs => 2 ^ lo * v + place base fs

/-- The word of a well-formed instruction as a number (R127 to R138); 0, which is no instruction anywhere (R124), for
the steps of the device that no word encodes. -/
def encodeNat : Instr → Nat
  | .add d a b w => place 0x04000000 [(21, d.toNat), (16, a.toNat), (11, b.toNat), (6, bit w)]
  | .sub d a b w => place 0x04000001 [(21, d.toNat), (16, a.toNat), (11, b.toNat), (6, bit w)]
  | .and d a b w => place 0x04000002 [(21, d.toNat), (16, a.toNat), (11, b.toNat), (6, bit w)]
  | .or d a b w => place 0x04000003 [(21, d.toNat), (16, a.toNat), (11, b.toNat), (6, bit w)]
  | .xor d a b w => place 0x04000004 [(21, d.toNat), (16, a.toNat), (11, b.toNat), (6, bit w)]
  | .shl d a b w => place 0x04000005 [(21, d.toNat), (16, a.toNat), (11, b.toNat), (6, bit w)]
  | .shr d a b w => place 0x04000006 [(21, d.toNat), (16, a.toNat), (11, b.toNat), (6, bit w)]
  | .sra d a b w => place 0x04000007 [(21, d.toNat), (16, a.toNat), (11, b.toNat), (6, bit w)]
  | .rol d a b w => place 0x04000008 [(21, d.toNat), (16, a.toNat), (11, b.toNat), (6, bit w)]
  | .slt d a b w => place 0x04000009 [(21, d.toNat), (16, a.toNat), (11, b.toNat), (6, bit w)]
  | .sltu d a b w => place 0x0400000a [(21, d.toNat), (16, a.toNat), (11, b.toNat), (6, bit w)]
  | .min d a b w => place 0x0400000b [(21, d.toNat), (16, a.toNat), (11, b.toNat), (6, bit w)]
  | .max d a b w => place 0x0400000c [(21, d.toNat), (16, a.toNat), (11, b.toNat), (6, bit w)]
  | .minu d a b w => place 0x0400000d [(21, d.toNat), (16, a.toNat), (11, b.toNat), (6, bit w)]
  | .maxu d a b w => place 0x0400000e [(21, d.toNat), (16, a.toNat), (11, b.toNat), (6, bit w)]
  | .clz d a w => place 0x0400000f [(21, d.toNat), (16, a.toNat), (6, bit w)]
  | .ctz d a w => place 0x04000010 [(21, d.toNat), (16, a.toNat), (6, bit w)]
  | .popc d a w => place 0x04000011 [(21, d.toNat), (16, a.toNat), (6, bit w)]
  | .addi d a imm => place 0x08000000 [(21, d.toNat), (16, a.toNat), (0, imm.toNat)]
  | .slti d a imm => place 0x0c000000 [(21, d.toNat), (16, a.toNat), (0, imm.toNat)]
  | .sltiu d a imm => place 0x10000000 [(21, d.toNat), (16, a.toNat), (0, imm.toNat)]
  | .andi d a imm => place 0x14000000 [(21, d.toNat), (16, a.toNat), (0, imm.toNat)]
  | .ori d a imm => place 0x18000000 [(21, d.toNat), (16, a.toNat), (0, imm.toNat)]
  | .xori d a imm => place 0x1c000000 [(21, d.toNat), (16, a.toNat), (0, imm.toNat)]
  | .shli d a w imm => place 0x20000000 [(21, d.toNat), (16, a.toNat), (8, bit w), (0, imm.toNat)]
  | .shri d a w imm => place 0x20000040 [(21, d.toNat), (16, a.toNat), (8, bit w), (0, imm.toNat)]
  | .srai d a w imm => place 0x20000080 [(21, d.toNat), (16, a.toNat), (8, bit w), (0, imm.toNat)]
  | .roli d a w imm => place 0x200000c0 [(21, d.toNat), (16, a.toNat), (8, bit w), (0, imm.toNat)]
  | .lui d imm => place 0x24000000 [(21, d.toNat), (0, imm.toNat)]
  | .lih d imm => place 0x28000000 [(21, d.toNat), (0, imm.toNat)]
  | .mul d a b w => place 0x2c000000 [(21, d.toNat), (16, a.toNat), (11, b.toNat), (6, bit w)]
  | .mulh d a b => place 0x2c000001 [(21, d.toNat), (16, a.toNat), (11, b.toNat)]
  | .mulhu d a b => place 0x2c000002 [(21, d.toNat), (16, a.toNat), (11, b.toNat)]
  | .div d a b w => place 0x2c000003 [(21, d.toNat), (16, a.toNat), (11, b.toNat), (6, bit w)]
  | .divu d a b w => place 0x2c000004 [(21, d.toNat), (16, a.toNat), (11, b.toNat), (6, bit w)]
  | .rem d a b w => place 0x2c000005 [(21, d.toNat), (16, a.toNat), (11, b.toNat), (6, bit w)]
  | .remu d a b w => place 0x2c000006 [(21, d.toNat), (16, a.toNat), (11, b.toNat), (6, bit w)]
  | .ldb d a imm => place 0x40000000 [(21, d.toNat), (16, a.toNat), (0, imm.toNat)]
  | .ldbu d a imm => place 0x44000000 [(21, d.toNat), (16, a.toNat), (0, imm.toNat)]
  | .ldh d a imm => place 0x48000000 [(21, d.toNat), (16, a.toNat), (0, imm.toNat)]
  | .ldhu d a imm => place 0x4c000000 [(21, d.toNat), (16, a.toNat), (0, imm.toNat)]
  | .ldw d a imm => place 0x50000000 [(21, d.toNat), (16, a.toNat), (0, imm.toNat)]
  | .ldwu d a imm => place 0x54000000 [(21, d.toNat), (16, a.toNat), (0, imm.toNat)]
  | .ldd d a imm => place 0x58000000 [(21, d.toNat), (16, a.toNat), (0, imm.toNat)]
  | .stb b a imm => place 0x60000000 [(21, b.toNat), (16, a.toNat), (0, imm.toNat)]
  | .sth b a imm => place 0x64000000 [(21, b.toNat), (16, a.toNat), (0, imm.toNat)]
  | .stw b a imm => place 0x68000000 [(21, b.toNat), (16, a.toNat), (0, imm.toNat)]
  | .std b a imm => place 0x6c000000 [(21, b.toNat), (16, a.toNat), (0, imm.toNat)]
  | .amoadd d a b ms sz => place 0x70000000 [(21, d.toNat), (16, a.toNat), (11, b.toNat), (6, bit ms), (4, sz.code)]
  | .amoand d a b ms sz => place 0x70000001 [(21, d.toNat), (16, a.toNat), (11, b.toNat), (6, bit ms), (4, sz.code)]
  | .amoor d a b ms sz => place 0x70000002 [(21, d.toNat), (16, a.toNat), (11, b.toNat), (6, bit ms), (4, sz.code)]
  | .amoxor d a b ms sz => place 0x70000003 [(21, d.toNat), (16, a.toNat), (11, b.toNat), (6, bit ms), (4, sz.code)]
  | .amomin d a b ms sz => place 0x70000004 [(21, d.toNat), (16, a.toNat), (11, b.toNat), (6, bit ms), (4, sz.code)]
  | .amomax d a b ms sz => place 0x70000005 [(21, d.toNat), (16, a.toNat), (11, b.toNat), (6, bit ms), (4, sz.code)]
  | .amominu d a b ms sz => place 0x70000006 [(21, d.toNat), (16, a.toNat), (11, b.toNat), (6, bit ms), (4, sz.code)]
  | .amomaxu d a b ms sz => place 0x70000007 [(21, d.toNat), (16, a.toNat), (11, b.toNat), (6, bit ms), (4, sz.code)]
  | .amoswap d a b ms sz => place 0x70000008 [(21, d.toNat), (16, a.toNat), (11, b.toNat), (6, bit ms), (4, sz.code)]
  | .amocas d a b ms sz => place 0x70000009 [(21, d.toNat), (16, a.toNat), (11, b.toNat), (6, bit ms), (4, sz.code)]
  | .amofadd d a b ms sz => place 0x7000000a [(21, d.toNat), (16, a.toNat), (11, b.toNat), (6, bit ms), (4, sz.code)]
  | .amonswap d a b hi ms => place 0x70000028 [(21, d.toNat), (16, a.toNat), (11, b.toNat), (7, bit hi), (6, bit ms)]
  | .cwb a imm => place 0x74000000 [(16, a.toNat), (0, imm.toNat)]
  | .cinv a imm => place 0x74200000 [(16, a.toNat), (0, imm.toNat)]
  | .cwbinv a imm => place 0x74400000 [(16, a.toNat), (0, imm.toNat)]
  | .cpref a imm => place 0x74600000 [(16, a.toNat), (0, imm.toNat)]
  | .beq a b off => place 0x80000000 [(21, a.toNat), (16, b.toNat), (0, off.toNat)]
  | .bne a b off => place 0x84000000 [(21, a.toNat), (16, b.toNat), (0, off.toNat)]
  | .blt a b off => place 0x88000000 [(21, a.toNat), (16, b.toNat), (0, off.toNat)]
  | .bge a b off => place 0x8c000000 [(21, a.toNat), (16, b.toNat), (0, off.toNat)]
  | .bltu a b off => place 0x90000000 [(21, a.toNat), (16, b.toNat), (0, off.toNat)]
  | .bgeu a b off => place 0x94000000 [(21, a.toNat), (16, b.toNat), (0, off.toNat)]
  | .jal off => place 0x98000000 [(0, off.toNat)]
  | .jalr d a imm => place 0x9c000000 [(21, d.toNat), (16, a.toNat), (0, imm.toNat)]
  | .loop a imm => place 0xa0000000 [(16, a.toNat), (0, imm.toNat)]
  | .disp eng frag n g => place 0xb0000000 [(24, eng.code), (16, frag.toNat), (11, n.toNat), (6, g.toNat)]
  | .dispx eng n g => place 0xb4000000 [(24, eng.code), (11, n.toNat), (6, g.toNat)]
  | .qcancel a => place 0xb8000000 [(16, a.toNat)]
  | .qdrain => place 0xb8000001 []
  | .qstatrd d => place 0xb8000002 [(21, d.toNat)]
  | .semadd a b => place 0xc0000000 [(16, a.toNat), (11, b.toNat)]
  | .semwait a b => place 0xc0000001 [(16, a.toNat), (11, b.toNat)]
  | .rflag d a b => place 0xc0000002 [(21, d.toNat), (16, a.toNat), (11, b.toNat)]
  | .mflag d a b => place 0xc0000003 [(21, d.toNat), (16, a.toNat), (11, b.toNat)]
  | .spawn a => place 0xc4000000 [(16, a.toNat)]
  | .waitev a b => place 0xc4000001 [(16, a.toNat), (11, b.toNat)]
  | .exit => place 0xc4000002 []
  | .sigev a b => place 0xc4000003 [(16, a.toNat), (11, b.toNat)]
  | .hopen d a => place 0xc8000000 [(21, d.toNat), (16, a.toNat)]
  | .hwin d a => place 0xc8000001 [(21, d.toNat), (16, a.toNat)]
  | .hset a => place 0xc8000002 [(16, a.toNat)]
  | .hresolve a confirm => place 0xc8000003 [(16, a.toNat), (6, bit confirm)]
  | .hcommit a b => place 0xc8000004 [(16, a.toNat), (11, b.toNat)]
  | .hstat d a => place 0xc8000005 [(21, d.toNat), (16, a.toNat)]
  | .gload a b => place 0xcc000000 [(16, a.toNat), (11, b.toNat)]
  | .gfree b => place 0xcc000001 [(11, b.toNat)]
  | .gparam a b => place 0xcc000002 [(16, a.toNat), (11, b.toNat)]
  | .palloc d a => place 0xd0000000 [(21, d.toNat), (16, a.toNat)]
  | .pfree a => place 0xd0000001 [(16, a.toNat)]
  | .tltset d a b => place 0xd0000002 [(21, d.toNat), (16, a.toNat), (11, b.toNat)]
  | .tltuse a => place 0xd0000003 [(16, a.toNat)]
  | .mapw d a b => place 0xd0000004 [(21, d.toNat), (16, a.toNat), (11, b.toNat)]
  | .unmapw d => place 0xd0000005 [(21, d.toNat)]
  | .csrd d csr => place 0xe0000000 [(21, d.toNat), (0, csr.toNat)]
  | .cswr a csr => place 0xe4000000 [(16, a.toNat), (0, csr.toNat)]
  | .trap a => place 0xe8000000 [(16, a.toNat)]
  | .rett => place 0xe8000001 []
  | .brk => place 0xe8000002 []
  | .fence a => place 0xe8000003 [(16, a.toNat)]
  | .wfe => place 0xe8000004 []
  | .xferNop t => place 0 [(23, t.code)]
  | .xferEnd t => place 0x08000000 [(23, t.code)]
  | .copy t x y z src dst use => place 0x10000000 [(23, t.code), (18, x.toNat), (13, y.toNat), (8, z.toNat), (3, src.code), (1, dst.code), (0, bit use)]
  | .gath t x y z src dst use => place 0x18000000 [(23, t.code), (18, x.toNat), (13, y.toNat), (8, z.toNat), (3, src.code), (1, dst.code), (0, bit use)]
  | .scat t x y z src dst use => place 0x20000000 [(23, t.code), (18, x.toNat), (13, y.toNat), (8, z.toNat), (3, src.code), (1, dst.code), (0, bit use)]
  | .boxld t x y => place 0x28000000 [(23, t.code), (18, x.toNat), (13, y.toNat)]
  | .aadd t x y z => place 0x30000000 [(23, t.code), (18, x.toNat), (13, y.toNat), (8, z.toNat)]
  | .ali t x imm => place 0x38000000 [(23, t.code), (18, x.toNat), (0, imm.toNat)]
  | .amov t x y => place 0x40000000 [(23, t.code), (18, x.toNat), (13, y.toNat)]
  | .xferSemwait t sem arg => place 0x48000000 [(23, t.code), (13, sem.toNat), (0, arg.code)]
  | .xferSemadd t sem arg => place 0x50000000 [(23, t.code), (13, sem.toNat), (0, arg.code)]
  | .loopt t x imm => place 0x58000000 [(23, t.code), (18, x.toNat), (0, imm.toNat)]
  | .coll t x => place 0x60000000 [(23, t.code), (18, x.toNat)]
  | .mdec t x => place 0x68000000 [(23, t.code), (18, x.toNat)]
  | .pref t x z src => place 0x70000000 [(23, t.code), (18, x.toNat), (8, z.toNat), (3, src.code)]
  | .zero t x z dst => place 0x78000000 [(23, t.code), (18, x.toNat), (8, z.toNat), (1, dst.code)]
  | .tuse t x => place 0x80000000 [(23, t.code), (18, x.toNat)]
  | .vadd t p d a b => place 0 [(26, t.code), (23, p.code), (11, d.toNat), (6, a.toNat), (0, b.code)]
  | .vsub t p d a b => place 0x00010000 [(26, t.code), (23, p.code), (11, d.toNat), (6, a.toNat), (0, b.code)]
  | .vmul t p d a b => place 0x00020000 [(26, t.code), (23, p.code), (11, d.toNat), (6, a.toNat), (0, b.code)]
  | .vmulh t p d a b => place 0x00030000 [(26, t.code), (23, p.code), (11, d.toNat), (6, a.toNat), (0, b.code)]
  | .vfma t p d a b => place 0x00040000 [(26, t.code), (23, p.code), (11, d.toNat), (6, a.toNat), (0, b.code)]
  | .vfms t p d a b => place 0x00050000 [(26, t.code), (23, p.code), (11, d.toNat), (6, a.toNat), (0, b.code)]
  | .vmin t p d a b => place 0x00060000 [(26, t.code), (23, p.code), (11, d.toNat), (6, a.toNat), (0, b.code)]
  | .vmax t p d a b => place 0x00070000 [(26, t.code), (23, p.code), (11, d.toNat), (6, a.toNat), (0, b.code)]
  | .vabs t p d a => place 0x00080000 [(26, t.code), (23, p.code), (11, d.toNat), (6, a.toNat)]
  | .vneg t p d a => place 0x00090000 [(26, t.code), (23, p.code), (11, d.toNat), (6, a.toNat)]
  | .vdiv t p d a b => place 0x000a0000 [(26, t.code), (23, p.code), (11, d.toNat), (6, a.toNat), (0, b.code)]
  | .vsqrt t p d a => place 0x000b0000 [(26, t.code), (23, p.code), (11, d.toNat), (6, a.toNat)]
  | .vrcp t p d a => place 0x000c0000 [(26, t.code), (23, p.code), (11, d.toNat), (6, a.toNat)]
  | .vrsq t p d a => place 0x000d0000 [(26, t.code), (23, p.code), (11, d.toNat), (6, a.toNat)]
  | .vexp2 t p d a => place 0x000e0000 [(26, t.code), (23, p.code), (11, d.toNat), (6, a.toNat)]
  | .vlog2 t p d a => place 0x000f0000 [(26, t.code), (23, p.code), (11, d.toNat), (6, a.toNat)]
  | .vand t p d a b => place 0x00100000 [(26, t.code), (23, p.code), (11, d.toNat), (6, a.toNat), (0, b.code)]
  | .vor t p d a b => place 0x00110000 [(26, t.code), (23, p.code), (11, d.toNat), (6, a.toNat), (0, b.code)]
  | .vxor t p d a b => place 0x00120000 [(26, t.code), (23, p.code), (11, d.toNat), (6, a.toNat), (0, b.code)]
  | .vnot t p d a => place 0x00130000 [(26, t.code), (23, p.code), (11, d.toNat), (6, a.toNat)]
  | .vshl t p d a b => place 0x00140000 [(26, t.code), (23, p.code), (11, d.toNat), (6, a.toNat), (0, b.code)]
  | .vshr t p d a b => place 0x00150000 [(26, t.code), (23, p.code), (11, d.toNat), (6, a.toNat), (0, b.code)]
  | .vsra t p d a b => place 0x00160000 [(26, t.code), (23, p.code), (11, d.toNat), (6, a.toNat), (0, b.code)]
  | .vfshl t p d a b => place 0x00170000 [(26, t.code), (23, p.code), (11, d.toNat), (6, a.toNat), (0, b.code)]
  | .vfshr t p d a b => place 0x00180000 [(26, t.code), (23, p.code), (11, d.toNat), (6, a.toNat), (0, b.code)]
  | .vclz t p d a => place 0x00190000 [(26, t.code), (23, p.code), (11, d.toNat), (6, a.toNat)]
  | .vpopc t p d a => place 0x001a0000 [(26, t.code), (23, p.code), (11, d.toNat), (6, a.toNat)]
  | .vsel t p d a b => place 0x001b0000 [(26, t.code), (23, p.code), (11, d.toNat), (6, a.toNat), (0, b.code)]
  | .vmov t p d a => place 0x001c0000 [(26, t.code), (23, p.code), (11, d.toNat), (6, a.toNat)]
  | .vcvt t p d a src => place 0x001d0000 [(26, t.code), (23, p.code), (11, d.toNat), (6, a.toNat), (1, src.code)]
  | .vcmpeq t p d a b => place 0x001e0000 [(26, t.code), (23, p.code), (11, d.toNat), (6, a.toNat), (0, b.code)]
  | .vcmplt t p d a b => place 0x001f0000 [(26, t.code), (23, p.code), (11, d.toNat), (6, a.toNat), (0, b.code)]
  | .vcmple t p d a b => place 0x00200000 [(26, t.code), (23, p.code), (11, d.toNat), (6, a.toNat), (0, b.code)]
  | .vcmpne t p d a b => place 0x00210000 [(26, t.code), (23, p.code), (11, d.toNat), (6, a.toNat), (0, b.code)]
  | .vadds t p d a b => place 0x00220000 [(26, t.code), (23, p.code), (11, d.toNat), (6, a.toNat), (0, b.code)]
  | .vsubs t p d a b => place 0x00230000 [(26, t.code), (23, p.code), (11, d.toNat), (6, a.toNat), (0, b.code)]
  | .vredsum t p d a => place 0x00240000 [(26, t.code), (23, p.code), (11, d.toNat), (6, a.toNat)]
  | .vredmax t p d a => place 0x00250000 [(26, t.code), (23, p.code), (11, d.toNat), (6, a.toNat)]
  | .vredmin t p d a => place 0x00260000 [(26, t.code), (23, p.code), (11, d.toNat), (6, a.toNat)]
  | .vscan t p d a => place 0x00270000 [(26, t.code), (23, p.code), (11, d.toNat), (6, a.toNat)]
  | .vscanx t p d a => place 0x00280000 [(26, t.code), (23, p.code), (11, d.toNat), (6, a.toNat)]
  | .vbcast t p d a b => place 0x00290000 [(26, t.code), (23, p.code), (11, d.toNat), (6, a.toNat), (0, b.code)]
  | .viota t p d => place 0x002a0000 [(26, t.code), (23, p.code), (11, d.toNat)]
  | .vaccept t p d a b => place 0x002b0000 [(26, t.code), (23, p.code), (11, d.toNat), (6, a.toNat), (0, b.code)]
  | .vfirst t p d a => place 0x002c0000 [(26, t.code), (23, p.code), (11, d.toNat), (6, a.toNat)]
  | .vhash t p d a b => place 0x002d0000 [(26, t.code), (23, p.code), (11, d.toNat), (6, a.toNat), (0, b.code)]
  | .vunif t p d a => place 0x002e0000 [(26, t.code), (23, p.code), (11, d.toNat), (6, a.toNat)]
  | .vld t p v k sp q => place 0x40000000 [(26, t.code), (23, p.code), (13, v.toNat), (4, k.toNat), (2, sp.code), (0, q.code)]
  | .vst t p v k sp q => place 0x40040000 [(26, t.code), (23, p.code), (13, v.toNat), (4, k.toNat), (2, sp.code), (0, q.code)]
  | .vldi t p v k sp q => place 0x40080000 [(26, t.code), (23, p.code), (13, v.toNat), (4, k.toNat), (2, sp.code), (0, q.code)]
  | .vsti t p v k sp q => place 0x400c0000 [(26, t.code), (23, p.code), (13, v.toNat), (4, k.toNat), (2, sp.code), (0, q.code)]
  | .vstu t p v k sp q => place 0x40100000 [(26, t.code), (23, p.code), (13, v.toNat), (4, k.toNat), (2, sp.code), (0, q.code)]
  | .vgath t p v vi k sp => place 0x40140000 [(26, t.code), (23, p.code), (13, v.toNat), (8, vi.toNat), (4, k.toNat), (2, sp.code)]
  | .vscat t p v vi k sp => place 0x40180000 [(26, t.code), (23, p.code), (13, v.toNat), (8, vi.toNat), (4, k.toNat), (2, sp.code)]
  | .vpart t p v vi m => place 0x401c0000 [(26, t.code), (23, p.code), (13, v.toNat), (8, vi.toNat), (0, m.toNat)]
  | .vperm t p v vi => place 0x40200000 [(26, t.code), (23, p.code), (13, v.toNat), (8, vi.toNat)]
  | .vldb t p v k sp q => place 0x40240000 [(26, t.code), (23, p.code), (13, v.toNat), (4, k.toNat), (2, sp.code), (0, q.code)]
  | .mma t sa sb acc depth => place 0x80000000 [(26, t.code), (18, sa.toNat), (14, sb.toNat), (8, acc.toNat), (0, depth.toNat)]
  | .mmaz t sa sb acc depth => place 0x80400000 [(26, t.code), (18, sa.toNat), (14, sb.toNat), (8, acc.toNat), (0, depth.toNat)]
  | .mmv t sa sb acc depth => place 0x80800000 [(26, t.code), (18, sa.toNat), (14, sb.toNat), (8, acc.toNat), (0, depth.toNat)]
  | .mdrain t sa acc rm auto hist set => place 0x80c00000 [(26, t.code), (18, sa.toNat), (8, acc.toNat), (6, rm.code), (5, bit auto), (4, bit hist), (2, set.toNat)]
  | .mseal t => place 0x81000000 [(26, t.code)]
  | .msettle t n => place 0x81400000 [(26, t.code), (0, n.toNat)]
  | .accz t acc => place 0x81800000 [(26, t.code), (8, acc.toNat)]
  | .accld t sa acc => place 0x81c00000 [(26, t.code), (18, sa.toNat), (8, acc.toNat)]
  | .cmpNop t => place 0xc0000000 [(26, t.code)]
  | .cmpEnd t => place 0xc0200000 [(26, t.code)]
  | .shape t ty rm sat g k => place 0xc0400000 [(26, t.code), (17, ty.code), (15, rm.code), (14, bit sat), (11, g.toNat), (7, k.toNat)]
  | .sld t st k sp => place 0xc0600000 [(26, t.code), (17, st.toNat), (13, k.toNat), (11, sp.code)]
  | .smod t st sel k => place 0xc0800000 [(26, t.code), (17, st.toNat), (13, sel.code), (9, k.toNat)]
  | .kadd t d a imm => place 0xc0a00000 [(26, t.code), (17, d.toNat), (13, a.toNat), (0, imm.toNat)]
  | .kli t d imm => place 0xc0c00000 [(26, t.code), (17, d.toNat), (0, imm.toNat)]
  | .kmov t d a => place 0xc0e00000 [(26, t.code), (17, d.toNat), (13, a.toNat)]
  | .vli t d imm => place 0xc1000000 [(26, t.code), (16, d.toNat), (0, imm.toNat)]
  | .pset t d mode => place 0xc1200000 [(26, t.code), (18, d.toNat), (12, mode.code)]
  | .cmpSemwait t sem arg => place 0xc1400000 [(26, t.code), (17, sem.toNat), (0, arg.code)]
  | .cmpSemadd t sem arg => place 0xc1600000 [(26, t.code), (17, sem.toNat), (0, arg.code)]
  | .loopk t k imm => place 0xc1800000 [(26, t.code), (17, k.toNat), (0, imm.toNat)]
  | .fragsel t f a => place 0xc1a00000 [(26, t.code), (17, f.toNat), (13, a.toNat)]
  | .histrd t d set clr => place 0xc1c00000 [(26, t.code), (16, d.toNat), (14, set.toNat), (13, bit clr)]
  | .feclr t sp o l => place 0xc1e00000 [(26, t.code), (19, sp.code), (15, o.toNat), (11, l.toNat)]
  | .gstat t d slot => place 0xc2000000 [(26, t.code), (17, d.toNat), (13, slot.toNat)]
  | .genAdd d a b => place 0x04000000 [(22, d.toNat), (18, a.toNat), (14, b.toNat)]
  | .genSub d a b => place 0x08000000 [(22, d.toNat), (18, a.toNat), (14, b.toNat)]
  | .genMul d a b => place 0x0c000000 [(22, d.toNat), (18, a.toNat), (14, b.toNat)]
  | .genMulhu d a b => place 0x10000000 [(22, d.toNat), (18, a.toNat), (14, b.toNat)]
  | .genAnd d a b => place 0x14000000 [(22, d.toNat), (18, a.toNat), (14, b.toNat)]
  | .genOr d a b => place 0x18000000 [(22, d.toNat), (18, a.toNat), (14, b.toNat)]
  | .genXor d a b => place 0x1c000000 [(22, d.toNat), (18, a.toNat), (14, b.toNat)]
  | .genShl d a b => place 0x20000000 [(22, d.toNat), (18, a.toNat), (14, b.toNat)]
  | .genShr d a b => place 0x24000000 [(22, d.toNat), (18, a.toNat), (14, b.toNat)]
  | .genSra d a b => place 0x28000000 [(22, d.toNat), (18, a.toNat), (14, b.toNat)]
  | .genRotl d a b => place 0x2c000000 [(22, d.toNat), (18, a.toNat), (14, b.toNat)]
  | .genAddi d a imm => place 0x30000000 [(22, d.toNat), (18, a.toNat), (0, imm.toNat)]
  | .genXori d a imm => place 0x34000000 [(22, d.toNat), (18, a.toNat), (0, imm.toNat)]
  | .genLi d imm => place 0x38000000 [(22, d.toNat), (0, imm.toNat)]
  | .genLui d imm => place 0x3c000000 [(22, d.toNat), (0, imm.toNat)]
  | .genHash d a b => place 0x40000000 [(22, d.toNat), (18, a.toNat), (14, b.toNat)]
  | .genSel d a b => place 0x44000000 [(22, d.toNat), (18, a.toNat), (14, b.toNat)]
  | .genSltu d a b => place 0x48000000 [(22, d.toNat), (18, a.toNat), (14, b.toNat)]
  | .genSlt d a b => place 0x4c000000 [(22, d.toNat), (18, a.toNat), (14, b.toNat)]
  | .genFadd d a b => place 0x50000000 [(22, d.toNat), (18, a.toNat), (14, b.toNat)]
  | .genFmul d a b => place 0x54000000 [(22, d.toNat), (18, a.toNat), (14, b.toNat)]
  | .genFfma d a b => place 0x58000000 [(22, d.toNat), (18, a.toNat), (14, b.toNat)]
  | .genI2f d a => place 0x5c000000 [(22, d.toNat), (18, a.toNat)]
  | .genUnif d a => place 0x60000000 [(22, d.toNat), (18, a.toNat)]
  | .genRade d a => place 0x64000000 [(22, d.toNat), (18, a.toNat)]
  | .genFneg d a => place 0x68000000 [(22, d.toNat), (18, a.toNat)]
  | .genFmin d a b => place 0x6c000000 [(22, d.toNat), (18, a.toNat), (14, b.toNat)]
  | .genFmax d a b => place 0x70000000 [(22, d.toNat), (18, a.toNat), (14, b.toNat)]
  | .genLoop a imm => place 0x74000000 [(18, a.toNat), (0, imm.toNat)]
  | .genOut a => place 0x78000000 [(18, a.toNat)]
  | .genOuti a => place 0x7c000000 [(18, a.toNat)]
  | .illegalInstrFetch _ _ => 0
  | .commandPop _ _ => 0
  | .tokenWaitIssue _ _ => 0
  | .tokenPushDelayed _ _ => 0
  | .semwaitSatisfied _ _ => 0
  | .waitevSatisfied _ => 0
  | .wfeWake _ => 0
  | .wfeTimeout _ => 0
  | .dispPlace _ => 0
  | .qdrainComplete _ => 0
  | .qcancelComplete _ => 0
  | .taskEnd _ => 0
  | .deferredRetire _ _ => 0
  | .fullEmptyWaitDone _ => 0
  | .copyComplete _ _ _ _ => 0
  | .copyUnitFault _ _ _ => 0
  | .matrixWordComplete _ _ => 0
  | .matrixIssueResume _ => 0
  | .msettleComplete _ => 0
  | .matrixWordFault _ => 0
  | .clockHold _ => 0
  | .slotChangeRetire _ => 0
  | .trapEntry _ => 0
  | .shadowFaultService _ => 0
  | .shadowServiceDone _ _ _ => 0
  | .shadowLimitExpiry _ => 0
  | .prgResponse _ _ => 0
  | .atsInvalidation _ _ _ => 0
  | .tltDrainComplete _ => 0
  | .mdecQueuePlace _ _ => 0
  | .mediaDecodeJob _ => 0
  | .mediaDecodeComplete _ => 0
  | .srcFree _ _ _ _ => 0
  | .collArrival _ => 0
  | .collCombine _ => 0
  | .localDone _ => 0
  | .collReport _ => 0
  | .allDone _ => 0
  | .termiteCommand _ => 0
  | .rflagDelivery _ => 0
  | .mflagDelivery _ _ => 0
  | .fireflyArm => 0
  | .fireflyRound _ => 0
  | .lqtailDoorbell _ _ => 0
  | .launchRecordRead => 0
  | .spawnSpillMove _ => 0
  | .launchReady _ => 0
  | .containerLoad _ => 0
  | .launchSelection => 0
  | .taskSave _ => 0
  | .priorityAging _ => 0
  | .launchCompletion _ => 0
  | .tlbInvalidation _ => 0
  | .tlbInvalidationComplete => 0
  | .ctxDestroy _ => 0
  | .ctxUnload _ => 0
  | .warmDeviceReset => 0
  | .warmDieReset _ => 0
  | .coreReset _ => 0
  | .coldReset _ => 0
  | .thermalTrip => 0
  | .throttleChange _ _ => 0
  | .ucieLinkFailure _ _ => 0
  | .nudonPortTrain _ _ => 0
  | .configRequest _ => 0
  | .registerWrite _ _ _ => 0
  | .violcntRead _ => 0
  | .ldropRead => 0
  | .untrustedPrivateAccess _ _ => 0
  | .ideIntegrityFailure _ => 0
  | .functionLevelReset _ => 0
  | .debugEnable => 0
  | .lockDigestWalk => 0
  | .frameSeal _ => 0
  | .frameStart _ => 0
  | .channelReset _ _ _ => 0
  | .chdoorWrite _ _ _ => 0
  | .bounceSlotCopy _ _ => 0
  | .getVersion => 0
  | .getCapabilities => 0
  | .negotiateAlgorithms _ => 0
  | .getDigests => 0
  | .getCertificate _ => 0
  | .challenge _ => 0
  | .getMeasurements _ => 0
  | .keyExchange => 0
  | .finish => 0
  | .keyUpdate => 0
  | .heartbeat => 0
  | .endSession => 0
  | .spdmUnsupportedRequest _ => 0
  | .ideKm _ => 0
  | .kSetGo _ _ => 0
  | .getTdispVersion _ => 0
  | .getTdispCapabilities _ => 0
  | .lockInterfaceRequest _ _ _ => 0
  | .getDeviceInterfaceReport _ => 0
  | .getDeviceInterfaceState _ => 0
  | .startInterfaceRequest _ => 0
  | .stopInterfaceRequest _ => 0
  | .tdispUnsupportedRequest _ _ => 0
  | .mctpControl _ _ => 0
  | .pldmDiscovery => 0
  | .pldmMonitoring _ => 0
  | .pldmFirmwareUpdate _ _ => 0
  | .mctpUnsupportedType _ => 0
  | .remoteHomeAccess _ _ => 0
  | .trustedSharedPageAccess _ => 0

/-- The word of a well-formed instruction. -/
def encode (i : Instr) : Word := BitVec.ofNat 32 (encodeNat i)

end Sys2Proof
end

