-- ==== Sys2Proof/Machine/Num.lean ====
section
/-!
DEFINITION. The numbers of 07_formats_rules.md: exact values, the round and convert helpers (R73, R74, R78, R79), the
Krytip formats (R80 to R84), exact sums (R91), the elementary functions that are rounded once (R100, R101), and the
hash and uniform helpers (R102, R103).
-/

namespace Sys2Proof.Machine

/-- The five sticky floating-point flags an operation may raise (R75). -/
structure FFlags where
  nv : Bool := false
  dz : Bool := false
  of : Bool := false
  uf : Bool := false
  nx : Bool := false
  deriving DecidableEq, Repr, Inhabited

/-- Flags of two operations together. -/
def FFlags.or (a b : FFlags) : FFlags :=
  { nv := a.nv || b.nv, dz := a.dz || b.dz, of := a.of || b.of, uf := a.uf || b.uf, nx := a.nx || b.nx }

/-- The five bits in FPSTAT's order (R75). -/
def FFlags.code (f : FFlags) : Nat := bit f.nv + 2 * bit f.dz + 4 * bit f.of + 8 * bit f.uf + 16 * bit f.nx

/-- An exact value (R90): a NaN (signalling or quiet), an infinity, or (-1)^neg x m x 2^e. -/
inductive XVal where
  | nan (sig : Bool)
  | inf (neg : Bool)
  | fin (neg : Bool) (m : Nat) (e : Int)
  deriving DecidableEq, Repr, Inhabited

/-- An IEEE format: precision, exponent range (R71). -/
structure Fmt where
  p    : Nat
  emin : Int
  emax : Int
  deriving DecidableEq, Repr, Inhabited

def Fmt.f16 : Fmt := { p := 11, emin := -14, emax := 15 }
def Fmt.bf16 : Fmt := { p := 8, emin := -126, emax := 127 }
def Fmt.f32 : Fmt := { p := 24, emin := -126, emax := 127 }
def Fmt.a64 : Fmt := { p := 53, emin := -1022, emax := 1023 }

/-- Bits of the exponent field in place: the all-ones exponent. -/
def Fmt.expOnes (f : Fmt) : Nat := (2 * f.emax + 1).toNat

/-- The sign bit's weight. -/
def Fmt.signBit (f : Fmt) : Nat := 2 ^ (f.p - 1) * (f.expOnes + 1)

/-- The canonical quiet NaN (R71, R72). -/
def Fmt.qnan (f : Fmt) : Nat := 2 ^ (f.p - 1) * f.expOnes + 2 ^ (f.p - 2)

/-- An infinity. -/
def Fmt.infBits (f : Fmt) (neg : Bool) : Nat := bit neg * f.signBit + 2 ^ (f.p - 1) * f.expOnes

/-- The largest finite magnitude. -/
def Fmt.maxBits (f : Fmt) (neg : Bool) : Nat := bit neg * f.signBit + (2 ^ (f.p - 1) * f.expOnes - 1)

/-- The exact value of a bit pattern of an IEEE format (R71, R72). -/
def Fmt.value (f : Fmt) (b : Nat) : XVal :=
  let frac := b % 2 ^ (f.p - 1)
  let ex := b / 2 ^ (f.p - 1) % (f.expOnes + 1)
  let neg := b / f.signBit % 2 == 1
  if ex = f.expOnes then
    if frac = 0 then .inf neg else .nan (frac / 2 ^ (f.p - 2) == 0)
  else if ex = 0 then .fin neg frac (f.emin - f.p + 1)
  else .fin neg (2 ^ (f.p - 1) + frac) (ex - f.emax - f.p + 1)

/-- floor(log2 |x|) of a nonzero m x 2^e. -/
def magLog2 (m : Nat) (e : Int) : Int := (Nat.log2 m : Int) + e

/-- Whether the mode moves an inexact magnitude away from zero (R73); `n` is the truncated magnitude, `twoRem` twice
the part dropped and `unit` the weight of n's last place. -/
def roundsUp (mode : RMode) (neg : Bool) (n twoRem unit : Nat) : Bool :=
  match mode with
  | .rne => decide (unit < twoRem) || (twoRem == unit && n % 2 == 1)
  | .rz => false
  | .rd => neg
  | .ru => !neg

/-- R73's overflow value, and R78's for sat = 1. -/
def overflowBits (f : Fmt) (mode : RMode) (neg sat : Bool) : Nat :=
  let toMax :=
    match mode with
    | .rne => false
    | .rz => true
    | .rd => !neg
    | .ru => neg
  if sat || toMax then f.maxBits neg else f.infBits neg

/-- R73 for a finite (-1)^neg x m x 2^e; a zero keeps the sign it is given (R74). DEDUCED (log 19): so does a value other
than zero that rounds to zero, whatever operation it comes from. -/
def roundFin (f : Fmt) (mode : RMode) (sat neg : Bool) (m : Nat) (e : Int) : Nat × FFlags :=
  if m = 0 then (bit neg * f.signBit, { }) else
  let l := magLog2 m e
  let q := max l f.emin - f.p + 1
  let sh := (q - e).toNat
  let n0 := if q ≤ e then m * 2 ^ (e - q).toNat else m / 2 ^ sh
  let rem := if q ≤ e then 0 else m % 2 ^ sh
  let inexact := rem != 0
  let n := if inexact && roundsUp mode neg n0 (2 * rem) (2 ^ sh) then n0 + 1 else n0
  let uf := inexact && decide (l < f.emin)
  if f.emax < magLog2 n q then (overflowBits f mode neg sat, { of := true, nx := true, uf := uf })
  else
    let biased := (q + f.p - 1 + f.emax).toNat
    (bit neg * f.signBit + (biased - 1) * 2 ^ (f.p - 1) + n, { uf := uf, nx := inexact })

/-- R73 with R72: any exact value onto an IEEE format. A signalling NaN sets NV. -/
def roundTo (f : Fmt) (mode : RMode) (x : XVal) : Nat × FFlags :=
  match x with
  | .nan sig => (f.qnan, { nv := sig })
  | .inf neg => (f.infBits neg, { })
  | .fin neg m e => roundFin f mode false neg m e

/-! ### Element values -/

/-- Two's complement or unsigned reading of w bits (R77). -/
def intValue (signed : Bool) (w b : Nat) : Int :=
  if signed && decide (2 ^ (w - 1) ≤ b) then (b : Int) - 2 ^ w else b

/-- The exact value of an integer. -/
def XVal.ofInt (i : Int) : XVal := .fin (decide (i < 0)) i.natAbs 0

/-- Magnitude of a K8 code 0 to 127 as m x 2^e (R80): the grade is the number of leading zeros. -/
def k8Mag (c : Nat) : Nat × Int :=
  if 64 ≤ c then (16 + c % 16, ((c / 16 % 4 : Nat) : Int) - 1 - 4)
  else if 32 ≤ c then (8 + c % 8, ((c / 8 % 4 : Nat) : Int) - 5 - 3)
  else if 16 ≤ c then (4 + c % 4, ((c / 4 % 4 : Nat) : Int) - 9 - 2)
  else if 8 ≤ c then (2 + c % 2, ((c / 2 % 4 : Nat) : Int) - 13 - 1)
  else if 4 ≤ c then (1, ((c % 4 : Nat) : Int) - 17)
  else if 2 ≤ c then (1, ((c % 2 : Nat) : Int) - 19)
  else (c, -20)

/-- Magnitude of a K4 code 0 to 7 (R82), in eighths. -/
def k4Mag (c : Nat) : Nat × Int :=
  (match c with
   | 0 => 0 | 1 => 1 | 2 => 2 | 3 => 4 | 4 => 8 | 5 => 12 | 6 => 16 | _ => 24, -3)

/-- Value of a KS8 byte other than 0xFF as m x 2^e (R83). -/
def ks8Mag (b : Nat) : Nat × Int := (4 + b % 4, ((b / 4 : Nat) : Int) - 34)

/-- The exact value of an element's bits (R68, R71, R77, R80 to R83). -/
def EType.value (t : EType) (b : Nat) : XVal :=
  match t with
  | .i8 => .ofInt (intValue true 8 b)
  | .u8 => .ofInt (intValue false 8 b)
  | .i16 => .ofInt (intValue true 16 b)
  | .u16 => .ofInt (intValue false 16 b)
  | .i32 => .ofInt (intValue true 32 b)
  | .u32 => .ofInt (intValue false 32 b)
  | .f16 => Fmt.f16.value b
  | .bf16 => Fmt.bf16.value b
  | .f32 => Fmt.f32.value b
  | .a64 => Fmt.a64.value b
  | .k8 => if b = 0x80 then .nan false else .fin (decide (128 ≤ b)) (k8Mag (b % 128)).1 (k8Mag (b % 128)).2
  | .k4 => if b = 8 then .nan false else .fin (decide (8 ≤ b)) (k4Mag (b % 8)).1 (k4Mag (b % 8)).2
  | .ks8 => if b = 0xff then .nan true else .fin false (ks8Mag b).1 (ks8Mag b).2

/-- The IEEE format of an element type, if it has one. -/
def EType.fmt? : EType → Option Fmt
  | .f16 => some .f16
  | .bf16 => some .bf16
  | .f32 => some .f32
  | .a64 => some .a64
  | .i8 => none | .u8 => none | .i16 => none | .u16 => none | .i32 => none | .u32 => none
  | .k8 => none | .k4 => none | .ks8 => none

/-- Integer element types (R77): whether signed. -/
def EType.signed? : EType → Option Bool
  | .i8 => some true | .i16 => some true | .i32 => some true
  | .u8 => some false | .u16 => some false | .u32 => some false
  | .f16 => none | .bf16 => none | .f32 => none | .a64 => none | .k8 => none | .k4 => none | .ks8 => none

/-- Least and greatest value of an integer type. -/
def intMin (signed : Bool) (w : Nat) : Int := if signed then -(2 ^ (w - 1)) else 0
def intMax (signed : Bool) (w : Nat) : Int := if signed then 2 ^ (w - 1) - 1 else 2 ^ w - 1

/-- An integer clamped to a range. -/
def clampInt (lo hi i : Int) : Int := if i < lo then lo else if hi < i then hi else i

/-- The low w bits of an integer (R78: value mod 2^w). -/
def intBits (w : Nat) (i : Int) : Nat := (i % 2 ^ w).toNat

/-! ### Krytip conversion (R84) -/

/-- Compares m1 x 2^e1 with m2 x 2^e2. -/
def magCmp (m1 : Nat) (e1 : Int) (m2 : Nat) (e2 : Int) : Ordering :=
  let lo := min e1 e2
  compare (m1 * 2 ^ (e1 - lo).toNat) (m2 * 2 ^ (e2 - lo).toNat)

/-- The largest code below 2^n whose magnitude times `den` does not exceed m x 2^e, bit by bit from the top. -/
def codeFloor (mag : Nat → Nat × Int) (den m : Nat) (e : Int) : Nat → Nat → Nat
  | 0, c => c
  | n + 1, c =>
    let c' := c + 2 ^ n
    codeFloor mag den m e n (if magCmp ((mag c').1 * den) (mag c').2 m e = .gt then c else c')

/-- R84 for a finite (-1)^neg x m x 2^e / den into a code of `n` bits under magnitudes `mag`. The result is a sign and
a code. -/
def krytip (mag : Nat → Nat × Int) (n : Nat) (mode : RMode) (neg : Bool) (m : Nat) (e : Int) (den : Nat) :
    Nat × FFlags :=
  let top := 2 ^ n - 1
  let sign := bit neg * 2 ^ n
  if m = 0 then (0, { })
  else if magCmp m e ((mag top).1 * den) (mag top).2 = .gt then (sign + top, { of := true, nx := true })
  else
    let lo := codeFloor mag den m e n 0
    let (ml, el) := mag lo
    if magCmp (ml * den) el m e = .eq then (sign + lo, { })
    else
      let (mh, eh) := mag (lo + 1)
      let b := min el eh
      let mid := ml * 2 ^ (el - b).toNat + mh * 2 ^ (eh - b).toNat
      let up :=
        match mode with
        | .rne =>
          match magCmp (2 * m) e (mid * den) b with
          | .gt => true
          | .eq => lo % 2 == 1
          | .lt => false
        | .rz => false
        | .rd => neg
        | .ru => !neg
      let c := if up then lo + 1 else lo
      (if c = 0 then 0 else sign + c, { nx := true, uf := lo == 0 })

/-- R84 for any exact value divided by `den`: step 1 for NaNs, step 2 for infinities. -/
def krytipTo (mag : Nat → Nat × Int) (n : Nat) (mode : RMode) (x : XVal) (den : Nat) : Nat × FFlags :=
  match x with
  | .nan sig => (2 ^ n, { nv := sig })
  | .inf neg => (bit neg * 2 ^ n + (2 ^ n - 1), { of := true, nx := true })
  | .fin neg m e => krytip mag n mode neg m e den

/-- Conversion into K8 and K4 of x / den. -/
def toK8 (mode : RMode) (x : XVal) (den : Nat) : Nat × FFlags := krytipTo k8Mag 7 mode x den
def toK4 (mode : RMode) (x : XVal) (den : Nat) : Nat × FFlags := krytipTo k4Mag 3 mode x den

/-! ### convert (R78, R79) -/

/-- A finite magnitude rounded to an integer in a mode, with whether it was inexact (R79). -/
def roundInt (mode : RMode) (neg : Bool) (m : Nat) (e : Int) : Int × Bool :=
  let sh := (-e).toNat
  let n0 := if 0 ≤ e then m * 2 ^ e.toNat else m / 2 ^ sh
  let rem := if 0 ≤ e then 0 else m % 2 ^ sh
  let n := if rem != 0 && roundsUp mode neg n0 (2 * rem) (2 ^ sh) then n0 + 1 else n0
  (if neg then -(n : Int) else n, rem != 0)

/-- R79: a floating or Krytip value into an integer type of width w. -/
def floatToInt (signed : Bool) (w : Nat) (mode : RMode) (x : XVal) : Nat × FFlags :=
  let lo := intMin signed w
  let hi := intMax signed w
  match x with
  | .nan _ => (0, { nv := true })
  | .inf neg => (intBits w (if neg then lo else hi), { nv := true })
  | .fin neg m e =>
    let (i, inexact) := roundInt mode neg m e
    if i < lo || hi < i then (intBits w (clampInt lo hi i), { nv := true })
    else (intBits w i, { nx := inexact })

/-- R78: an integer source into an integer type. -/
def intToInt (signed : Bool) (w : Nat) (sat : Bool) (x : XVal) : Nat :=
  match x with
  | .fin neg m e =>
    let i : Int := if neg then -(m * 2 ^ e.toNat : Nat) else (m * 2 ^ e.toNat : Nat)
    intBits w (if sat then clampInt (intMin signed w) (intMax signed w) i else i)
  | .nan _ => 0
  | .inf _ => 0

/-- R78 into an IEEE format. -/
def toFloat (f : Fmt) (mode : RMode) (sat : Bool) (x : XVal) : Nat × FFlags :=
  match x with
  | .nan sig => (f.qnan, { nv := sig })
  | .inf neg => if sat then (f.maxBits neg, { of := true, nx := true }) else (f.infBits neg, { })
  | .fin neg m e => roundFin f mode sat neg m e

/-- R78. `srcInt` says whether the source type is an integer type. KS8 is no destination: its fields fault before. -/
def convert (srcInt : Bool) (x : XVal) (t : EType) (mode : RMode) (sat : Bool) : Nat × FFlags :=
  match t with
  | .k8 => toK8 mode x 1
  | .k4 => toK4 mode x 1
  | .ks8 => (0, { })
  | .f16 => toFloat .f16 mode sat x
  | .bf16 => toFloat .bf16 mode sat x
  | .f32 => toFloat .f32 mode sat x
  | .a64 => toFloat .a64 mode sat x
  | .i8 => if srcInt then (intToInt true 8 sat x, { }) else floatToInt true 8 mode x
  | .u8 => if srcInt then (intToInt false 8 sat x, { }) else floatToInt false 8 mode x
  | .i16 => if srcInt then (intToInt true 16 sat x, { }) else floatToInt true 16 mode x
  | .u16 => if srcInt then (intToInt false 16 sat x, { }) else floatToInt false 16 mode x
  | .i32 => if srcInt then (intToInt true 32 sat x, { }) else floatToInt true 32 mode x
  | .u32 => if srcInt then (intToInt false 32 sat x, { }) else floatToInt false 32 mode x

/-! ### Exact arithmetic (R74, R90, R91) -/

def XVal.isNan : XVal → Bool
  | .nan _ => true
  | .inf _ => false
  | .fin _ _ _ => false

def XVal.isSig : XVal → Bool
  | .nan s => s
  | .inf _ => false
  | .fin _ _ _ => false

def XVal.isZero : XVal → Bool
  | .fin _ m _ => m == 0
  | .nan _ => false
  | .inf _ => false

def XVal.neg : XVal → XVal
  | .nan s => .nan s
  | .inf n => .inf !n
  | .fin n m e => .fin (!n) m e

def XVal.abs : XVal → XVal
  | .nan s => .nan s
  | .inf _ => .inf false
  | .fin _ m e => .fin false m e

/-- The exact product with the flag of an invalid operation; a quiet NaN stands for every NaN result. -/
def XVal.mul (a b : XVal) : XVal × Bool :=
  match a, b with
  | .nan s, y => (.nan false, s || y.isSig)
  | _, .nan s => (.nan false, s)
  | .inf n, .inf k => (.inf (n != k), false)
  | .inf n, .fin k m _ => if m = 0 then (.nan false, true) else (.inf (n != k), false)
  | .fin k m _, .inf n => if m = 0 then (.nan false, true) else (.inf (n != k), false)
  | .fin n m e, .fin k m' e' => (.fin (n != k) (m * m') (e + e'), false)

/-- The least exponent among the nonzero finite terms. -/
def leastExp : List XVal → Int
  | [] => 0
  | .fin _ m e :: ts => if m = 0 then leastExp ts else min e (leastExp ts)
  | .nan _ :: ts => leastExp ts
  | .inf _ :: ts => leastExp ts

/-- A finite term in units of 2^e0. -/
def XVal.units (e0 : Int) : XVal → Int
  | .fin n m e => if m = 0 then 0 else if n then -(m * 2 ^ (e - e0).toNat : Nat) else (m * 2 ^ (e - e0).toNat : Nat)
  | .nan _ => 0
  | .inf _ => 0

def XVal.isInf (neg : Bool) : XVal → Bool
  | .inf n => n == neg
  | .nan _ => false
  | .fin _ _ _ => false

def XVal.isNegZero : XVal → Bool
  | .fin n m _ => n && m == 0
  | .nan _ => false
  | .inf _ => false

/-- R91 with R74's zero sign under the mode that consumes the sum. The Bool is the invalid flag: a signalling NaN
term, or +inf and -inf together with no NaN term (R72, R93). -/
def exactSum (mode : RMode) (ts : List XVal) : XVal × Bool :=
  let pos := ts.any (XVal.isInf false)
  let negi := ts.any (XVal.isInf true)
  if ts.any XVal.isNan then (.nan false, ts.any XVal.isSig)
  else if pos && negi then (.nan false, true)
  else if pos then (.inf false, false)
  else if negi then (.inf true, false)
  else
    let e0 := leastExp ts
    let s : Int := ts.foldl (fun (a : Int) t => a + t.units e0) 0
    if s = 0 then
      let neg := if !ts.isEmpty && ts.all XVal.isNegZero then true else !ts.isEmpty && mode == .rd
      (.fin neg 0 0, false)
    else (.fin (decide (s < 0)) s.natAbs e0, false)

/-- a + b in format f. -/
def addIn (f : Fmt) (mode : RMode) (a b : XVal) : Nat × FFlags :=
  let (s, nv) := exactSum mode [a, b]
  let (r, fl) := roundTo f mode s
  (r, { fl with nv := fl.nv || nv })

/-- a x b in format f. -/
def mulIn (f : Fmt) (mode : RMode) (a b : XVal) : Nat × FFlags :=
  let (s, nv) := a.mul b
  let (r, fl) := roundTo f mode s
  (r, { fl with nv := fl.nv || nv })

/-- a x b + c in format f, rounded once (R100). DEDUCED (log 19): 0 x infinity beside a quiet NaN addend is an invalid
operation of R72 and sets NV. -/
def fmaIn (f : Fmt) (mode : RMode) (a b c : XVal) : Nat × FFlags :=
  let (p, nv1) := a.mul b
  let (s, nv2) := exactSum mode [p, c]
  let (r, fl) := roundTo f mode s
  (r, { fl with nv := fl.nv || nv1 || nv2 })

/-- A value known to lie strictly between n x 2^e and (n+1) x 2^e when `more` is true, and equal to n x 2^e else,
written with one more bit so that it rounds as the true value does in every format of fewer bits than n has. -/
def sticky (neg : Bool) (n : Nat) (e : Int) (more : Bool) : XVal := .fin neg (2 * n + bit more) (e - 1)

/-- Bits kept below the rounding point of quotients and roots. -/
def guardBits : Nat := 64

/-- The quotient of nonzero finite magnitudes. -/
def quot (neg : Bool) (m1 : Nat) (e1 : Int) (m2 : Nat) (e2 : Int) : XVal :=
  let k := guardBits + Nat.log2 m2
  let n := m1 * 2 ^ k
  sticky neg (n / m2) (e1 - e2 - k) (n % m2 != 0)

/-- a / b (R101): division of a finite nonzero value by zero sets DZ; 0/0 and inf/inf set NV. -/
def XVal.div (a b : XVal) : XVal × FFlags :=
  match a, b with
  | .nan s, y => (.nan false, { nv := s || y.isSig })
  | _, .nan s => (.nan false, { nv := s })
  | .inf _, .inf _ => (.nan false, { nv := true })
  | .inf n, .fin k _ _ => (.inf (n != k), { })
  | .fin n _ _, .inf k => (.fin (n != k) 0 0, { })
  | .fin n m e, .fin k m' e' =>
    if m' = 0 then
      if m = 0 then (.nan false, { nv := true }) else (.inf (n != k), { dz := true })
    else if m = 0 then (.fin (n != k) 0 0, { })
    else (quot (n != k) m e m' e', { })

/-- The integer square root, bit by bit from 2^(i-1) down. -/
def isqrtGo (n : Nat) : Nat → Nat → Nat
  | 0, r => r
  | i + 1, r => isqrtGo n i (if (r + 2 ^ i) * (r + 2 ^ i) ≤ n then r + 2 ^ i else r)

def isqrt (n : Nat) : Nat := isqrtGo n (Nat.log2 n / 2 + 1) 0

/-- Square root of an exact value (R72, R74, R101). -/
def XVal.sqrt (a : XVal) : XVal × FFlags :=
  match a with
  | .nan s => (.nan false, { nv := s })
  | .inf n => if n then (.nan false, { nv := true }) else (.inf false, { })
  | .fin n m e =>
    if m = 0 then (.fin n 0 0, { })
    else if n then (.nan false, { nv := true })
    else
      let odd := e % 2 != 0
      let m' := (if odd then 2 * m else m) * 2 ^ (2 * guardBits)
      let e' := (if odd then e - 1 else e) / 2 - guardBits
      let r := isqrt m'
      (sticky false r e' (r * r != m'), { })

/-- Reciprocal square root (R101). -/
def XVal.rsqrt (a : XVal) : XVal × FFlags :=
  match a with
  | .nan s => (.nan false, { nv := s })
  | .inf n => if n then (.nan false, { nv := true }) else (.fin false 0 0, { })
  | .fin n m e =>
    if m = 0 then (.inf n, { dz := true })
    else if n then (.nan false, { nv := true })
    else
      let odd := e % 2 != 0
      let m' := if odd then 2 * m else m
      let e' := (if odd then e - 1 else e) / 2
      let k := guardBits + Nat.log2 m'
      let r := isqrt (2 ^ (2 * k) / m')
      (sticky false r (-e' - k) (r * r * m' != 2 ^ (2 * k)), { })

/-! ### Elementary functions (R100, R101)

A result that is no dyadic number is taken from a fixed-point value with 320 bits below the point, cut to 256; the last
bits cannot change a rounding to 24 bits (log 18). -/

/-- Bits below the point of the series. -/
def fixBits : Nat := 320

/-- ln 2 with 320 bits below the point, cut. -/
def ln2Fix : Nat := 1480553391661173448385607439722553250922680800745876974795605978609098082859138712941075737848984

/-- The terms r^k / k! from term `t` at index k on, summed. -/
def expSeries (r : Nat) : Nat → Nat → Nat → Nat → Nat
  | 0, _, _, acc => acc
  | fuel + 1, k, t, acc => expSeries r fuel (k + 1) (t * r / 2 ^ fixBits / (k + 1)) (acc + t)

/-- e^r for a fixed-point 0 ≤ r < 1. -/
def expFix (r : Nat) : Nat := expSeries r 80 0 (2 ^ fixBits) 0

/-- 2^f for a fixed-point 0 ≤ f < 1. -/
def exp2Fix (f : Nat) : Nat := expFix (f * ln2Fix / 2 ^ fixBits)

/-- The terms z^(2k+1)/(2k+1) of atanh z. -/
def atanhSeries (z2 : Nat) : Nat → Nat → Nat → Nat → Nat
  | 0, _, _, acc => acc
  | fuel + 1, k, t, acc => atanhSeries z2 fuel (k + 2) (t * z2 / 2 ^ fixBits) (acc + t / k)

/-- ln y for a fixed-point 1 ≤ y < 2. -/
def lnFix (y : Nat) : Nat :=
  let z := (y - 2 ^ fixBits) * 2 ^ fixBits / (y + 2 ^ fixBits)
  2 * atanhSeries (z * z / 2 ^ fixBits) 104 1 z 0

/-- A fixed-point value as an inexact number with 256 bits below the point. -/
def ofFix (neg : Bool) (v : Nat) (e : Int) : XVal := sticky neg (v / 2 ^ 64) (e - 256) true

/-- 2^x for a finite nonzero x that is no integer, or any finite x of magnitude 2^12 and more. -/
def exp2Fin (neg : Bool) (m : Nat) (e : Int) : XVal :=
  if 12 ≤ magLog2 m e then sticky false (2 ^ 63) (if neg then -8192 else 8192) true
  else
    let scaled := if 0 ≤ e + fixBits then m * 2 ^ (e + fixBits).toNat else 0
    let i := scaled / 2 ^ fixBits
    let f := scaled % 2 ^ fixBits
    if f = 0 then .fin false 1 (if neg then -i else i)
    else if neg then ofFix false (exp2Fix (2 ^ fixBits - f)) (-(i : Int) - 1)
    else ofFix false (exp2Fix f) i

/-- e^-D for a magnitude D = m x 2^e: with n = ceil(D / ln 2) it is 2^-n x e^(n ln 2 - D) (R283). From D = 2^10 on it is
below every binary64 number's half, and so given as one far below them. -/
def expNeg (m : Nat) (e : Int) : XVal :=
  if m = 0 then .fin false 1 0
  else if 10 ≤ magLog2 m e then sticky false (2 ^ 63) (-8192) true
  else
    let d := if 0 ≤ e + fixBits then m * 2 ^ (e + fixBits).toNat else 0
    let n := (d + ln2Fix - 1) / ln2Fix
    ofFix false (expFix (n * ln2Fix - d)) (-(n : Int))

/-- EXP2 (R101). -/
def XVal.exp2 (a : XVal) : XVal × FFlags :=
  match a with
  | .nan s => (.nan false, { nv := s })
  | .inf n => if n then (.fin false 0 0, { }) else (.inf false, { })
  | .fin n m e => if m = 0 then (.fin false 1 0, { }) else (exp2Fin n m e, { })

/-- log2 of a positive finite value. -/
def log2Fin (m : Nat) (e : Int) : XVal :=
  let l := Nat.log2 m
  let il : Int := l + e
  if m = 2 ^ l then XVal.ofInt il
  else
    let y := m * 2 ^ fixBits / 2 ^ l
    let v : Int := il * 2 ^ fixBits + lnFix y * 2 ^ fixBits / ln2Fix
    if 0 ≤ v then ofFix false v.toNat 0 else ofFix true (v.natAbs - 2 ^ 16) 0

/-- LOG2 (R101). -/
def XVal.log2 (a : XVal) : XVal × FFlags :=
  match a with
  | .nan s => (.nan false, { nv := s })
  | .inf n => if n then (.nan false, { nv := true }) else (.inf false, { })
  | .fin n m e =>
    if m = 0 then (.inf true, { dz := true })
    else if n then (.nan false, { nv := true })
    else (log2Fin m e, { })

/-- An operation's exact result with its own flags, rounded once into a format (R100). -/
def deliver (f : Fmt) (mode : RMode) (r : XVal × FFlags) : Nat × FFlags :=
  let (b, fl) := roundTo f mode r.1
  (b, fl.or r.2)

/-! ### Comparison -/

/-- Compares two exact values that are no NaNs; zeros of either sign are equal. -/
def XVal.cmp (a b : XVal) : Ordering :=
  match a, b with
  | .inf n, .inf k => if n = k then .eq else if n then .lt else .gt
  | .inf n, _ => if n then .lt else .gt
  | _, .inf k => if k then .gt else .lt
  | .fin n m e, .fin k m' e' =>
    let lo := min e e'
    let x : Int := if n then -(m * 2 ^ (e - lo).toNat : Nat) else (m * 2 ^ (e - lo).toNat : Nat)
    let y : Int := if k then -(m' * 2 ^ (e' - lo).toNat : Nat) else (m' * 2 ^ (e' - lo).toNat : Nat)
    compare x y
  | .nan _, _ => .eq
  | _, .nan _ => .eq

/-! ### Hash and uniform helpers (R102, R103) -/

/-- R102. -/
def hash32 (x : Word) : Word :=
  let x := x ^^^ (x >>> 16)
  let x := x * 0x21F0AAAD
  let x := x ^^^ (x >>> 15)
  let x := x * 0x735A2D97
  x ^^^ (x >>> 15)

/-- R103: the exact value (x >> 8) x 2^-24. -/
def unifValue (x : Word) : XVal := .fin false (x.toNat / 2 ^ 8) (-24)

/-- R103 as an f32 pattern, which is exact. -/
def unifF32 (x : Word) : Word := BitVec.ofNat 32 (roundTo .f32 .rne (unifValue x)).1

end Sys2Proof.Machine
end

