-- ==== Sys2Proof/Machine/Sparse.lean ====
section
/-!
DEFINITION. Sparse stores: a list of (index, value) pairs with indices strictly rising and no entry equal to the value
that an unlisted index reads as. Equal stores are equal lists. Physical memory, the typed buffers, the accumulator
tiles and the instruction memories are all kept so.
-/

namespace Sys2Proof.Machine

/-- A sparse store; with bytes it is a list of Host.Cell. -/
abbrev Cells (α : Type) := List (Nat × α)

/-- The value at an index; `d` where nothing is listed. -/
def Cells.read {α : Type} (d : α) (c : Cells α) (a : Nat) : α :=
  match c.find? (fun p => p.1 == a) with
  | some p => p.2
  | none => d

/-- The listed entries for values at lo, lo + 1, …: those other than the default. -/
def Cells.run {α : Type} [DecidableEq α] (d : α) (lo : Nat) : List α → Cells α
  | [] => []
  | v :: vs => if v = d then Cells.run d (lo + 1) vs else (lo, v) :: Cells.run d (lo + 1) vs

/-- Writes values at lo, lo + 1, … in place of what was there. -/
def Cells.splice {α : Type} [DecidableEq α] (d : α) (c : Cells α) (lo : Nat) (vs : List α) : Cells α :=
  c.filter (fun p => decide (p.1 < lo)) ++ Cells.run d lo vs ++ c.filter (fun p => decide (lo + vs.length ≤ p.1))

/-- Writes one value. -/
def Cells.write {α : Type} [DecidableEq α] (d : α) (c : Cells α) (a : Nat) (v : α) : Cells α := c.splice d a [v]

/-- Returns n indices from lo on to the default. -/
def Cells.erase {α : Type} (c : Cells α) (lo n : Nat) : Cells α :=
  c.filter (fun p => decide (p.1 < lo) || decide (lo + n ≤ p.1))

/-- The values at lo, …, lo + n - 1. -/
def Cells.readRun {α : Type} (d : α) (c : Cells α) (lo n : Nat) : List α :=
  (List.range n).map (fun i => c.read d (lo + i))

/-- The canonical form: indices strictly rise and no entry holds the default. -/
abbrev Cells.wf {α : Type} (d : α) (c : Cells α) : Prop :=
  c.Pairwise (fun p q => p.1 < q.1) ∧ ∀ p ∈ c, p.2 ≠ d

/-- A sorted list of numbers with one more, no repeats. -/
def insertNat (n : Nat) : List Nat → List Nat
  | [] => [n]
  | m :: ms => if n < m then n :: m :: ms else if n = m then m :: ms else m :: insertNat n ms

/-- Bytes, least significant first, as a number (R2). -/
def leNat : List Byte → Nat
  | [] => 0
  | b :: bs => b.toNat + 256 * leNat bs

/-- The low n bytes of a number, least significant first (R2). -/
def leBytes : Nat → Nat → List Byte
  | 0, _ => []
  | n + 1, v => BitVec.ofNat 8 v :: leBytes n (v / 256)

/-- The field of n bytes at byte lo of a structure. -/
def fieldAt (bs : List Byte) (lo n : Nat) : Nat := leNat ((bs.drop lo).take n)

/-- Whether n bytes from lo on are all zero. -/
def zeroAt (bs : List Byte) (lo n : Nat) : Bool := ((bs.drop lo).take n).all (· == 0)

end Sys2Proof.Machine
end

