-- ==== Sys2Proof/Machine/State.lean ====
section
/-!
DEFINITION. The state of one ZV7-M28 device as plain data, and its value after power-on. Each field's docstring names
the rule of spec/ that gives it; the model's own fields say so.
-/

namespace Sys2Proof.Machine

/-! ### Reasons a step can stop -/

/-- Why the machine stops with a fault. The specification leaves no behaviour without an outcome (R7) and every trap
of R312 is a next state; nothing of the machine stops it. -/
inductive Fault where
  /-- Raised by nothing in this model; the host interface asks for a type. Safe. -/
  | none
  deriving DecidableEq, Repr, Inhabited

/-- Why a step has no meaning. -/
inductive Refusal where
  /-- Raised by an arm of exec that has no meaning yet. Safe. -/
  | notModelled (mnemonic : String)
  /-- Raised by step for a schedule entry whose event is an instruction with a word (R123): such an instruction runs
  only when a sequencer fetches it. Safe: no agent of the device can make such a move. -/
  | notAnEvent
  deriving DecidableEq, Repr, Inhabited

/-! ### Trap causes -/

/-- The trap causes (R312). -/
inductive Cause where
  | illegalInstr | reservedField | priv | misaligned | pageNotPresent | pagePerm | noncanon | bufRange
  | engineDenied | accBusy | depPoison | queueSpillFault | genBound | genSlot | hypFull | hypDead | hypAtomic
  | semOverflow | streamFormat | eccUncorr | linkDown | worldViolation | spawnFull | brk | soft
  deriving DecidableEq, Repr, Inhabited

/-- The code of a cause in TCAUSE (R312). -/
def Cause.code : Cause → BitVec 8
  | .illegalInstr => 0x01 | .reservedField => 0x02 | .priv => 0x03 | .misaligned => 0x04 | .pageNotPresent => 0x05
  | .pagePerm => 0x06 | .noncanon => 0x07 | .bufRange => 0x08 | .engineDenied => 0x09 | .accBusy => 0x0A
  | .depPoison => 0x0B | .queueSpillFault => 0x0C | .genBound => 0x0D | .genSlot => 0x0E | .hypFull => 0x0F
  | .hypDead => 0x10 | .hypAtomic => 0x11 | .semOverflow => 0x12 | .streamFormat => 0x13 | .eccUncorr => 0x14
  | .linkDown => 0x15 | .worldViolation => 0x16 | .spawnFull => 0x17 | .brk => 0x18 | .soft => 0x19

/-- A translated address with what its leaf permits (R62). -/
structure Leaf where
  pa     : Nat
  r      : Bool
  w      : Bool
  x      : Bool
  mside  : Bool
  filter : Bool
  enc    : Nat
  /-- The leaf's FAB bit. -/
  fab    : Bool
  /-- Another device, when the frame lies there (R62, R63). -/
  dev    : Option Nat
  /-- The leaf is a 512 MiB one (R62). -/
  big    : Bool := false
  deriving DecidableEq, Repr, Inhabited

/-! ### Commands, loops, tokens -/

/-- A command (R18): its fields as DISP captured them. -/
structure Cmd where
  args  : Vector DWord 4 := Vector.replicate 4 0
  count : DWord := 0
  frag  : BitVec 8 := 0
  hyp   : HypId := 0
  tag   : BitVec 16 := 0
  deriving DecidableEq, Repr, Inhabited

/-- An entry of a loop stack: first word, last word, remaining count (R139, R150). -/
structure LoopEnt where
  first : Nat
  last  : Nat
  count : Nat
  deriving DecidableEq, Repr, Inhabited

/-- Who is held while a push waits for space in its FIFO (R26). -/
inductive PushKind where
  /-- A push made when a word retires: holds the sequencer. -/
  | retire
  /-- A push at the completion of an LDS or STS step: holds the sequencer. -/
  | step
  /-- A push at the completion of a matrix word: holds the matrix engine. -/
  | matrix
  deriving DecidableEq, Repr, Inhabited

/-- A push owed by a sequencer, in program order (R26). -/
structure PushEnt where
  /-- Toward the next engine (SN) or the previous one (SP). -/
  toNext : Bool
  kind   : PushKind
  /-- The operation or matrix word that owes it; 0 for a word that has retired. -/
  op     : Nat
  /-- The command it belongs to (the model's own numbering). -/
  serial : Nat
  /-- Whether it may be made. -/
  ready  : Bool
  poison : Bool
  /-- Accesses of the sequencer, by number, that are under way elsewhere: they are performed before it is made (R256,
  R261). -/
  after  : List Nat := []
  deriving DecidableEq, Repr, Inhabited

/-- The command an engine runs (R23). -/
structure Run where
  cmd    : Cmd
  iter   : Nat
  /-- The model's own number of the command, counted per engine. -/
  serial : Nat
  deriving DecidableEq, Repr, Inhabited

/-- The contents of a LOADED generator slot (R234). -/
structure GenSlot where
  name   : List Byte
  bound  : Nat
  params : Nat
  words  : List Word
  p      : Vector Word 4
  deriving DecidableEq, Repr, Inhabited

/-- A change of a generator slot that has passed its checks (R238, R240). -/
inductive SlotChange where
  | load (g : GenSlot)
  | free
  /-- The first of four parameter registers. -/
  | param (a : BitVec 5)
  deriving DecidableEq, Repr, Inhabited

/-- What a sequencer waits for. A waiting sequencer does nothing until the event that ends its wait. -/
inductive Wait where
  | none
  /-- A word whose FIFOs do not all hold a token (R26). -/
  | tokens
  /-- SEMWAIT on semaphore n until its value is at least t (R27). -/
  | sem (n : BitVec 4) (t : DWord)
  /-- SEMWAIT whose semaphore has reached its target: it retires by its own step (R27). -/
  | semMet
  /-- WAITEV on the event at a virtual address (R156). -/
  | event (va t : DWord)
  /-- WAITEV whose event has met its target: it retires by its own step (R156). -/
  | eventMet
  /-- WFE since a clock (R162). -/
  | wfe (since : Nat)
  /-- A DISP or DISPX waiting for room in an engine's queue (R19). It has not issued: its fields are read when it does. -/
  | disp (e : Engine)
  /-- QDRAIN, phase 3 of QCANCEL, EXIT (R153, R37, R17). -/
  | qdrain | qcancel | exit
  /-- GLOAD, GFREE or GPARAM on a slot (R236). -/
  | slot (n : BitVec 4) (c : SlotChange)
  /-- An access performed elsewhere whose answer is outstanding: Termite, another core (R155, R259). -/
  | message
  /-- A V = 0 fault offered to the shadow control context (R146). -/
  | shadow
  /-- SEMADD, FRAGSEL, TUSE, HISTRD waiting for earlier work (R170, R177, R212, R214, R229). -/
  | deferred
  /-- Wait-full or clear-on-read on granules that are EMPTY (R46). -/
  | fullEmpty
  /-- The 16-word or eight-batch limit (R225, R230), or a slot about to change (R236). -/
  | matrixLimit
  /-- MSETTLE (R231). -/
  | msettle (n : Nat)
  /-- MDEC on a full media queue (R184). -/
  | mdecQueue
  /-- A copy step whose ranges overlap those of a step in flight (R166). -/
  | overlap
  /-- A K4 store that has read the bytes of which it keeps a nibble, and has not yet written (R260). -/
  | nibble
  deriving DecidableEq, Repr, Inhabited

/-- The control state of an engine sequencer (R18 to R26, R37, R39). -/
structure EngCtl where
  /-- On-chip queue entries, at most 32, oldest first (R19). -/
  queue     : List Cmd := []
  /-- Spill-ring entries, oldest first, each with its ring index (R19); the command as DISP wrote it. -/
  ring      : List (Nat × Cmd) := []
  /-- Ring index of the next entry to be written (R19). -/
  ringTail  : Nat := 0
  /-- Running command (R23). -/
  cur       : Option Run := none
  /-- Word index. -/
  pc        : Nat := 0
  loops     : List LoopEnt := []
  wait      : Wait := .none
  /-- Token bits of the word that last took its tokens (R26). -/
  tok       : Tok := { }
  /-- The running command is marked by QCANCEL (R37). -/
  marked    : Bool := false
  /-- QSTAT's abandoned bit (R39). -/
  abandoned : Bool := false
  /-- QSTAT's poison bit (R39). -/
  poison    : Bool := false
  /-- Stopped at a faulting word whose fault has not been taken (R24). -/
  halted    : Bool := false
  /-- Pops no command while INH = 1, because its fault is being handled (R160). -/
  stopped   : Bool := false
  /-- Pushes owed, in program order (R26). -/
  pushq     : List PushEnt := []
  /-- Its accesses under way elsewhere, by number (R261). -/
  away      : List Nat := []
  /-- Model's own: number of the next command, and of the next operation. -/
  serial    : Nat := 1
  nextOp    : Nat := 1
  deriving DecidableEq, Repr, Inhabited

/-! ### Transfer sequencers -/

/-- Kinds of copy steps (R174). -/
inductive CopyKind where
  | copy | gath | scat | zero
  deriving DecidableEq, Repr, Inhabited

/-- A copy step in flight with its captured operands (R166, R174, R180). -/
structure CopyOp where
  kind   : CopyKind
  dst    : DWord
  src    : DWord
  dsp    : Space
  ssp    : Space
  box    : BitVec 1024
  /-- Next unit in box order. -/
  unit   : Nat
  /-- The row under way with its index, which is read once a row (R174). -/
  row    : Option (Nat × Nat) := none
  /-- 16-byte granules of the destination that have been copied ahead of the rest of the next unit (R45, R257). -/
  done   : List Nat := []
  /-- Suspended while the shadow control context serves its fault (R179). -/
  held   : Bool
  /-- Lifetime entry whose last use this step is (R59, R177). -/
  tlt    : Option Nat
  deriving DecidableEq, Repr, Inhabited

/-- An asynchronous step (R166). -/
inductive OpKind where
  | copy (c : CopyOp)
  /-- A collective, by the number of its instance (R183, R292); `srcFree` once SRC_FREE has been raised. -/
  | coll (inst : Nat) (srcFree : Bool)
  /-- A media decode job placed in an engine's queue (R184). -/
  | mdec
  deriving DecidableEq, Repr, Inhabited

/-- An asynchronous step in flight, with what a fault report needs (R160). -/
structure Op where
  id     : Nat
  kind   : OpKind
  hyp    : HypId
  tag    : BitVec 16
  frag   : BitVec 8
  waddr  : Nat
  serial : Nat
  /-- Whether the step signals a token (R179). -/
  sig    : Bool
  deriving DecidableEq, Repr, Inhabited

/-- LDS or STS (R164). -/
structure Xfer where
  eng : EngCtl := { }
  a   : Vector DWord 16 := Vector.replicate 16 0
  bx  : Vector (BitVec 1024) 8 := Vector.replicate 8 0
  /-- Steps in flight, oldest first. -/
  ops : List Op := []
  deriving DecidableEq, Repr, Inhabited

/-! ### CMP -/

/-- The shape register (R189). -/
structure Shape where
  ty   : EType := .f32
  vl   : BitVec 10 := 64
  glog : BitVec 3 := 6
  rm   : RMode := .rne
  sat  : Bool := false
  rows : BitVec 8 := 0
  cols : BitVec 8 := 0
  deriving DecidableEq, Repr, Inhabited

/-- A histogram set (R229). -/
structure HistSet where
  ctr  : Vector Word 32 := Vector.replicate 32 0
  hmin : Word := 0
  deriving DecidableEq, Repr, Inhabited

/-- Matrix words (R223, R227, R228). -/
inductive MKind where
  | mma | mmaz | mmv | mdrain | accz | accld
  deriving DecidableEq, Repr, Inhabited

/-- A byte that a drain has converted and not yet written: its address, its leaf in memory, and the nibbles it sets. -/
structure PendByte where
  a    : Nat
  leaf : Option Leaf
  lo   : Option (BitVec 4)
  hi   : Option (BitVec 4)
  deriving DecidableEq, Repr, Inhabited

/-- A matrix word issued and not completed, with what it captured (R222, R233). -/
structure MWord where
  id     : Nat
  kind   : MKind
  /-- Descriptors of A (source, destination) and B. -/
  da     : BitVec 512
  db     : BitVec 512
  acc    : BitVec 6
  /-- d8: depth - 1 of a step, the fields of a drain. -/
  d8     : BitVec 8
  rm     : RMode
  /-- Generator slots read at issue (R235). -/
  ga     : Option GenSlot
  gb     : Option GenSlot
  batch  : Nat
  /-- Next part: granule of a step (of MMAZ, the clearing of its tile first), element of a drain (R233). -/
  next   : Nat
  /-- Flags of the granules or elements done (R76, R232). -/
  flags  : FFlags
  tag    : BitVec 16
  frag   : BitVec 8
  hyp    : HypId
  waddr  : Nat
  serial : Nat
  /-- The number of the next access as the word issued: accesses of CMP below it stand before the word's own (R226). -/
  sees   : Nat := 0
  /-- The byte that a drain has read in order to keep one of its nibbles, before it writes (R260). -/
  nib    : Option Byte := none
  /-- Bytes of a drain that wait for the rest of what it writes in their 16-byte granules (R45, R257). -/
  pend   : List PendByte := []
  deriving DecidableEq, Repr, Inhabited

/-- A K4 store between its two accesses (R260): what it will write, with the leaf of each run in memory, and what remains
of its word. -/
structure NibStore where
  sp   : Space
  fill : Bool
  runs : List (Nat × Option Leaf × List Byte)
  inc  : Bool
  k    : BitVec 4
  tok  : Tok
  deriving DecidableEq, Repr, Inhabited

/-- CMP (R188, R189, R216, R229, R230). -/
structure Cmp where
  eng    : EngCtl := { }
  k      : Vector DWord 16 := Vector.replicate 16 0
  v      : Vector VReg 32 := Vector.replicate 32 0
  /-- p0 is all ones and never written (R126). -/
  p      : Vector PReg 8 := (Vector.replicate 8 0).set 0 (BitVec.allOnes 256)
  shape  : Shape := { }
  st     : Vector (BitVec 512) 16 := Vector.replicate 16 0
  hist   : Vector HistSet 4 := Vector.replicate 4 { }
  /-- Matrix words issued and not completed, oldest first (R225). -/
  mq     : List MWord := []
  /-- Number of the open batch; sealed batches in flight are those of lower number with a word in mq (R230). -/
  batch  : Nat := 0
  /-- The command a matrix word of which has faulted: what is issued until CTL takes the fault is discarded (R232). -/
  doomed : Option Nat := none
  /-- The K4 store between its two accesses (R260). -/
  nib    : Option NibStore := none
  deriving DecidableEq, Repr, Inhabited

/-- A generator evaluation under way in the OGU (R243). -/
structure GenEval where
  slot  : GenSlot
  ety   : EType
  g     : Vector Word 16
  pc    : Nat
  loops : List LoopEnt
  /-- Words executed so far (R249). -/
  count : Nat
  /-- The element's bits once OUT or OUTI has run; none when GEN_BOUND was raised. -/
  out   : Option (Option Nat)
  deriving DecidableEq, Repr, Inhabited

/-! ### CTL -/

/-- TSTAT (R140). -/
structure TStat where
  eng   : BitVec 2 := 0
  inh   : Bool := false
  waddr : BitVec 15 := 0
  frag  : BitVec 8 := 0
  tag   : BitVec 16 := 0
  hyp   : BitVec 8 := 0
  deriving DecidableEq, Repr, Inhabited

/-- CTL's registers (R139, R140). TASKID, COREID, DEVID, QSTAT's counts and CYCLE are read from where they are kept. -/
structure Ctl where
  s          : Vector DWord 32 := Vector.replicate 32 0
  pc         : Nat := 0
  loops      : List LoopEnt := []
  /-- The loop stack saved on trap entry (R160). -/
  savedLoops : List LoopEnt := []
  wait       : Wait := .none
  hcur       : HypId := 0
  accn       : Word := 0
  jsel       : BitVec 8 := 0
  qtag       : BitVec 16 := 0
  fpstat     : BitVec 10 := 0
  /-- CSTAT.DZ. -/
  dz         : Bool := false
  tcause     : BitVec 8 := 0
  tpc        : BitVec 14 := 0
  tval       : DWord := 0
  tstat      : TStat := { }
  tvecPc     : BitVec 14 := 0
  tvecEn     : Bool := false
  lvl        : Vector Word 8 := Vector.replicate 8 0
  ext        : Vector Word 8 := Vector.replicate 8 1
  /-- Clocks of CYCLE saved by pre-emption, and the device clock at placement (R140). -/
  cycleSaved : Nat := 0
  cycleBase  : Nat := 0
  /-- The device, when it is another, and the physical address of the event last named by WAITEV or SIGEV (R162). -/
  lastEvent  : Option (Option Nat × Nat) := none
  /-- Something WFE waits for has happened since it began (R162). -/
  woken      : Bool := false
  /-- A QCANCEL at this word has done its phases 1 and 2 (R160, R163). -/
  qcancelAt  : Option Nat := none
  /-- The answer of a Termite that has come while the core's clocks were held (R66, R259): the register it is for and its
  value, if it returns one. -/
  answer     : Option (Option (BitVec 5 × DWord)) := none
  deriving DecidableEq, Repr, Inhabited

/-! ### Faults and their service -/

/-- An engine fault on its way to CTL (R24, R160). -/
structure EngFault where
  /-- The engine; none for a link failure, which abandons every engine's command (R314). -/
  eng   : Option Engine
  /-- The command it belongs to. -/
  serial : Nat
  cause : Cause
  tval  : DWord
  waddr : Nat
  frag  : BitVec 8
  tag   : BitVec 16
  hyp   : HypId
  deriving DecidableEq, Repr, Inhabited

/-- Whose V = 0 fault the shadow control context serves (R311). -/
inductive Faulter where
  | ctl
  /-- A word of an engine sequencer. -/
  | word (e : Engine)
  /-- An asynchronous step of LDS or STS (R179). -/
  | step (e : Engine) (op : Nat)
  /-- The matrix word at the head of the queue, under clock hold (R66). -/
  | matrix
  /-- The spill-ring write of a DISP (R19), the spawn spill write (R36), the save-area write (R309). -/
  | ring | spawn | save
  /-- A collective's destination, by the number of its transfer, and an event increment, by its number (R300, R297). -/
  | collDst (id : Nat)
  | collEvent (id : Nat)
  deriving DecidableEq, Repr, Inhabited

/-- A fault offered to the shadow control context. -/
structure ShadowReq where
  who : Faulter
  va  : DWord
  /-- The fault is an ATS not-present response, answered by a PRG response (R65). -/
  ats : Bool
  /-- The clock at which it arrived (R311). -/
  arr : Nat := 0
  deriving DecidableEq, Repr, Inhabited

/-- A mapped window (R49): window w of a core. -/
structure Window where
  core : CoreId
  w   : BitVec 4
  buf : Space
  off : Nat
  va  : Nat
  /-- Physical address of each 64 KiB unit. -/
  pas : List Nat
  deriving DecidableEq, Repr, Inhabited

/-- The fields of a context descriptor that are captured when a launch is admitted and at a restore (R303). -/
structure CtxDesc where
  pasid    : BitVec 20 := 0
  world    : BitVec 4 := 0
  verbase  : DWord := 0
  vsize    : DWord := 0
  pooltab  : DWord := 0
  stagbase : DWord := 0
  stagsize : DWord := 0
  deriving DecidableEq, Repr, Inhabited

/-- The task on a core, as its launch gave it (R16, R302). -/
structure Task where
  slot    : BitVec 8
  taskid  : Word
  /-- Model's own: a number no other task has. -/
  uid     : Nat := 0
  team    : Nat
  ctx     : BitVec 6
  world   : BitVec 4
  jtEmpty : BitVec 8
  /-- Spill area address, 2^RINGLOG and 2^SPQLOG as the record gives them (R302). -/
  spill   : DWord
  ringLog : Nat
  spqLog  : Nat
  prio    : Nat
  bufPres : Bool
  /-- The context descriptor as captured at its launch's admission (R303). -/
  desc    : CtxDesc := { }
  deriving DecidableEq, Repr, Inhabited

/-- An entry of a core's frame table (R326). -/
structure FrameEnt where
  v     : Bool := false
  world : BitVec 4 := 0
  len   : BitVec 32 := 0
  deriving DecidableEq, Repr, Inhabited

/-- A cached translation (R64), with the PASID under which it was asked for (R65). -/
structure TlbEnt where
  ctx   : BitVec 6
  /-- va / 2^16 for a level-0 leaf, va / 2^29 for a level-1 leaf. -/
  page  : Nat
  big   : Bool
  leaf  : DWord
  pasid : BitVec 20
  deriving DecidableEq, Repr, Inhabited

/-- The shadow control context's own registers and program counter, and the CSRs 0x800 to 0xFFF that only it reaches
(R141, R311); unlisted CSRs zero. -/
structure Shadow where
  s    : Vector DWord 32 := Vector.replicate 32 0
  pc   : BitVec 14 := 0
  csrs : Cells DWord := []
  deriving DecidableEq, Repr, Inhabited

/-- One core. -/
structure Core where
  /-- The task it runs (R16). -/
  task    : Option Task := none
  ctl     : Ctl := { }
  lds     : Xfer := { }
  sts     : Xfer := { }
  cmp     : Cmp := { }
  /-- Token FIFOs, oldest first, each token its poison bit (R26). -/
  ltoc    : List Bool := []
  ctol    : List Bool := []
  ctos    : List Bool := []
  stoc    : List Bool := []
  /-- Semaphores (R27). -/
  sems    : Vector Word 16 := Vector.replicate 16 0
  /-- Typed buffers (R41): bytes of the W- and A-buffers, binary64 elements of the C-buffer; unlisted zero. -/
  wbuf    : Cells Byte := []
  abuf    : Cells Byte := []
  cbuf    : Cells DWord := []
  /-- Granules that are EMPTY (R46). -/
  wEmpty  : List Nat := []
  aEmpty  : List Nat := []
  /-- Instruction memories (R123) and jump tables (R22); unlisted zero. -/
  imemCtl : Cells Word := []
  imemLds : Cells Word := []
  imemCmp : Cells Word := []
  imemSts : Cells Word := []
  jtLds   : Cells Word := []
  jtCmp   : Cells Word := []
  jtSts   : Cells Word := []
  /-- Engine faults not yet taken (R160), in order of arrival. -/
  faults  : List EngFault := []
  /-- Clock hold, and the clock at which it began (R66, R67). -/
  hold    : Bool := false
  holdAt  : Nat := 0
  /-- Faults offered to the shadow control context, and the one it serves with the clock it began (R311). -/
  shadowQ : List ShadowReq := []
  serving : Option (ShadowReq × Nat) := none
  /-- The operand generator's evaluation (R243). -/
  ogu     : Option GenEval := none
  /-- Chosen for pre-emption: the task stops at its next points (R309). -/
  victim  : Bool := false
  /-- A save of the task that left this core is with the shadow control context (R309): its launch slot and TASKID. -/
  saving  : Option (BitVec 8 × Word) := none
  /-- The frame table as written, and as the cycle under way took it; the current frame, the clock it began at, and
  whether its seal has begun (R326, R327). -/
  frames  : Vector FrameEnt 16 := Vector.replicate 16 { }
  cycleTab : Vector FrameEnt 16 := Vector.replicate 16 { }
  frame   : Option Nat := none
  frameAt : Nat := 0
  sealed  : Bool := false
  /-- The seal that has begun has left the task on the core: the next frame was then one of the same world (R327). -/
  stays   : Bool := false
  /-- The core's micro-TLB, oldest entry first (R64). -/
  utlb    : List TlbEnt := []
  /-- Granules of 16 bytes of the typed buffers that hold uncorrectable data (R312). -/
  badSram : List (Space × Nat) := []
  shadow  : Shadow := { }
  deriving DecidableEq, Repr, Inhabited

/-! ### Contexts -/

/-- States of a hypothesis id other than FREE (R264). -/
inductive HypState where
  | live | confirmed | refuted
  deriving DecidableEq, Repr, Inhabited

/-- A hypothesis id that is not FREE (R263). -/
structure Hyp where
  id     : HypId
  state  : HypState
  parent : HypId
  set    : BitVec 8
  deriving DecidableEq, Repr, Inhabited

/-- A version of one byte (R273), with the virtual address and the world of the page it was written through. `behind`:
a committed write stands later in the byte's coherence order (R262). -/
structure Ver where
  hyp    : HypId
  pa     : Nat
  va     : Nat
  enc    : Nat
  val    : Byte
  seq    : Nat
  behind : Bool
  deriving DecidableEq, Repr, Inhabited

/-- A Mayfly window (R268): the m1 that names it, and its members in order; a member whose id has since been allocated
anew stands as 0. -/
structure HypWin where
  name    : HypId
  members : List HypId
  deriving DecidableEq, Repr, Inhabited

/-- An allocation record of PALLOC or a deferred PFREE (R279, R280): the id, the virtual range of the page, and the
physical addresses of the MAP byte, its bit, and the OWNER byte. -/
structure PoolRec where
  hyp   : HypId
  va    : Nat
  len   : Nat
  map   : Nat
  bit   : Nat
  owner : Nat
  deriving DecidableEq, Repr, Inhabited

/-- A container resident for a context (R122): its address and the parts that tasks use. -/
structure Container where
  va    : DWord
  entry : Nat
  ctl   : List Word
  lds   : List Word
  cmp   : List Word
  sts   : List Word
  jt    : List Word
  /-- Declared command-queue occupancies (R35). -/
  queues : List Nat
  deriving DecidableEq, Repr, Inhabited

/-- A context (R234, R263, R303): what was captured of its descriptor and what it owns on the device. -/
structure Ctx where
  created  : Bool := false
  /-- Ids that are not FREE. -/
  hyps     : List Hyp := []
  /-- Open windows (R268). -/
  wins     : List HypWin := []
  vers     : List Ver := []
  /-- Pairs of an id and a line whose versions a lifetime range has dropped: their records stay in use until the id is
  confirmed or refuted (R59, R275). -/
  spent    : List (HypId × Nat) := []
  allocs   : List PoolRec := []
  frees    : List PoolRec := []
  slots    : Vector (Option GenSlot) 16 := Vector.replicate 16 none
  resident : List Container := []
  deriving DecidableEq, Repr, Inhabited

/-! ### Memory system -/

/-- States of a lifetime entry other than FREE (R59). -/
inductive TltState where
  | live (uses : Nat)
  | draining
  /-- DEAD, with the lines written since. -/
  | dead (written : List Nat)
  deriving DecidableEq, Repr, Inhabited

/-- A tensor lifetime entry that is not FREE (R59, R158): its number 64 × die + i, its virtual range in a context. -/
structure TltEnt where
  idx   : Nat
  ctx   : BitVec 6
  base  : Nat
  len   : Nat
  state : TltState
  deriving DecidableEq, Repr, Inhabited

/-- A range whose lines were dropped by a lifetime entry that has become FREE with lines not written since: what they
hold is open (log 24); `num` draws the free bytes. -/
structure StaleRange where
  ctx     : BitVec 6
  base    : Nat
  len     : Nat
  written : List Nat
  num     : Nat
  deriving DecidableEq, Repr, Inhabited

/-- Model's own: who makes an access, as far as the order of accesses depends on it (R257, R261). Tasks go by their
`uid`. -/
inductive Agent where
  /-- A unit whose accesses are performed as they are made. -/
  | direct
  /-- A sequencer of a task. -/
  | seq (uid : Nat) (q : Sequencer)
  /-- A step in flight of LDS or STS. -/
  | op (uid : Nat) (sts : Bool) (id : Nat)
  /-- A matrix word. -/
  | mat (uid : Nat) (id : Nat)
  /-- A media decode job. -/
  | job (uid : Nat) (sts : Bool) (id : Nat)
  /-- What a collective's instance writes into its member's destination (R294, R295). -/
  | coll (num : Nat)
  deriving DecidableEq, Repr, Inhabited

/-- The source of an access: the die it starts from, the core whose micro-TLB it uses, its context, world and hypothesis,
the descriptor that its launch captured (R303), and its agent. -/
structure Who where
  die   : Nat
  core  : Option CoreId := none
  ctx   : BitVec 6
  world : BitVec 4
  hyp   : HypId
  desc  : CtxDesc := { }
  agent : Agent := .direct
  /-- Its accesses of homes elsewhere may be performed after it goes on (R261). -/
  late  : Bool := true
  /-- Accesses of CMP numbered below this one stand before those of a matrix word in program order (R226). -/
  sees  : Nat := 0
  deriving DecidableEq, Repr, Inhabited

/-- A byte of a vector load that is under way: one that was read as the load issued, or one at a home elsewhere, by its
address and leaf. -/
inductive LateByte where
  | here (b : Byte)
  | away (va : Nat) (l : Leaf)
  deriving DecidableEq, Repr, Inhabited

/-- What is done when an access that has issued is performed at a home elsewhere (R261). -/
inductive PostKind where
  | write (bytes : List Byte)
  /-- A load of CTL of n bytes into s[d]. -/
  | load (d : BitVec 5) (n : Nat) (signed : Bool)
  /-- A vector load into v: its element type and, for each lane, whether it takes the high nibble, and its bytes. -/
  | vload (v : BitVec 5) (ty : EType) (lanes : List (Nat × Bool × List LateByte))
  deriving DecidableEq, Repr, Inhabited

/-- An access of another device's memory or of PCIe space that has issued and has not been performed (R261). -/
structure Post where
  num  : Nat
  who  : Who
  leaf : Leaf
  va   : Nat
  kind : PostKind
  deriving DecidableEq, Repr, Inhabited

/-- A 16-byte granule that a unit has read ahead of the rest of its read (R45, R257): of a typed buffer by its number, of
memory by its device, when it is another, and its physical address / 16. `tag` names the word of a sequencer that reads. -/
structure Peek where
  agent : Agent
  tag   : List Nat
  sp    : Space
  dev   : Option Nat := none
  g     : Nat
  bytes : List Byte
  deriving DecidableEq, Repr, Inhabited

/-- What a CTL access does at the point where it is performed (R145, R147). -/
inductive MemOp where
  /-- A load of n bytes into s[d]. -/
  | load (d : BitVec 5) (n : Nat) (signed : Bool)
  | store (bytes : List Byte)
  /-- An atomic: operand and, for CAS, the expected value. -/
  | amo (d : BitVec 5) (op : AmoOp) (sz : AmoSize) (val exp : DWord)
  | nswap (d : BitVec 5) (hi : Bool) (val : DWord)
  /-- SIGEV's add to an event (R156). -/
  | event (val : DWord)
  deriving DecidableEq, Repr, Inhabited

/-! ### Media decode and collectives -/

/-- A media decode job (R184): its record, the task and step it belongs to, the source of its accesses, its bitstream once
read, and how many 16-byte granules of its frames it has written. `held`: its fault is with the shadow control context;
`fault`: the one that ended it (R187); `stat`: its frames are done; `fin`: its status record has been written, or could not
be. -/
structure MdecJob where
  record : List Byte
  slot   : BitVec 8
  uid    : Nat
  sts    : Bool
  op     : Nat
  who    : Who
  held   : Bool := false
  bits   : Option (List Byte) := none
  pos    : Nat := 0
  fault  : Option (Cause × Nat) := none
  stat   : Bool := false
  fin    : Bool := false
  deriving DecidableEq, Repr, Inhabited

/-- A media decode engine (R184): queued jobs, at most 16, and the one that runs. -/
structure MediaEngine where
  queue : List MdecJob := []
  job   : Option MdecJob := none
  deriving DecidableEq, Repr, Inhabited

/-- A line of a transfer that is staged for a reduction (R295): the transfer's number, rank, walk index, first
destination address and length; the line's address, the leaf it was translated to and its bytes; and its place, in the
memory-side cache of its stack or at a line of the context's staging region. -/
structure StagedLine where
  arr   : Nat
  rank  : Nat
  walk  : Nat
  base  : Nat
  len   : Nat
  va    : Nat
  leaf  : Leaf
  bytes : List Byte
  slot  : Option Nat
  deriving DecidableEq, Repr, Inhabited

/-- An instance of a collective at a member of this device (R295), from its issue to ALL_DONE and the end of its walk. -/
structure CollInst where
  num     : Nat
  core    : CoreId
  slot    : BitVec 8
  uid     : Nat
  sts     : Bool
  op      : Nat
  who     : Who
  record  : List Byte
  group   : List Word
  /-- Fields of a fault report (R140). -/
  waddr   : Nat
  frag    : BitVec 8
  tag     : BitVec 16
  serial  : Nat
  /-- Next transfer of the walk (R293), and whether its source fault is with the shadow control context. -/
  walk    : Nat := 0
  held    : Bool := false
  /-- Arrivals that belong to it, those counted, the lines staged, and how many destination lines of them have been
  combined (R295). -/
  taken   : Nat := 0
  counted : Nat := 0
  staged  : List StagedLine := []
  merged  : Nat := 0
  /-- A destination fault was unresolvable (R300). -/
  failed  : Bool := false
  localDone : Bool := false
  allDone   : Bool := false
  /-- As the root: members that have reported, and whether it has notified them (R296). -/
  reports  : List Word := []
  notified : Bool := false
  deriving DecidableEq, Repr, Inhabited

/-- A transfer on its way to a member of this device (R293, R295). -/
structure CollArrival where
  id   : Nat
  x    : InColl
  /-- Its destination's fault is with the shadow control context (R300). -/
  held : Bool := false
  /-- The instance it belongs to, how many of its lines Termites have accepted, and how many they have performed. -/
  inst : Option Nat := none
  sent : Nat := 0
  done : Nat := 0
  deriving DecidableEq, Repr, Inhabited

/-- A report on its way to a root of this device, or a notification on its way to a member (R296). -/
structure CollMsg where
  ctx    : BitVec 6
  collid : Word
  tgt    : CoreId
  /-- The reporting member; 0 in a notification. -/
  member : Word
  deriving DecidableEq, Repr, Inhabited

/-- An increment of a kind 2 target whose V = 0 fault is with the shadow control context (R297). -/
structure CollEvent where
  id   : Nat
  va   : DWord
  inst : CollInst
  deriving DecidableEq, Repr, Inhabited

/-- A CTL access that a Termite is to perform (R58, R259, R294), with the task it belongs to. -/
structure MsideCmd where
  core   : CoreId
  slot   : BitVec 8
  uid    : Nat
  who    : Who
  leaf   : Leaf
  va     : DWord
  op     : MemOp
  deriving DecidableEq, Repr, Inhabited

/-- The part of a collective's transfer that lies in one line (R294): the instance it is for, the source under which it is
written, and the line; it is written, or staged. -/
structure CollLine where
  inst  : Nat
  who   : Who
  line  : StagedLine
  stage : Bool
  deriving DecidableEq, Repr, Inhabited

/-- A command in a Termite's queue (R294): a memory-side access of CTL, an access of another device to an MSIDE line
(R298), or a line of a collective's transfer. -/
inductive TermOp where
  | ctl (m : MsideCmd)
  | remote (a : RemoteAcc)
  | line (l : CollLine)
  deriving DecidableEq, Repr, Inhabited

/-- A semaphore operation on its way to another core (R155, R299). -/
inductive FlagMsg where
  /-- RFLAG of the task `uid` from CTL of a core: its launch by slot and age, target device and core, semaphore, signed
  value. -/
  | rflag (src : CoreId) (uid : Nat) (slot : BitVec 8) (age : Nat) (dev : BitVec 9) (tgt : CoreId) (sem : BitVec 4) (val : DWord)
  /-- MFLAG of the task `uid` from CTL of a core: its launch, the targets not yet reached, semaphore, value. -/
  | mflag (src : CoreId) (uid : Nat) (slot : BitVec 8) (age : Nat) (tgts : List CoreId) (sem : BitVec 4) (val : Word)
  deriving DecidableEq, Repr, Inhabited

/-! ### Launches -/

/-- The phases of a launch in its slot (R305, R306, R313). -/
inductive Phase where
  /-- Waiting for its dependences. -/
  | deps
  /-- Ready: its container is to be fetched and checked (R122). -/
  | ready
  /-- Its tasks may be placed. -/
  | loaded
  /-- Refused, with the cause and the TEAMS value of the completion record (R313). -/
  | refused (cause : BitVec 8) (teams : Word)
  deriving DecidableEq, Repr, Inhabited

/-- The unit chosen for a group, and its resolved extent (R29, R308). The path is the group's coordinates at its own
level + 1 and above. -/
structure GroupRes where
  level : Nat
  path  : List Nat
  unit  : Nat
  ext   : Nat
  deriving DecidableEq, Repr, Inhabited

/-- A team that has been offered: its number, its coordinates at levels 2 and above, its extent, the unit that its tasks
go to (none for the package), the next task to be placed, how many tasks this device places, and how many have ended
(R308, R313). -/
structure Team where
  num    : Nat
  coords : List Nat
  ext    : Nat
  unit   : Option (Nat × Nat)
  next   : Nat
  size   : Nat
  ended  : Nat
  /-- It met a link failure: it does not retire (R314). -/
  broken : Bool := false
  deriving DecidableEq, Repr, Inhabited

/-- A task suspended by pre-emption or by a frame's seal (R309, R327): the core as it was saved, the core number it left,
the number of the free bytes of its state megabyte, which restore checks (R310), and its windows. -/
structure Suspended where
  core  : Core
  left  : CoreId
  num   : Nat
  /-- Its save area has been written. -/
  saved : Bool
  /-- Sealed at the end of a frame; restored at the world's next frame on the same core. -/
  sealed : Bool
  wins  : List Window
  deriving DecidableEq, Repr, Inhabited

/-- A launch in one of the 256 slots (R306). -/
structure Launch where
  /-- Source: host queue 0 to 63, or 64 for the spawn pool (R301). -/
  src     : Nat
  record  : List Byte
  /-- Order of entering a slot (R307). -/
  age     : Nat
  ctx     : BitVec 6
  phase   : Phase
  cont    : Option Container := none
  groups  : List GroupRes := []
  /-- Coordinates at levels 2 and above of the next team never offered; none when every team has been. -/
  cursor  : Option (List Nat) := none
  teams   : List Team := []
  susp    : List Suspended := []
  /-- The task most recently placed on each core, by its `uid` (R299). -/
  lastOn  : List (CoreId × Nat) := []
  /-- The tail index of the launch's spawn spill queue (R36). -/
  spqTail : Nat := 0
  /-- Clocks waited so far, and the clock at which the present span began (R307). -/
  waited  : Nat := 0
  since   : Option Nat := none
  eff     : Nat := 0
  exited  : Nat := 0
  traps   : Nat := 0
  orphans : Nat := 0
  /-- Lowest TASKID among TRAPPED tasks with its TCAUSE, TVAL and TSTAT (R313). -/
  first   : Option (Word × BitVec 8 × DWord × DWord) := none
  linkFailed : Bool := false
  /-- Ended tasks some of whose writes were still under way to other homes, by their `uid` (R31, R261). -/
  linger  : List Nat := []
  /-- Numbers of the teams that retired before a link failure, and whether teams were given up (R314). -/
  retired : List Nat := []
  /-- Aged past its PRIO, it reserves the cores of a unit that become free (R307): a BIND code and the unit's number. -/
  resv    : Option (Nat × Nat) := none
  /-- The descriptor as captured at admission (R303). -/
  desc    : CtxDesc := { }
  /-- World launch: the clock at which the frame of its last task closes (R328). -/
  holdUntil : Option Nat := none
  deriving DecidableEq, Repr, Inhabited

/-- A host launch queue (R301). -/
structure LaunchQueue where
  base : DWord := 0
  en   : Bool := false
  logn : BitVec 5 := 4
  ctx  : BitVec 6 := 0
  err  : Bool := false
  tail : BitVec 16 := 0
  head : BitVec 16 := 0
  deriving DecidableEq, Repr, Inhabited

/-- A record in the spawn pool (R36): its context, the launch slot and task that spawned it, and whether it takes one of
the reserved entries. -/
structure PoolEnt where
  record : List Byte
  ctx    : BitVec 6
  slot   : BitVec 8
  taskid : Word
  reserved : Bool := false
  deriving DecidableEq, Repr, Inhabited

/-- A child record in a spawn spill queue (R36): the slot and age of its parent launch, the task that spawned it, and the
source and address by which the Launch Controller reads it. -/
structure SpillEnt where
  slot   : BitVec 8
  age    : Nat
  taskid : Word
  uid    : Nat
  who    : Who
  va     : Nat
  deriving DecidableEq, Repr, Inhabited

/-- An armed Firefly region (R281, R282): its stack, the descriptor as captured, the physical address of each page of
the region, the storing context, and the logit bytes stored since arming. -/
structure FireflyRegion where
  stack  : Nat
  die    : Nat
  ctx    : BitVec 6
  world  : BitVec 4
  cdesc  : CtxDesc := { }
  va     : Nat
  desc   : List Byte
  pas    : List Nat
  seen   : List Nat
  /-- The checks at arming failed: BAD_CONFIG (R282). -/
  bad    : Bool
  deriving DecidableEq, Repr, Inhabited

/-! ### Trust and platform -/

/-- States of a TDI (R319). -/
inductive TdiState where
  | unlocked | locked | run | error
  deriving DecidableEq, Repr, Inhabited

/-- TDISTAT.STATE (R323). -/
def TdiState.code : TdiState → Nat
  | .unlocked => 0
  | .locked => 1
  | .run => 2
  | .error => 3

/-- States of a bounce channel (R329). -/
inductive ChanState where
  | idle | opened | resync
  deriving DecidableEq, Repr, Inhabited

/-- CHCTL.STATE (R329). -/
def ChanState.code : ChanState → Nat
  | .idle => 0
  | .opened => 1
  | .resync => 2

/-- A bounce channel's registers (R329). -/
structure Channel where
  sh    : DWord := 0
  pr    : DWord := 0
  /-- CHCTL[14:0]: EN, DIR, CTX, LOGN, slot size. -/
  ctl   : BitVec 15 := 0x100
  state : ChanState := .idle
  exp   : Word := 0
  door  : BitVec 16 := 0
  deriving DecidableEq, Repr, Inhabited

/-- The selective IDE stream of a TDI (R321): whether IDE_KM has set it up, and which of its two key sets is in use. -/
structure IdeStream where
  up  : Bool := false
  set : Bool := false
  deriving DecidableEq, Repr, Inhabited

/-- The TDI of a world (R318 to R323). -/
structure Tdi where
  state    : TdiState := .unlocked
  errcause : BitVec 3 := 0
  /-- Host launch queues and contexts that the world took at lock. -/
  queues   : DWord := 0
  ctxs     : DWord := 0
  /-- The captured context descriptors, by context number (R320). -/
  descs    : List (Nat × List Byte) := []
  /-- What the lock digest was taken of (R322, log 15). -/
  lockSet  : List Byte := []
  viol     : Word := 0
  ch       : Vector Channel 4 := Vector.replicate 4 { }
  ide      : IdeStream := { }
  deriving DecidableEq, Repr, Inhabited

/-- DEVSTAT.STATE (R337). -/
inductive Boot where
  | boot | ready | fail
  deriving DecidableEq, Repr, Inhabited

/-- Phases of the SPDM responder's one session (R317). -/
inductive Session where
  | closed
  /-- KEY_EXCHANGE has been answered. -/
  | handshake
  /-- FINISH has been answered. -/
  | secured
  deriving DecidableEq, Repr, Inhabited

/-- What the SPDM responder answers (R317); contents of certificates, digests, measurements and signatures are not held
(log 16). -/
inductive SpdmReply where
  | version | capabilities | algorithms | digests
  | certificate (slot : BitVec 8) | challengeAuth (slot : BitVec 8)
  /-- How many blocks there are (block 0), or what each block asked for has measured. -/
  | measurementCount (n : Nat) | measurements (blocks : List (BitVec 8 × BitVec 32))
  | keyExchangeRsp | finishRsp | keyUpdateAck | heartbeatAck | endSessionAck
  | ideKmAck | kSetGoAck
  | unsupportedRequest | invalidRequest
  deriving DecidableEq, Repr, Inhabited

/-- What a TDISP message is answered with (R318, R319). -/
inductive TdispReply where
  | version | capabilities | lockAck | report | state (st : TdiState) | startAck | stopAck
  | unsupportedRequest | invalidInterfaceState
  deriving DecidableEq, Repr, Inhabited

/-- Model's own record of what leaves the device in answer to the outside (log 16). -/
inductive Reply where
  /-- A register read returns this value. -/
  | value (v : DWord)
  /-- Bytes that another device's access returns (R63). -/
  | bytes (bs : List Byte)
  /-- An access from another device is refused with a cause (R63). -/
  | denied (c : Cause)
  /-- A configuration request completes, with retry status, or finds its function absent (R335, R316). -/
  | configDone (fn : BitVec 4) | configRetry (fn : BitVec 4) | configAbsent (fn : BitVec 4)
  | unsupported
  | spdm (r : SpdmReply)
  | tdisp (fn : BitVec 4) (r : TdispReply)
  /-- Answers of the management controller (R338). -/
  | mctp (cmd : BitVec 8) (eid : BitVec 8)
  | pldmDiscovery
  | pldmSensor (sensor : BitVec 8) (v : DWord)
  | pldmUpdate
  /-- An RFLAG of another device has been applied, or is refused with a cause (R299). -/
  | flag (c : Option Cause)
  /-- A debug access is let through, or refused (R331). -/
  | debugDone | debugRefused
  deriving DecidableEq, Repr, Inhabited

/-! ### The device -/

/-- Every present core of a full module, and so on: the Reset column of R13. -/
def capsReset : Vector DWord 8 :=
  #v[0x0000000007280101, 0x000000000C800480, 0xFFFFFFFFFFFFFFFF, 0xFFFFFFFFFFFFFFFF, 0x0000000020202020,
    0x4040404040404040, 0x0000000040404040, 0x0000000FFFFFFFFF]

/-- The whole device. -/
structure State where
  /-- Model's own: the moves to come (log 4). -/
  schedule : List Move := []
  /-- Model's own: counts the moves taken from Config.move. -/
  turn     : Nat := 0
  /-- Model's own: the next free value's number. -/
  freeCtr  : Nat := 0
  /-- Model's own: the number of the next write in the coherence order (R254, R262). -/
  seqNo    : Nat := 0
  /-- Model's own: the core and sequencer whose word is being executed. -/
  actCore  : CoreId := 0
  actSeq   : Sequencer := .ctl
  /-- Clocks of 1.8 GHz since power-on (R10). -/
  clock    : Nat := 0
  cores    : Vector Core 128 := Vector.replicate 128 { }
  /-- CAPID to CAPLINK (R13). -/
  caps     : Vector DWord 8 := capsReset
  devid    : BitVec 9 := 0
  /-- Physical memory: HBM and PCIe space (R40); unlisted bytes read 0 (log 1). -/
  mem      : List Host.Cell := []
  /-- Memories of other devices, by device number (R261, R289), and those now reachable. -/
  remote   : List (Nat × List Host.Cell) := []
  remoteUp : List Nat := []
  /-- Uncorrectable lines, by pa / 128 (R312). -/
  badLines : List Nat := []
  /-- Integrity tags: line, world, key generation (R324). -/
  tags     : List (Nat × Nat × Nat) := []
  /-- Key generation of each world (R319, R324). -/
  keyGen   : Vector Nat 16 := Vector.replicate 16 0
  /-- Pages that the host answers not-present to ATS: PASID, pa / 2^16 (R65). -/
  atsAbsent : List (Nat × Nat) := []
  /-- Cached translations of each die (R64). -/
  tlb      : Vector (List TlbEnt) 4 := Vector.replicate 4 []
  /-- Mapped windows (R49). -/
  windows  : List Window := []
  ctxs     : Vector Ctx 64 := Vector.replicate 64 { }
  ctxbase  : DWord := 0
  tlt      : List TltEnt := []
  stale    : List StaleRange := []
  /-- UCIe links that have failed, by their dies, lower number first; 4 is the IOD (R9, R314). -/
  downLinks : List (Nat × Nat) := []
  /-- Dies between steps 4 and 6 of a warm die reset (R315). -/
  diesOut  : List Nat := []
  /-- Memory-side commands at each stack's Termite, oldest first (R58, R294). -/
  termite  : Vector (List TermOp) 12 := Vector.replicate 12 []
  /-- Accesses of other devices and of PCIe space under way, in the order of issue, and granules read ahead (R257, R261);
  `postNum` and `nextUid` are the model's own numberings. -/
  posted   : List Post := []
  postNum  : Nat := 0
  peeks    : List Peek := []
  nextUid  : Nat := 1
  msgs     : List FlagMsg := []
  /-- The media decode engines (R184). -/
  media    : Vector MediaEngine 4 := Vector.replicate 4 { }
  /-- Collective instances, oldest first; transfers, reports and notifications on their way; increments with the shadow
  control context (R293 to R297). `collNum` is the model's own numbering. -/
  colls    : List CollInst := []
  collData : List CollArrival := []
  collReports : List CollMsg := []
  collNotes   : List CollMsg := []
  collEvents  : List CollEvent := []
  collNum  : Nat := 1
  lq       : Vector LaunchQueue 64 := Vector.replicate 64 { }
  slots    : Vector (Option Launch) 256 := Vector.replicate 256 none
  pool     : List PoolEnt := []
  /-- Records in the spawn spill queues, oldest first (R36). -/
  spillq   : List SpillEnt := []
  /-- Source served last when records are read, and when launches are selected (R301, R307). -/
  recPtr   : Nat := 64
  selPtr   : Nat := 64
  nextAge  : Nat := 0
  ldrop    : DWord := 0
  shlim    : DWord := 0x1B7740
  ctxcmd   : DWord := 0
  ctxarg   : DWord := 0
  copywt   : Vector DWord 8 := Vector.replicate 8 0x1111111111111111
  /-- Stores of 1 to ARM that Firefly has not yet acted on, and the regions armed (R282). -/
  armReqs  : List FireflyRegion := []
  armed    : List FireflyRegion := []
  /-- Rounds published for each region, by the physical address of its first page (R283). -/
  rounds   : List (Nat × Word) := []
  /-- DEVSTAT (R337). -/
  boot     : Boot := .boot
  failcode : BitVec 8 := 0
  pthrot   : Bool := false
  tthrot   : Bool := false
  /-- TLBIADDR, TLBILEN, TLBICMD.CTX and GO (R337). -/
  tlbiAddr : BitVec 56 := 0
  tlbiLen  : DWord := 0
  tlbiCtx  : BitVec 6 := 0
  tlbiGo   : Bool := false
  /-- The thermal trip has removed the compute dies' power (R332). -/
  tripped  : Bool := false
  /-- Nudon ports that have trained (R331, R335). -/
  nudon    : BitVec 16 := 0
  /-- The TDIs of functions 0 to 15; of function 0 only VIOLCNT counts (R318, R323). -/
  tdi      : Vector Tdi 16 := Vector.replicate 16 { }
  /-- Model's own: worlds whose TDI has gone to ERROR in the step under way; their tasks end when the step is over. -/
  falls    : List Nat := []
  /-- The lock digest walker's last walk (R322). -/
  walkAt   : Nat := 0
  /-- Whether an algorithm negotiation has succeeded, and the SPDM session (R317). -/
  spdmOk   : Bool := false
  session  : Session := .closed
  /-- The MCTP endpoint id (R338, log 16). -/
  eid      : BitVec 8 := 0
  /-- The firmware images in use, and those staged by PLDM, by part (R316, R338, log 16). -/
  flash    : Vector FwImage 3 := Vector.replicate 3 { }
  staged   : Vector (Option FwImage) 3 := Vector.replicate 3 none
  /-- Measurement blocks 1 to 5, once measured (R316, R317). -/
  meas     : Vector (Option (BitVec 32)) 5 := Vector.replicate 5 none
  /-- Neither PCIe port trained: only SMBus reaches the module (R335). -/
  noPcie   : Bool := false
  /-- Debug access has been enabled (R331). -/
  debug    : Bool := false
  /-- Model's own record of answers to the outside, oldest first. -/
  sent     : List Reply := []
  deriving DecidableEq, Repr, Inhabited

/-- The machine after power-on, with the values the specification gives and those the log names. -/
def State.reset : State := { }

end Sys2Proof.Machine
end

