-- ==== Sys2Proof/Machine/Basic.lean ====
section
/-!
DEFINITION. Accessors: one home for every register and one way to read and write it.
-/

namespace Sys2Proof.Machine

/-! ### Device -/

/-- Core c. -/
def State.core (s : State) (c : CoreId) : Core := s.cores[c.toNat]'(c.isLt)

/-- Replaces core c. -/
def State.setCore (s : State) (c : CoreId) (k : Core) : State :=
  { s with cores := s.cores.set c.toNat k c.isLt }

/-- Changes core c. -/
def State.onCore (s : State) (c : CoreId) (f : Core → Core) : State := s.setCore c (f (s.core c))

/-- Context x. -/
def State.ctx (s : State) (x : BitVec 6) : Ctx := s.ctxs[x.toNat]'(x.isLt)

/-- Changes context x. -/
def State.onCtx (s : State) (x : BitVec 6) (f : Ctx → Ctx) : State :=
  { s with ctxs := s.ctxs.set x.toNat (f (s.ctx x)) x.isLt }

/-- Launch slot x. -/
def State.slot (s : State) (x : BitVec 8) : Option Launch := s.slots[x.toNat]'(x.isLt)

def State.setSlot (s : State) (x : BitVec 8) (l : Option Launch) : State :=
  { s with slots := s.slots.set x.toNat l x.isLt }

/-- Changes the launch in a slot, if it holds one. -/
def State.onSlot (s : State) (x : BitVec 8) (f : Launch → Launch) : State := s.setSlot x ((s.slot x).map f)

/-- Whether core c is present (R13, R14). -/
def State.present (s : State) (c : CoreId) : Bool :=
  if c.toNat < 64 then (s.caps[2]).getLsbD c.toNat else (s.caps[3]).getLsbD (c.toNat - 64)

/-- All core numbers, ascending. -/
def allCores : List CoreId := (List.range 128).map (BitVec.ofNat 7)

/-- Draws the next free value's number. -/
def State.drawFree (s : State) : Nat × State := (s.freeCtr, { s with freeCtr := s.freeCtr + 1 })

/-- An answer leaves the device. -/
def State.reply (s : State) (r : Reply) : State := { s with sent := s.sent ++ [r] }

/-- The die of a core (R11). -/
def dieOf (c : CoreId) : Nat := c.toNat / 32

/-! ### CTL registers -/

/-- s[r]; s0 reads as zero (R126). -/
def Ctl.reg (k : Ctl) (r : BitVec 5) : DWord := if r = 0 then 0 else k.s[r.toNat]'(r.isLt)

/-- Writes s[r]; a write to s0 is discarded (R126). -/
def Ctl.setReg (k : Ctl) (r : BitVec 5) (v : DWord) : Ctl :=
  if r = 0 then k else { k with s := k.s.set r.toNat v r.isLt }

/-- s[r] of the core whose CTL runs. -/
def State.sreg (s : State) (r : BitVec 5) : DWord := (s.core s.actCore).ctl.reg r

/-- Changes the running CTL. -/
def Core.onCtl (k : Core) (f : Ctl → Ctl) : Core := { k with ctl := f k.ctl }

def State.onCtl (s : State) (f : Ctl → Ctl) : State := s.onCore s.actCore (fun k => k.onCtl f)

/-- Writes s[r] of the core whose CTL runs. -/
def State.setSreg (s : State) (r : BitVec 5) (v : DWord) : State := s.onCtl (fun k => k.setReg r v)

/-! ### Engines -/

/-- The control state of an engine. -/
def Core.eng (k : Core) : Engine → EngCtl
  | .lds => k.lds.eng
  | .cmp => k.cmp.eng
  | .sts => k.sts.eng

/-- Changes an engine's control state. -/
def Core.onEng (k : Core) (e : Engine) (f : EngCtl → EngCtl) : Core :=
  match e with
  | .lds => { k with lds := { k.lds with eng := f k.lds.eng } }
  | .cmp => { k with cmp := { k.cmp with eng := f k.cmp.eng } }
  | .sts => { k with sts := { k.sts with eng := f k.sts.eng } }

/-- LDS, or STS when `sts`. -/
def Core.xfer (k : Core) (sts : Bool) : Xfer := if sts then k.sts else k.lds

def Core.onXfer (k : Core) (sts : Bool) (f : Xfer → Xfer) : Core :=
  if sts then { k with sts := f k.sts } else { k with lds := f k.lds }

/-- Changes CMP. -/
def Core.onCmp (k : Core) (f : Cmp → Cmp) : Core := { k with cmp := f k.cmp }

/-- What a sequencer waits for. -/
def Core.wait (k : Core) : Sequencer → Wait
  | .ctl => k.ctl.wait
  | .lds => k.lds.eng.wait
  | .cmp => k.cmp.eng.wait
  | .sts => k.sts.eng.wait

/-- Sets what a sequencer waits for. -/
def Core.setWait (k : Core) (q : Sequencer) (w : Wait) : Core :=
  match q with
  | .ctl => k.onCtl (fun c => { c with wait := w })
  | .lds => k.onEng .lds (fun g => { g with wait := w })
  | .cmp => k.onEng .cmp (fun g => { g with wait := w })
  | .sts => k.onEng .sts (fun g => { g with wait := w })

/-- The engine whose word runs; CTL counts as LDS here and never asks. -/
def State.actEng (s : State) : Engine :=
  match s.actSeq with
  | .ctl => .lds
  | .lds => .lds
  | .cmp => .cmp
  | .sts => .sts

/-- Whether the transfer sequencer that runs is STS. -/
def State.actSts (s : State) : Bool := s.actSeq == .sts

/-- The running core. -/
def State.here (s : State) : Core := s.core s.actCore

/-- Changes the running core. -/
def State.onHere (s : State) (f : Core → Core) : State := s.onCore s.actCore f

/-- An a register of the running transfer sequencer (R164). -/
def State.areg (s : State) (r : BitVec 4) : DWord := ((s.here).xfer s.actSts).a[r.toNat]'(r.isLt)

def State.setAreg (s : State) (r : BitVec 4) (v : DWord) : State :=
  s.onHere (fun k => k.onXfer s.actSts (fun x => { x with a := x.a.set r.toNat v r.isLt }))

/-- A k register of the running CMP (R188). -/
def State.kreg (s : State) (r : BitVec 4) : DWord := (s.here).cmp.k[r.toNat]'(r.isLt)

def State.setKreg (s : State) (r : BitVec 4) (v : DWord) : State :=
  s.onHere (fun k => k.onCmp (fun x => { x with k := x.k.set r.toNat v r.isLt }))

/-- A vector register (R188). -/
def State.vreg (s : State) (r : BitVec 5) : VReg := (s.here).cmp.v[r.toNat]'(r.isLt)

def State.setVreg (s : State) (r : BitVec 5) (v : VReg) : State :=
  s.onHere (fun k => k.onCmp (fun x => { x with v := x.v.set r.toNat v r.isLt }))

/-- A predicate register; p0 reads all ones and is never written (R126, R188). -/
def State.preg (s : State) (r : BitVec 3) : PReg :=
  if r = 0 then BitVec.allOnes 256 else (s.here).cmp.p[r.toNat]'(r.isLt)

def State.setPreg (s : State) (r : BitVec 3) (v : PReg) : State :=
  if r = 0 then s else s.onHere (fun k => k.onCmp (fun x => { x with p := x.p.set r.toNat v r.isLt }))

/-! ### Typed buffers (R41) -/

/-- Size of a typed buffer in bytes. -/
def bufSize : Space → Nat
  | .glob => 0
  | .abuf => 2 ^ 21
  | .wbuf => 2 ^ 22
  | .cbuf => 2 ^ 21

/-- One byte of a typed buffer; the C-buffer holds binary64 elements, little-endian (R2, R41). -/
def Core.bufByte (k : Core) (b : Space) (off : Nat) : Byte :=
  match b with
  | .glob => 0
  | .abuf => k.abuf.read 0 off
  | .wbuf => k.wbuf.read 0 off
  | .cbuf => BitVec.ofNat 8 ((k.cbuf.read 0 (off / 8)).toNat / 256 ^ (off % 8))

def Core.bufBytes (k : Core) (b : Space) (off n : Nat) : List Byte :=
  (List.range n).map (fun i => k.bufByte b (off + i))

/-- A 64-bit element with its bytes from `lo` on replaced while they last. -/
def patchDword (v : DWord) (lo : Nat) (bs : List Byte) : DWord :=
  BitVec.ofNat 64 (leNat ((List.range 8).map (fun i =>
    if lo ≤ i then (bs[i - lo]?).getD (BitVec.ofNat 8 (v.toNat / 256 ^ i)) else BitVec.ofNat 8 (v.toNat / 256 ^ i))))

/-- Writes bytes of the C-buffer, element by element; `fuel` bounds the elements touched. -/
def cbufPut : Nat → Cells DWord → Nat → List Byte → Cells DWord
  | 0, c, _, _ => c
  | fuel + 1, c, off, bs =>
    if bs.isEmpty then c
    else
      let lo := off % 8
      let c' := c.write 0 (off / 8) (patchDword (c.read 0 (off / 8)) lo (bs.take (8 - lo)))
      cbufPut fuel c' (off + (8 - lo)) (bs.drop (8 - lo))

/-- The uncorrectable granules that a write of n bytes leaves: those that it does not cover whole (R312). -/
def Core.stillBad (k : Core) (b : Space) (off n : Nat) : List (Space × Nat) :=
  k.badSram.filter (fun p => !(p.1 == b && decide (off ≤ 16 * p.2) && decide (16 * p.2 + 16 ≤ off + n)))

/-- Writes bytes of a typed buffer. -/
def Core.putBuf (k : Core) (b : Space) (off : Nat) (bs : List Byte) : Core :=
  match b with
  | .glob => k
  | .abuf => { k with abuf := k.abuf.splice 0 off bs, badSram := k.stillBad .abuf off bs.length }
  | .wbuf => { k with wbuf := k.wbuf.splice 0 off bs, badSram := k.stillBad .wbuf off bs.length }
  | .cbuf => { k with cbuf := cbufPut (bs.length + 1) k.cbuf off bs, badSram := k.stillBad .cbuf off bs.length }

/-- The 16-byte granules that n bytes from off on touch (R46). -/
def granules (off n : Nat) : List Nat :=
  if n = 0 then [] else (List.range ((off + n - 1) / 16 - off / 16 + 1)).map (fun i => off / 16 + i)

/-- The first byte of a range of a buffer that lies in an uncorrectable granule (R312). -/
def Core.badAt (k : Core) (b : Space) (off n : Nat) : Option Nat :=
  if k.badSram.isEmpty then none
  else ((granules off n).find? (fun g => k.badSram.contains (b, g))).map (fun g => max off (16 * g))

/-- The EMPTY granules of a buffer (R46); the C-buffer has none. -/
def Core.empties (k : Core) : Space → List Nat
  | .glob => []
  | .abuf => k.aEmpty
  | .wbuf => k.wEmpty
  | .cbuf => []

def Core.setEmpties (k : Core) (b : Space) (g : List Nat) : Core :=
  match b with
  | .glob => k
  | .abuf => { k with aEmpty := g }
  | .wbuf => { k with wEmpty := g }
  | .cbuf => k

/-- Granules become FULL (R46). -/
def Core.fill (k : Core) (b : Space) (gs : List Nat) : Core :=
  k.setEmpties b ((k.empties b).filter (fun g => !gs.contains g))

/-- Granules become EMPTY (R46). -/
def Core.drain (k : Core) (b : Space) (gs : List Nat) : Core :=
  k.setEmpties b (gs.foldl (fun l g => insertNat g l) (k.empties b))

/-- Whether every granule of a list is FULL. -/
def Core.allFull (k : Core) (b : Space) (gs : List Nat) : Bool := gs.all (fun g => !(k.empties b).contains g)

end Sys2Proof.Machine
end

