-- ==== Sys2Proof/Machine/Mem.lean ====
section
/-!
DEFINITION. Memory: the address map and homes (R40, R54), translation (R61 to R65), the checks of an access (R63,
R146), versions and the coherence order (R262, R273), windows (R49, R50), lifetime ranges (R59), world lines (R324),
and the one way in which bytes are read and written.
-/

namespace Sys2Proof.Machine

/-! ### Physical addresses -/

/-- The first address beyond the stacks (R40). -/
def hbmEnd : Nat := 12 * 2 ^ 36

/-- The stack of an HBM address (R40). -/
def stackOf (pa : Nat) : Nat := pa / 2 ^ 36

/-- PCIe space (R40). -/
def isPcie (pa : Nat) : Bool := decide (2 ^ 51 ≤ pa)

/-- Present pseudo-channels of a stack (R13). -/
def State.channels (s : State) (st : Nat) : Nat :=
  if st < 8 then (s.caps[5]).toNat / 256 ^ st % 256 else (s.caps[6]).toNat / 256 ^ (st - 8) % 256

/-- Whether an address exists: within the present capacity of its stack, or in PCIe space (R40). -/
def State.paExists (s : State) (pa : Nat) : Bool :=
  if pa < hbmEnd then decide (pa % 2 ^ 36 < s.channels (stackOf pa) * 2 ^ 30) else isPcie pa && decide (pa < 2 ^ 52)

/-- The die that owns a line (R54). -/
def homeDie (pa : Nat) : Nat := if pa < hbmEnd then stackOf pa / 3 else 0

/-- Whether two dies can reach each other (R314, R315); 4 is the IOD. -/
def State.linkUp (s : State) (a b : Nat) : Bool :=
  a == b || (!s.downLinks.contains (min a b, max a b) && !s.diesOut.contains a && !s.diesOut.contains b)

/-! ### Accesses and their faults -/

/-- The kinds of access that R63 distinguishes. -/
inductive AccKind where
  | load | store | atomic | fetch
  deriving DecidableEq, Repr, Inhabited

/-- Why an access fails. -/
inductive AccFault where
  | trap (c : Cause)
  /-- V = 0, or an ATS not-present response when `ats` (R65, R66): offered to the shadow control context first. -/
  | shadow (ats : Bool)
  /-- An integrity tag of a world's line does not match (R324). -/
  | tag (world : BitVec 4)
  deriving DecidableEq, Repr, Inhabited

/-! ### Committed bytes -/

/-- A window that serves a physical address (R49), with the offset in its buffer. DESIGN CHOICE (log 57): of two cores'
windows over one frame the one registered first serves. -/
def State.windowAt (s : State) (pa : Nat) : Option (Window × Nat) :=
  s.windows.findSome? (fun w =>
    match w.pas.findIdx? (fun p => p == pa / 2 ^ 16 * 2 ^ 16) with
    | some i => some (w, w.off + i * 2 ^ 16 + pa % 2 ^ 16)
    | none => none)

/-- The committed value of a byte of this device's map (R253). -/
def State.phys (s : State) (pa : Nat) : Byte :=
  match s.windowAt pa with
  | some (w, off) => (s.core w.core).bufByte w.buf off
  | none => Cells.read 0 s.mem pa

def State.physRun (s : State) (pa n : Nat) : List Byte := (List.range n).map (fun i => s.phys (pa + i))

/-- A little-endian field of committed memory. -/
def State.physNat (s : State) (pa n : Nat) : Nat := leNat (s.physRun pa n)

/-- Every version of a byte in a range now has a committed write after it (R262). -/
def Ctx.markBehind (c : Ctx) (pa n : Nat) : Ctx :=
  if c.vers.isEmpty then c
  else { c with vers := c.vers.map (fun v => if pa ≤ v.pa && decide (v.pa < pa + n) then { v with behind := true } else v) }

/-- A committed write of contiguous bytes: to the window that serves them, else to memory; one place in the coherence
order (R49, R253, R254, R262). The bytes lie in one 64 KiB page. -/
def State.commit (s : State) (pa : Nat) (bs : List Byte) : State :=
  let s := { s with seqNo := s.seqNo + 1, ctxs := s.ctxs.map (fun (c : Ctx) => c.markBehind pa bs.length) }
  match s.windowAt pa with
  | some (w, off) => s.onCore w.core (fun k => k.putBuf w.buf off bs)
  | none => { s with mem := Cells.splice 0 s.mem pa bs }

/-! ### Translation -/

/-- The physical address of context x's descriptor (R303). -/
def State.descPa (s : State) (x : BitVec 6) : Nat := (s.ctxbase.toNat + 128 * x.toNat) % 2 ^ 52

/-- The TDI that holds a context, from its lock to its STOP (R319, R320). -/
def State.holderOf (s : State) (x : BitVec 6) : Option Tdi :=
  s.tdi.toList.find? (fun t => t.state != .unlocked && t.ctxs.getLsbD x.toNat)

/-- The 128 bytes of a context's descriptor: the copy captured at lock while a TDI holds the context (R320), else memory
as it stands (R303). -/
def State.descBytes (s : State) (x : BitVec 6) : List Byte :=
  match s.holderOf x with
  | some t =>
    match t.descs.find? (fun d => d.1 == x.toNat) with
    | some d => d.2
    | none => s.physRun (s.descPa x) 128
  | none => s.physRun (s.descPa x) 128

/-- The ROOT field of a context's descriptor as it now stands (R64, R303). -/
def State.rootField (s : State) (x : BitVec 6) : Nat := fieldAt (s.descBytes x) 0 8

/-- The level-2 table of a context, as its descriptor now gives it (R61, R303). -/
def State.rootOf (s : State) (x : BitVec 6) : Nat := s.rootField x / 2 ^ 17 % 2 ^ 35 * 2 ^ 17

/-- A nonzero bit of ROOT outside V and the table's address, which R303 calls zero. -/
def State.rootBad (s : State) (x : BitVec 6) : Bool := s.rootField x / 2 % 2 ^ 16 != 0 || s.rootField x / 2 ^ 52 != 0

/-- Reserved bits of every entry (R62). -/
def pteReserved (e : Nat) : Bool := e / 2 ^ 12 % 16 != 0 || e / 2 ^ 61 != 0

/-- Table or frame address of an entry (R62). -/
def ptePa (e : Nat) : Nat := e / 2 ^ 16 % 2 ^ 36 * 2 ^ 16

/-- A leaf's own malformations (R62). -/
def leafMalformed (e : Nat) : Bool :=
  let fab := e.testBit 5
  (!fab && e / 2 ^ 52 % 2 ^ 9 != 0) || (e.testBit 7 && (e.testBit 4 || fab))

/-- One entry of a table, as the walker of a die reads it: a home that cannot be reached faults LINK_DOWN (R314, R315).
DESIGN CHOICE (log 58): a table outside the memory that exists reads as zero. -/
def State.pte (s : State) (die pa : Nat) : Except AccFault Nat :=
  if s.linkUp die (homeDie pa) then .ok (s.physNat pa 8) else .error (.trap .linkDown)

/-- What a walk has found: the entry at which it ends, whether that is a 512 MiB leaf, and whether an entry on the way is
malformed (R62). -/
structure Walked where
  entry : Nat
  big   : Bool
  bad   : Bool
  deriving DecidableEq, Repr, Inhabited

/-- A walk that goes on from an entry which is malformed or not: V = 0 further down comes before that (R146 checks 4 and
5), and a table that cannot be reached after it (check 9). -/
def Walked.from (bad : Bool) (r : Except AccFault Walked) : Except AccFault Walked :=
  match r with
  | .ok w => .ok { w with bad := bad || w.bad }
  | .error (.trap c) => .error (.trap (if bad then .pagePerm else c))
  | .error (.shadow a) => .error (.shadow a)
  | .error (.tag w) => .error (.tag w)

/-- The leaf of level 0. -/
def State.walk0 (s : State) (die va e1 : Nat) : Except AccFault Walked :=
  match s.pte die (ptePa e1 + 8 * (va / 2 ^ 16 % 2 ^ 13)) with
  | .error f => .error f
  | .ok e0 =>
    if !e0.testBit 0 then .error (.shadow false)
    else .ok { entry := e0, big := false, bad := pteReserved e0 || leafMalformed e0 }

/-- The entry of level 1: a 512 MiB leaf, or a table. -/
def State.walk1 (s : State) (die va e2 : Nat) : Except AccFault Walked :=
  match s.pte die (ptePa e2 + 8 * (va / 2 ^ 29 % 2 ^ 13)) with
  | .error f => .error f
  | .ok e1 =>
    if !e1.testBit 0 then .error (.shadow false)
    else if e1.testBit 6 then
      .ok { entry := e1, big := true, bad := pteReserved e1 || leafMalformed e1 || ptePa e1 % 2 ^ 29 != 0 }
    else Walked.from (pteReserved e1) (s.walk0 die va e1)

/-- The entry of level 2: a table; at a leaf, which is malformed there, the walk ends. -/
def State.walk2 (s : State) (die va root : Nat) : Except AccFault Walked :=
  match s.pte die (root + 8 * (va / 2 ^ 42 % 2 ^ 14)) with
  | .error f => .error f
  | .ok e2 =>
    if !e2.testBit 0 then .error (.shadow false)
    else if e2.testBit 6 then .ok { entry := e2, big := true, bad := true }
    else Walked.from (pteReserved e2) (s.walk1 die va e2)

/-- The walk of three levels from a die (R61, R62). DESIGN CHOICE (log 66): a ROOT that has changed in memory since a launch
was admitted (R64, R303) is heeded whole: V = 0 is that of an entry, and a nonzero bit beside V and the address makes it
malformed. -/
def State.walk (s : State) (die : Nat) (x : BitVec 6) (va : Nat) : Except AccFault Walked :=
  if !(s.rootField x).testBit 0 then .error (.shadow false)
  else Walked.from (s.rootBad x) (s.walk2 die va (s.rootOf x))

/-- The frame device of an entry, when it is another device (R62, R63). -/
def State.leafDev (s : State) (e : Nat) : Option Nat :=
  if e.testBit 5 && e / 2 ^ 52 % 2 ^ 9 != s.devid.toNat then some (e / 2 ^ 52 % 2 ^ 9) else none

/-- A leaf entry at an address. -/
def State.leafOf (s : State) (e : Nat) (big : Bool) (va : Nat) : Leaf :=
  let sz := if big then 29 else 16
  { pa := ptePa e / 2 ^ sz * 2 ^ sz + va % 2 ^ sz, r := e.testBit 1, w := e.testBit 2, x := e.testBit 3,
    mside := e.testBit 4, filter := e.testBit 7, enc := e / 2 ^ 8 % 16,
    fab := e.testBit 5, dev := s.leafDev e, big := big }

/-- Whether an entry is one of a context for an address. -/
def TlbEnt.hits (t : TlbEnt) (x : BitVec 6) (va : Nat) : Bool :=
  t.ctx == x && t.page == (if t.big then va / 2 ^ 29 else va / 2 ^ 16)

/-- A cached translation of a core's micro-TLB (R64). -/
def State.utlbHit (s : State) (w : Who) (va : Nat) : Option TlbEnt :=
  match w.core with
  | some c => (s.core c).utlb.find? (fun t => t.hits w.ctx va)
  | none => none

/-- A cached translation of a die's TLB (R64). -/
def State.dieHit (s : State) (w : Who) (va : Nat) : Option TlbEnt :=
  ((s.tlb[w.die]?).getD []).find? (fun t => t.hits w.ctx va)

/-- A cached translation: the micro-TLB of the core stands before the TLB of its die (R64). -/
def State.tlbHit (s : State) (w : Who) (va : Nat) : Option TlbEnt := (s.utlbHit w va).orElse (fun _ => s.dieHit w va)

/-- Whether the host answers not-present for a PCIe frame (R65). -/
def State.atsMiss (s : State) (w : Who) (l : Leaf) : Bool :=
  l.dev.isNone && isPcie l.pa && s.atsAbsent.contains (w.desc.pasid.toNat, l.pa / 2 ^ 16)

/-- Translation: the cached entry, else the walk with the ATS request of R65, and then the checks of its entries and the
frame (R40, R62, R146). -/
def State.translate (s : State) (w : Who) (va : Nat) : Except AccFault Leaf :=
  if 2 ^ 56 ≤ va then .error (.trap .noncanon)
  else
    match s.tlbHit w va with
    | some t => .ok (s.leafOf t.leaf.toNat t.big va)
    | none =>
      match s.walk w.die w.ctx va with
      | .error f => .error f
      | .ok r =>
        let l := s.leafOf r.entry r.big va
        if s.atsMiss w l then .error (.shadow true)
        else if r.bad || (l.dev.isNone && !s.paExists l.pa) then .error (.trap .pagePerm)
        else .ok l

/-- Entries a die's TLB and a core's micro-TLB hold (R64). -/
def tlbCapacity : Nat := 16384

def utlbCapacity : Nat := 256

/-- An entry joins a cache; when it is full the oldest goes (log 8). -/
def cacheEnt (cap : Nat) (old : List TlbEnt) (t : TlbEnt) : List TlbEnt :=
  (if old.length < cap then old else old.drop 1) ++ [t]

/-- An entry joins the micro-TLB of the core that asked. -/
def State.fillUtlb (s : State) (w : Who) (t : TlbEnt) : State :=
  match w.core with
  | some c => s.onCore c (fun k => { k with utlb := cacheEnt utlbCapacity k.utlb t })
  | none => s

/-- A successful walk fills the die's TLB and the core's micro-TLB, and a hit in the die's TLB the micro-TLB (R64). -/
def State.fillTlb (s : State) (w : Who) (va : Nat) : State :=
  match s.utlbHit w va, s.dieHit w va, s.translate w va, s.walk w.die w.ctx va with
  | none, some t, _, _ => s.fillUtlb w t
  | none, none, .ok _, .ok r =>
    let t : TlbEnt := { ctx := w.ctx, page := if r.big then va / 2 ^ 29 else va / 2 ^ 16, big := r.big,
                        leaf := BitVec.ofNat 64 r.entry, pasid := w.desc.pasid }
    let s := s.fillUtlb w t
    if h : w.die < 4 then { s with tlb := s.tlb.set w.die (cacheEnt tlbCapacity s.tlb[w.die] t) h } else s
  | _, _, _, _ => s

/-- Cached translations are dropped from the TLB of every die and the micro-TLB of every core (R64). -/
def State.forget (s : State) (gone : TlbEnt → Bool) : State :=
  { s with
    tlb := s.tlb.map (fun (l : List TlbEnt) => l.filter (fun t => !gone t))
    cores := s.cores.map (fun (k : Core) => if k.utlb.isEmpty then k else { k with utlb := k.utlb.filter (fun t => !gone t) }) }

/-! ### Leaf checks -/

/-- R63, in table order. -/
def leafCheck (who : Who) (k : AccKind) (l : Leaf) : Except AccFault Unit :=
  if l.enc != who.world.toNat && l.enc != 0 then .error (.trap .worldViolation)
  else
    let ok :=
      match k with
      | .load => l.r
      | .store => l.w
      | .atomic => l.r && l.w
      | .fetch => l.x && l.r
    if ok then .ok () else .error (.trap .pagePerm)

/-- The state of a hypothesis id (R264); FREE ids are not listed. -/
def Ctx.hyp (c : Ctx) (h : HypId) : Option Hyp := c.hyps.find? (fun y => y.id == h)

/-- Whether an id is LIVE (R264). -/
def Ctx.isLive (c : Ctx) (h : HypId) : Bool :=
  match c.hyp h with
  | some y => y.state == .live
  | none => false

/-- Whether an id is REFUTED (R264). -/
def Ctx.isRefuted (c : Ctx) (h : HypId) : Bool :=
  match c.hyp h with
  | some y => y.state == .refuted
  | none => false

/-- Whether writes carrying this id create versions: a LIVE id other than 0 (R264, R273). -/
def State.versioned (s : State) (who : Who) : Bool := who.hyp != 0 && (s.ctx who.ctx).isLive who.hyp

/-- Whether an access carries a hypothesis: a CONFIRMED id acts as id 0 (R264). -/
def State.carries (s : State) (who : Who) : Bool :=
  who.hyp != 0 && ((s.ctx who.ctx).isLive who.hyp || (s.ctx who.ctx).isRefuted who.hyp)

/-- Capacity in records (R275). -/
def Who.recordCap (w : Who) : Nat := w.desc.vsize.toNat / 256

/-- The lines that n bytes from pa on touch. -/
def linesOf (pa n : Nat) : List Nat :=
  if n = 0 then [] else (List.range ((pa + n - 1) / 128 - pa / 128 + 1)).map (fun i => pa / 128 + i)

/-- The lines of a write through a leaf that make versions: none in a FILTER page or on another device (R274). -/
def Leaf.versionLines (l : Leaf) (n : Nat) : List Nat := if l.filter || l.dev.isSome then [] else linesOf l.pa n

/-- The bytes that a memory-side access of CTL stores. -/
def MemOp.stored : MemOp → Nat
  | .store bs => bs.length
  | .load _ _ _ => 0
  | .amo _ _ _ _ _ => 0
  | .nswap _ _ _ => 0
  | .event _ => 0

/-- The writes of context x's ids that have passed their checks and wait for a Termite. -/
def TermOp.owes (x : BitVec 6) : TermOp → List (HypId × Nat)
  | .ctl m => if m.who.ctx == x then (m.leaf.versionLines m.op.stored).map (fun ln => (m.who.hyp, ln)) else []
  | .remote _ => []
  | .line _ => []

/-- The writes of a core's task that have passed their checks and are still to be made: those of a K4 store between its
two accesses, and what drains have converted (R45, R260). -/
def Core.owes (k : Core) (x : BitVec 6) : List (HypId × Nat) :=
  if (k.task.map (·.ctx)) != some x then []
  else
    (match k.cmp.nib, k.cmp.eng.cur with
      | some n, some u => n.runs.flatMap (fun r => match r.2.1 with
        | some l => (l.versionLines r.2.2.length).map (fun ln => (u.cmd.hyp, ln))
        | none => [])
      | _, _ => []) ++
      k.cmp.mq.flatMap (fun m => m.pend.flatMap (fun p => match p.leaf with
        | some l => (l.versionLines 1).map (fun ln => (m.hyp, ln))
        | none => []))

/-- The records that pairs of a LIVE id and a line take (R275): versions that stand, lines whose versions a lifetime range
has dropped, and writes that have passed their checks. -/
def State.lineRecords (s : State) (x : BitVec 6) : List (HypId × Nat) :=
  let c := s.ctx x
  let owed := s.cores.toList.flatMap (fun k => k.owes x) ++
    s.slots.toList.flatMap (fun l => match l with
      | some l => l.susp.flatMap (fun u => u.core.owes x)
      | none => []) ++
    s.termite.toList.flatMap (fun q => q.flatMap (TermOp.owes x))
  (c.vers.map (fun (v : Ver) => (v.hyp, v.pa / 128)) ++ c.spent ++
    owed.filter (fun (p : HypId × Nat) => p.1 != 0 && c.isLive p.1)).dedup

/-- Version records in use (R275): pairs of a line and a hypothesis, allocation records, deferred frees. -/
def State.recordsUsed (s : State) (x : BitVec 6) : Nat :=
  (s.lineRecords x).length + (s.ctx x).allocs.length + (s.ctx x).frees.length

/-- Lines of a write that need a new record under h (R275). -/
def State.newLines (s : State) (x : BitVec 6) (h : HypId) (lines : List Nat) : Nat :=
  let have_ := s.lineRecords x
  (lines.filter (fun l => !have_.contains (h, l))).length

/-- Whether a versioned write of n bytes at pa fits the shadow version region (R275). -/
def State.versionRoom (s : State) (who : Who) (pa n : Nat) : Bool :=
  decide (s.recordsUsed who.ctx + s.newLines who.ctx who.hyp (linesOf pa n) ≤ who.recordCap)

/-- The ids whose versions a read carrying h sees, nearest first (R273). -/
def Ctx.path (c : Ctx) : Nat → HypId → List HypId
  | 0, _ => []
  | fuel + 1, h =>
    if h = 0 then []
    else
      match c.hyp h with
      | some y => if y.state == .live then h :: c.path fuel y.parent else []
      | none => []

/-- The version of a byte that a read carrying h selects (R273). -/
def Ctx.version (c : Ctx) (h : HypId) (pa : Nat) : Option Byte :=
  if c.vers.isEmpty then none
  else
    (c.path 256 h).findSome? (fun i => (c.vers.find? (fun v => v.hyp == i && v.pa == pa)).map (·.val))

/-- Whether every byte of a line that an access touches is read from a version (R273). -/
def State.lineVersioned (s : State) (who : Who) (pa n ln : Nat) : Bool :=
  who.hyp != 0 && !(s.ctx who.ctx).vers.isEmpty &&
    (List.range 128).all (fun i =>
      decide (128 * ln + i < pa) || decide (pa + n ≤ 128 * ln + i) || ((s.ctx who.ctx).version who.hyp (128 * ln + i)).isSome)

/-- Whether every byte of an access to a world's page finds its line tagged with the world's key (R324); a write of
a whole line needs no tag, and bytes read from a version need none. -/
def State.tagsOk (s : State) (who : Who) (l : Leaf) (k : AccKind) (n : Nat) : Bool :=
  if l.enc = 0 || l.dev.isSome then true
  else
    (linesOf l.pa n).all (fun ln =>
      s.lineVersioned who l.pa n ln ||
      (k == .store && decide (l.pa ≤ 128 * ln) && decide (128 * ln + 128 ≤ l.pa + n)) ||
      s.tags.contains (ln, l.enc, (s.keyGen[l.enc]?).getD 0))

/-- Whether n bytes at pa touch an uncorrectable line that the access reads (R312); a write of a whole line reads
nothing of it, and a write into PCIe space is posted (R182). -/
def State.badData (s : State) (l : Leaf) (k : AccKind) (n : Nat) : Bool :=
  l.dev.isNone && !s.badLines.isEmpty &&
  (linesOf l.pa n).any (fun ln =>
    s.badLines.contains ln &&
    !(k == .store && (isPcie l.pa || (decide (l.pa ≤ 128 * ln) && decide (128 * ln + 128 ≤ l.pa + n)))))

/-- Whether a Nudon port that has trained is reached from a die (R9, R331). -/
def State.nudonUp (s : State) (die : Nat) : Bool :=
  (List.range 16).any (fun p => s.nudon.getLsbD p && s.linkUp die (p / 4))

/-- Whether another device is reached from a die (R289, R331). -/
def State.devReached (s : State) (die dev : Nat) : Bool := s.remoteUp.contains dev && s.nudonUp die

/-- Whether the home of a leaf is reachable from a die (R54, R289, R314, R315). -/
def State.homeReached (s : State) (die : Nat) (l : Leaf) : Bool :=
  match l.dev with
  | some d => s.devReached die d
  | none => s.linkUp die (homeDie l.pa) && (!isPcie l.pa || s.linkUp (homeDie l.pa) 4)

/-- Whether a frame of another device exists by that device's own map (R40, R63). -/
def remoteExists (dev pa : Nat) : Bool :=
  if pa < hbmEnd then decide (pa % 2 ^ 36 < (64 - (Config.remoteOff dev (stackOf pa)).val) * 2 ^ 30)
  else isPcie pa && decide (pa < 2 ^ 52)

/-- A leaf on another device whose frame does not exist there (R63). -/
def Leaf.remoteBad (l : Leaf) : Bool :=
  match l.dev with
  | some d => !remoteExists d l.pa
  | none => false

/-- Whether an access passes from its die through the home of a window's line to the core that serves it (R49, R314). -/
def State.windowReached (s : State) (die pa : Nat) (w : Window) : Bool :=
  s.linkUp die (homeDie pa) && s.linkUp (homeDie pa) (dieOf w.core)

/-- The checks of an access of n bytes within one page, orders 3 to 9 of R146; a write under a hypothesis into a window
faults ENGINE_DENIED (R50). -/
def State.access (s : State) (who : Who) (k : AccKind) (va n : Nat) : Except AccFault Leaf :=
  match s.translate who va with
  | .error f => .error f
  | .ok l =>
    match leafCheck who k l with
    | .error f => .error f
    | .ok _ =>
      let isStore := k == .store
      let win := if l.dev.isSome then none else s.windowAt l.pa
      let onC := match win with
        | some (w, _) => w.buf == .cbuf
        | none => false
      -- R274: a write under a hypothesis to a FAB leaf or a PCIe frame; R50: a store to a C-buffer window
      if isStore && s.carries who && (l.fab || isPcie l.pa) then .error (.trap .pagePerm)
      else if isStore && onC then .error (.trap .pagePerm)
      else if l.remoteBad then .error (.trap .pagePerm)
      else if isStore && win.isSome && s.carries who then .error (.trap .engineDenied)
      else if k == .atomic && win.isSome then .error (.trap .engineDenied)
      else if k == .atomic && (l.filter || isPcie l.pa) then .error (.trap .pagePerm)
      else if isStore && s.versioned who && !l.filter && !s.versionRoom who l.pa n then .error (.trap .hypFull)
      else if let some (w, off) := win then
        if !s.windowReached who.die l.pa w then .error (.trap .linkDown)
        else if !isStore && ((s.core w.core).badAt w.buf off n).isSome then .error (.trap .eccUncorr)
        else .ok l
      else if !s.homeReached who.die l then .error (.trap .linkDown)
      else if s.badData l k n then .error (.trap .eccUncorr)
      else if !s.tagsOk who l k n then .error (.tag (BitVec.ofNat 4 l.enc))
      else .ok l

/-! ### Bytes -/

/-- A byte of another device's memory (R261). -/
def State.remoteByte (s : State) (dev pa : Nat) : Byte :=
  match s.remote.find? (fun p => p.1 == dev) with
  | some p => Cells.read 0 p.2 pa
  | none => 0

/-- The ciphertext byte at pa of a tagged line, seen through a plaintext page (R324, log 22). -/
def State.cipherByte (s : State) (ln w g pa : Nat) : Byte := Config.cipher w g ln (s.physRun (128 * ln) 128) (pa % 128)

/-- A byte of this device's map through a leaf of world `enc`: a line tagged for a world reads as ciphertext through a
page of world 0 (R324). -/
def State.deviceByte (s : State) (enc pa : Nat) : Byte :=
  if s.tags.isEmpty || enc != 0 || (s.windowAt pa).isSome then s.phys pa
  else
    match s.tags.find? (fun t => t.1 == pa / 128) with
    | some (ln, w, g) => s.cipherByte ln w g pa
    | none => s.phys pa

/-- What a DEAD lifetime entry makes a byte read as (R59), through the addresses of its own context. DESIGN CHOICE (log
24): through any other address, the host and other devices included, the bytes stand as they were. -/
def State.deadByte (s : State) (x : BitVec 6) (va : Nat) : Option Byte :=
  s.tlt.findSome? (fun t =>
    if t.ctx == x && decide (t.base ≤ va) && decide (va < t.base + t.len) then
      match t.state with
      | .dead written => if written.contains (va / 128) then none else some 0
      | .live _ => none
      | .draining => none
    else none)

/-- Whether a lifetime entry that is DEAD, or a dropped range, decides what a byte reads as (R59, log 24). -/
def State.lifetimeByte (s : State) (x : BitVec 6) (va : Nat) : Option Byte :=
  match s.deadByte x va with
  | some b => some b
  | none =>
    s.stale.findSome? (fun t =>
      if t.ctx == x && decide (t.base ≤ va) && decide (va < t.base + t.len) && !t.written.contains (va / 128) then
        some (Config.freeByte t.num va)
      else none)

/-- One byte through a leaf (R49, R59, R273): a window, a version, what the lifetime table makes of it, or memory. -/
def State.readByte (s : State) (who : Who) (l : Leaf) (va pa : Nat) : Byte :=
  match l.dev with
  | some d => (s.lifetimeByte who.ctx va).getD (s.remoteByte d pa)
  | none =>
    if (s.windowAt pa).isSome then s.phys pa
    else
      match (if who.hyp = 0 then none else (s.ctx who.ctx).version who.hyp pa) with
      | some b => b
      | none =>
        match s.lifetimeByte who.ctx va with
        | some b => b
        | none => s.deviceByte l.enc pa

/-- n bytes through a leaf, from va on (R253). -/
def State.readLeaf (s : State) (who : Who) (l : Leaf) (va n : Nat) : List Byte :=
  (List.range n).map (fun i => s.readByte who l (va + i) (l.pa + i))

/-- A version of one byte replaces the earlier one of its hypothesis (R273). -/
def Ctx.putVer (c : Ctx) (v : Ver) : Ctx :=
  { c with vers := c.vers.filter (fun u => !(u.hyp == v.hyp && u.pa == v.pa)) ++ [v] }

/-- Versions of contiguous bytes (R273). -/
def Ctx.putVers (c : Ctx) (h : HypId) (enc seq : Nat) : Nat → Nat → List Byte → Ctx
  | _, _, [] => c
  | va, pa, b :: bs =>
    (c.putVer { hyp := h, pa := pa, va := va, enc := enc, val := b, seq := seq, behind := false }).putVers h enc seq
      (va + 1) (pa + 1) bs

/-- Whether a step in flight is the last use of an entry. -/
def Xfer.lastUseOf (x : Xfer) (n : Nat) : Bool :=
  x.ops.any (fun o => match o.kind with
    | .copy c => c.tlt == some n
    | .coll _ _ => false
    | .mdec => false)

/-- Whether the accesses of an entry's last use are still to retire (R59), suspended tasks included. -/
def State.stillUsed (s : State) (n : Nat) : Bool :=
  s.cores.any (fun k => k.lds.lastUseOf n || k.sts.lastUseOf n) ||
    s.slots.any (fun l => match l with
      | some l => l.susp.any (fun u => u.core.lds.lastUseOf n || u.core.sts.lastUseOf n)
      | none => false)

/-- The versions of a context's range are dropped (R59); their records stay in use until their ids are confirmed or refuted
(R275). -/
def Ctx.dropRange (c : Ctx) (base len : Nat) : Ctx :=
  let gone (v : Ver) : Bool := decide (base ≤ v.va) && decide (v.va < base + len)
  { c with vers := c.vers.filter (fun v => !gone v)
           spent := (c.spent ++ (c.vers.filter gone).map (fun (v : Ver) => (v.hyp, v.pa / 128))).dedup }

/-- The lines of a draining entry's range are dropped, of every version, and the entry is DEAD (R59). -/
def State.drainEntry (s : State) (t : TltEnt) : State :=
  { s.onCtx t.ctx (fun c => c.dropRange t.base t.len) with
    tlt := s.tlt.map (fun e => if e.idx == t.idx then { e with state := .dead [] } else e) }

/-- A store ordered after the last use of a range has retired finds it DEAD (R60). -/
def State.drainFor (s : State) (x : BitVec 6) (va n : Nat) : State :=
  (s.tlt.filter (fun t => t.ctx == x && t.state == .draining && decide (t.base < va + n) && decide (va < t.base + t.len) &&
    !s.stillUsed t.idx)).foldl (fun r t => r.drainEntry t) s

/-- Writes to another device's memory (R261). -/
def State.putRemote (s : State) (dev pa : Nat) (bs : List Byte) : State :=
  let old := match s.remote.find? (fun p => p.1 == dev) with
    | some p => p.2
    | none => []
  { s with remote := s.remote.filter (fun p => p.1 != dev) ++ [(dev, Cells.splice 0 old pa bs)] }

/-- Bytes put into memory, this device's or another's, as no write of their own: they have no place in the coherence order
(R262). -/
def State.spliceAt (s : State) (dev : Option Nat) (pa : Nat) (bs : List Byte) : State :=
  match dev with
  | some d => s.putRemote d pa bs
  | none => { s with mem := Cells.splice 0 s.mem pa bs }

/-- The lines of a lifetime range that a write at va touches count as written (R59): a DEAD line holds the written
bytes and zero elsewhere. The rest of the line is no write of its own. DESIGN CHOICE (log 24): only a write through the
range's own addresses in its own context does so; one through another address or context, of the host or of another
device, leaves the line DEAD. -/
def State.reviveLines (s : State) (x : BitVec 6) (va n : Nat) (dev : Option Nat) (pa : Nat) : State :=
  let touched := linesOf va n
  let isDead (ln : Nat) : Bool := (s.lifetimeByte x (128 * ln)).isSome
  let dead := touched.filter isDead
  if dead.isEmpty then s
  else
    let s' := dead.foldl (fun t ln =>
      let old := (List.range 128).map (fun i => (s.lifetimeByte x (128 * ln + i)).getD 0)
      t.spliceAt dev (pa + 128 * ln - va) old) s
    let add (b len : Nat) (wr : List Nat) : List Nat :=
      dead.foldl (fun l ln => if b ≤ 128 * ln && decide (128 * ln < b + len) then insertNat ln l else l) wr
    { s' with
      tlt := s'.tlt.map (fun t =>
        match t.state with
        | .dead wr => if t.ctx == x then { t with state := .dead (add t.base t.len wr) } else t
        | .live _ => t
        | .draining => t)
      stale := s'.stale.map (fun t => if t.ctx == x then { t with written := add t.base t.len t.written } else t) }

/-- A DEAD entry all of whose lines have been written becomes FREE (R59). -/
def State.freeWrittenTlt (s : State) : State :=
  { s with tlt := s.tlt.filter (fun t =>
      match t.state with
      | .dead wr => decide (wr.length < t.len / 128)
      | .live _ => true
      | .draining => true) }

/-- Lines written through a world's page take its tag; lines written through a plaintext page lose theirs, and the
rest of such a line becomes its ciphertext (R324), which is no write of its own (R262). -/
def State.retag (s : State) (enc pa n : Nat) : State :=
  if enc = 0 then
    if s.tags.isEmpty then s
    else
      let hit := s.tags.filter (fun t => (linesOf pa n).contains t.1)
      let s' := hit.foldl (fun t u =>
        t.spliceAt none (128 * u.1) ((List.range 128).map (fun i => s.cipherByte u.1 u.2.1 u.2.2 i))) s
      { s' with tags := s'.tags.filter (fun t => !(linesOf pa n).contains t.1) }
  else
    let g := (s.keyGen[enc]?).getD 0
    let lines := linesOf pa n
    { s with tags := s.tags.filter (fun t => !lines.contains t.1) ++ lines.map (fun ln => (ln, enc, g)) }

/-- A write of a whole line repairs it (R312). -/
def State.repair (s : State) (pa n : Nat) : State :=
  { s with badLines := s.badLines.filter (fun ln => !(decide (pa ≤ 128 * ln) && decide (128 * ln + 128 ≤ pa + n))) }

/-! ### Firefly's view of stores (R281, R282) -/

/-- The logit bytes of an armed region that a store touches are noted (R282). -/
def FireflyRegion.note (f : FireflyRegion) (pa n : Nat) : FireflyRegion :=
  match f.pas.findIdx? (fun p => p == pa / 2 ^ 16 * 2 ^ 16) with
  | some i =>
    let off := i * 2 ^ 16 + pa % 2 ^ 16
    { f with seen := (List.range n).foldl (fun l j => if 128 ≤ off + j then insertNat (off + j) l else l) f.seen }
  | none => f

/-- The leaf at an address when it is a FILTER leaf. -/
def State.filterLeaf (s : State) (who : Who) (va : Nat) : Option Leaf :=
  match s.translate who va with
  | .ok l => if l.filter then some l else none
  | .error _ => none

/-- A region as a store of 1 to ARM captures it: descriptor and frames, translated in the storing context (R282). -/
def State.captureRegion (s : State) (who : Who) (va : Nat) (l : Leaf) : FireflyRegion :=
  let desc := (List.range 128).map (fun i => s.readByte who l (va + i) (l.pa + i))
  let b := if fieldAt desc 4 1 = 0 then 4 else 2
  let need := (128 + fieldAt desc 0 4 * b + 2 ^ 16 - 1) / 2 ^ 16
  let pages := (List.range (min need 256)).map (fun i => s.filterLeaf who (va + i * 2 ^ 16))
  let pas := pages.map (fun p => match p with | some l => l.pa / 2 ^ 16 * 2 ^ 16 | none => 0)
  let oneStack := pages.all (fun p => match p with
    | some q => q.dev.isNone && decide (q.pa < hbmEnd) && stackOf q.pa == stackOf l.pa
    | none => false)
  { stack := stackOf l.pa, die := who.die, ctx := who.ctx, world := who.world, cdesc := who.desc, va := va, desc := desc, pas := pas,
    seen := [], bad := !(oneStack && decide (need ≤ 256)) }

/-- What a store into a FILTER page delivers to Firefly (R281, R282): logit bytes to an armed region, and a store of 1
to ARM at the start of a run of FILTER pages. -/
def State.fireflyStore (s : State) (who : Who) (l : Leaf) (va : Nat) (bs : List Byte) : State :=
  if !l.filter then s
  else
    let s := { s with
      armed := s.armed.map (fun f => f.note l.pa bs.length), armReqs := s.armReqs.map (fun f => f.note l.pa bs.length) }
    let base := va / 2 ^ 16 * 2 ^ 16
    let first := base = 0 || (s.filterLeaf who (base - 2 ^ 16)).isNone
    let arms := decide (va ≤ base + 7) && decide (base + 7 < va + bs.length) && (bs[base + 7 - va]?) == some 1
    if first && arms then
      let f := s.captureRegion who base { l with pa := l.pa / 2 ^ 16 * 2 ^ 16 }
      { s with armed := s.armed.filter (fun g => g.pas.head? != f.pas.head?),
               armReqs := s.armReqs.filter (fun g => g.pas.head? != f.pas.head?) ++ [f] }
    else s

/-! ### Writes -/

/-- Whether an agent's accesses of memory are ordinary ones (R253): those of CTL and CMP, and of units that are no engine. -/
def Agent.ordinary : Agent → Bool
  | .direct => true
  | .seq _ .ctl => true
  | .seq _ .cmp => true
  | .seq _ .lds => false
  | .seq _ .sts => false
  | .op _ _ _ => false
  | .mat _ _ => false
  | .job _ _ _ => false
  | .coll _ => false

/-- Whether a granule read ahead is one of memory that a vector load has read. -/
def Peek.ofLoad (p : Peek) : Bool := p.agent.ordinary && p.sp == .glob

/-- What vector loads have read ahead of memory is forgotten at any point of the single order of R253. Only writes of
engines may therefore stand between what one load reads of its granules, and none that happens before the load (R256,
R257, R258, R262). -/
def State.dropAhead (s : State) : State := if s.peeks.isEmpty then s else { s with peeks := s.peeks.filter (fun p => !p.ofLoad) }

/-- An access of an agent is performed: an ordinary one is a point of R253's order. -/
def State.dropSeen (s : State) (a : Agent) : State := if a.ordinary then s.dropAhead else s

/-- A write at the home of its bytes (R253, R262, R273): a version under a LIVE id, committed otherwise. Writes to FILTER
pages are never versioned. DESIGN CHOICE (log 67): a version makes no line of a DEAD lifetime range live again; the line
counts as written when the version is committed. -/
def State.performLeaf (s : State) (who : Who) (l : Leaf) (va : Nat) (bs : List Byte) : State :=
  match l.dev with
  | some d =>
    let s := s.drainFor who.ctx va bs.length
    ((s.reviveLines who.ctx va bs.length (some d) l.pa).putRemote d l.pa bs).freeWrittenTlt
  | none =>
    let s := s.dropSeen who.agent
    if (s.windowAt l.pa).isSome then s.commit l.pa bs
    else if s.versioned who && !l.filter then
      let s := s.drainFor who.ctx va bs.length
      { s.onCtx who.ctx (fun c => c.putVers who.hyp l.enc s.seqNo va l.pa bs) with seqNo := s.seqNo + 1 }
    else
      let s := s.drainFor who.ctx va bs.length
      let s := s.reviveLines who.ctx va bs.length none l.pa
      let s := s.retag l.enc l.pa bs.length
      let s := (s.commit l.pa bs).repair l.pa bs.length
      (s.fireflyStore who l va bs).freeWrittenTlt

/-- Whether a leaf's bytes have their home elsewhere: on another device, or in PCIe space (R261). -/
def State.away (s : State) (l : Leaf) : Bool := l.dev.isSome || (isPcie l.pa && (s.windowAt l.pa).isNone)

/-- Whether an access of a source is performed at its home at a later point (R261). -/
def State.postsTo (s : State) (who : Who) (l : Leaf) : Bool := who.agent != .direct && who.late && s.away l

/-- An engine's sequencer notes an access of its own that has gone to a home elsewhere. -/
def Core.noteAway (k : Core) (q : Sequencer) (n : Nat) : Core :=
  match q with
  | .ctl => k
  | .lds => k.onEng .lds (fun g => { g with away := g.away ++ [n] })
  | .cmp => k.onEng .cmp (fun g => { g with away := g.away ++ [n] })
  | .sts => k.onEng .sts (fun g => { g with away := g.away ++ [n] })

/-- The sequencer that makes an access, with its core. -/
def Who.sequencer (w : Who) : Option (CoreId × Sequencer) :=
  match w.agent, w.core with
  | .seq _ q, some c => some (c, q)
  | _, _ => none

/-- An access issues, to be performed later (R261); that its hypothesis lets it is settled (R274). -/
def State.post (s : State) (who : Who) (l : Leaf) (va : Nat) (k : PostKind) : State :=
  let t := { s with posted := s.posted ++ [{ num := s.postNum, who := { who with hyp := 0 }, leaf := l, va := va, kind := k }],
                    postNum := s.postNum + 1 }
  match who.sequencer with
  | some (c, q) => t.onCore c (fun r => r.noteAway q s.postNum)
  | none => t

/-- The effect of one write of contiguous bytes within a page, its checks passed (R253, R261, R276): discarded under a
REFUTED id, on its way to a home elsewhere, or performed. -/
def State.writeLeaf (s : State) (who : Who) (l : Leaf) (va : Nat) (bs : List Byte) : State :=
  if bs.isEmpty then s
  else if who.hyp != 0 && (s.ctx who.ctx).isRefuted who.hyp && !l.filter then s
  else if s.postsTo who l then s.post who l va (.write bs)
  else s.performLeaf who l va bs

/-- A plaintext write at the home of its bytes, of no task of this device: of the host, another device or the firmware
(R49, R63, R324). -/
def State.homeStore (s : State) (pa : Nat) (bs : List Byte) : State :=
  let s := s.dropAhead
  if (s.windowAt pa).isSome then s.commit pa bs
  else ((s.retag 0 pa bs.length).commit pa bs).repair pa bs.length

/-! ### Accesses performed elsewhere (R261) -/

/-- The byte that a byte of a load under way is at another home. -/
def LateByte.touched : LateByte → List (Option Nat × Nat × Nat)
  | .here _ => []
  | .away _ l => [(l.dev, l.pa, 1)]

/-- The bytes that an access under way touches: device, address and number. -/
def Post.touches (p : Post) : List (Option Nat × Nat × Nat) :=
  match p.kind with
  | .write bs => [(p.leaf.dev, p.leaf.pa, bs.length)]
  | .load _ n _ => [(p.leaf.dev, p.leaf.pa, n)]
  | .vload _ _ ls => ls.flatMap (fun x => x.2.2.flatMap LateByte.touched)

/-- Whether two sets of bytes meet. -/
def meetAny (a b : List (Option Nat × Nat × Nat)) : Bool :=
  a.any (fun x => b.any (fun y => x.1 == y.1 && decide (x.2.1 < y.2.1 + y.2.2) && decide (y.2.1 < x.2.1 + x.2.2)))

/-- Whether an access writes into PCIe space. -/
def Post.pcieWrite (p : Post) : Bool :=
  match p.kind with
  | .write _ => p.leaf.dev.isNone
  | .load _ _ _ => false
  | .vload _ _ _ => false

/-- Whether an access is one of PCIe space. -/
def Post.pcie (p : Post) : Bool := p.touches.any (fun t => t.1.isNone)

/-- Whether an access under way stands before those of a source in program order: one of the same agent, or of CMP before
the matrix word (R226). -/
def Post.leads (q : Post) (who : Who) : Bool :=
  q.who.agent == who.agent ||
    (match who.agent with
     | .mat u _ => q.who.agent == .seq u .cmp && decide (q.num < who.sees)
     | _ => false)

/-- Whether p may not be performed before the earlier access q: one before it in program order that meets its bytes (R254,
R256), or a write into PCIe space before another access of it (R261). -/
def Post.behind (p q : Post) : Bool := q.leads p.who && (meetAny p.touches q.touches || (q.pcieWrite && p.pcie))

/-- Whether nothing that must come first is still under way. -/
def State.mayPerform (s : State) (p : Post) : Bool := (s.posted.takeWhile (fun q => q.num != p.num)).all (fun q => !p.behind q)

/-- Whether an agent is one of a task. -/
def Agent.ofTask (a : Agent) (uid : Nat) : Bool :=
  match a with
  | .direct => false
  | .seq u _ => u == uid
  | .op u _ _ => u == uid
  | .mat u _ => u == uid
  | .job u _ _ => u == uid
  | .coll _ => false

/-- Whether a task has no access under way elsewhere. -/
def State.taskQuiet (s : State) (uid : Nat) : Bool := s.posted.all (fun p => !p.who.agent.ofTask uid)

/-- Whether a source has no access under way elsewhere. -/
def State.quiet (s : State) (a : Agent) : Bool := s.posted.all (fun p => p.who.agent != a)

/-! ### Accesses that may cross pages -/

/-- A run of addresses cut at 64 KiB boundaries. -/
def pieces : Nat → Nat → Nat → List (Nat × Nat)
  | 0, _, _ => []
  | fuel + 1, va, n =>
    if n = 0 then []
    else
      let k := min n (2 ^ 16 - va % 2 ^ 16)
      (va, k) :: pieces fuel (va + k) (n - k)

/-- The pieces of an access of n bytes. -/
def pagesOf (va n : Nat) : List (Nat × Nat) := pieces (n / 2 ^ 16 + 2) va n

/-- The lowest address at which an access within a page fails as it does: the first line up to which it fails so. -/
def State.faultAddr (s : State) (who : Who) (k : AccKind) (va n : Nat) (f : AccFault) : Nat :=
  let fails (ln : Nat) : Bool :=
    match s.access who k va (min n (128 * ln + 128 - va)) with
    | .error g => g == f
    | .ok _ => false
  match (linesOf va n).find? fails with
  | some ln => max va (128 * ln)
  | none => va

/-- The first failing piece of an access, with its address; else every piece's leaf. -/
def State.accessAll (s : State) (who : Who) (k : AccKind) : List (Nat × Nat) → Except (AccFault × Nat) (List (Nat × Nat × Leaf))
  | [] => .ok []
  | (va, n) :: ps =>
    match s.access who k va n with
    | .error f => .error (f, s.faultAddr who k va n f)
    | .ok l =>
      match s.accessAll who k ps with
      | .error f => .error f
      | .ok ls => .ok ((va, n, l) :: ls)

/-- Fills the TLB for the pages of an access (R64). -/
def State.fillAll (s : State) (who : Who) (ps : List (Nat × Nat)) : State := ps.foldl (fun t p => t.fillTlb who p.1) s

/-- A byte that a unit has read ahead (R45, R257): of a buffer by its offset, of memory by its device and physical
address. -/
def State.peekByte (s : State) (a : Agent) (tag : List Nat) (sp : Space) (dev : Option Nat) (addr : Nat) : Option Byte :=
  (s.peeks.find? (fun p => p.agent == a && p.tag == tag && p.sp == sp && p.dev == dev && p.g == addr / 16)).bind
    (fun p => p.bytes[addr % 16]?)

/-- The word of an engine that runs, as what it reads ahead names it: its command, iteration, word and loops. -/
def EngCtl.tag (g : EngCtl) : List Nat :=
  (match g.cur with | some r => [r.serial, r.iter] | none => []) ++ g.pc :: g.loops.map (fun l => l.count)

/-- The tag of what a source reads ahead. -/
def State.peekTag (s : State) (who : Who) : List Nat :=
  match who.sequencer with
  | some (_, .ctl) => []
  | some (c, .lds) => ((s.core c).eng .lds).tag
  | some (c, .cmp) => ((s.core c).eng .cmp).tag
  | some (c, .sts) => ((s.core c).eng .sts).tag
  | none => []

/-- What a write of the source's own, on its way to a byte elsewhere, will make of it (R254, R261): the latest one. -/
def State.ownByte (s : State) (who : Who) (dev : Option Nat) (pa : Nat) : Option Byte :=
  s.posted.foldl (fun (b : Option Byte) (p : Post) =>
    match p.kind with
    | .write bs =>
      if p.leads who && p.leaf.dev == dev && decide (p.leaf.pa ≤ pa) then
        (match bs[pa - p.leaf.pa]? with | some v => some v | none => b)
      else b
    | .load _ _ _ => b
    | .vload _ _ _ => b) none

/-- A byte through a leaf as a unit's read returns it: its own write to a home elsewhere before what stands there (R254). -/
def State.readOwn (s : State) (who : Who) (l : Leaf) (va pa : Nat) : Byte :=
  ((if s.postsTo who l then s.ownByte who l.dev pa else none)).getD (s.readByte who l va pa)

/-- n bytes through a leaf as a unit's read returns them: each granule as it has read it, ahead or now (R45, R257), and
its own writes elsewhere before what stands there (R254). -/
def State.readSeen (s : State) (who : Who) (l : Leaf) (va n : Nat) : List Byte :=
  if s.peeks.isEmpty && s.posted.isEmpty then s.readLeaf who l va n
  else
    (List.range n).map (fun i =>
      (s.peekByte who.agent (s.peekTag who) .glob l.dev (l.pa + i)).getD (s.readOwn who l (va + i) (l.pa + i)))

/-- n bytes of a typed buffer as a unit's read returns them: each granule as it has read it, ahead or now (R45, R257). -/
def State.bufSeen (s : State) (k : Core) (who : Who) (b : Space) (off n : Nat) : List Byte :=
  if s.peeks.isEmpty then k.bufBytes b off n
  else (List.range n).map (fun i => (s.peekByte who.agent (s.peekTag who) b none (off + i)).getD (k.bufByte b (off + i)))

/-- A checked read: the bytes and the state with the TLB filled, or the first fault and its address. -/
def State.load (s : State) (who : Who) (k : AccKind) (va n : Nat) : Except (AccFault × Nat) (List Byte × State) :=
  match s.accessAll who k (pagesOf va n) with
  | .error f => .error f
  | .ok ls => .ok (ls.flatMap (fun p => s.readSeen who p.2.2 p.1 p.2.1), (s.fillAll who (pagesOf va n)).dropSeen who.agent)

/-- Writes bytes over the pieces of a checked access. -/
def State.writeAll (s : State) (who : Who) : List (Nat × Nat × Leaf) → List Byte → State
  | [], _ => s
  | (va, n, l) :: ps, bs => (s.writeLeaf who l va (bs.take n)).writeAll who ps (bs.drop n)

/-- The lines of a checked write with the addresses at which it first touches them, those of FILTER pages and other
devices left out. -/
def writtenLines (ls : List (Nat × Nat × Leaf)) : List (Nat × Nat) :=
  ls.flatMap (fun (p : Nat × Nat × Leaf) =>
    if p.2.2.filter || p.2.2.dev.isSome then []
    else (linesOf p.2.2.pa p.2.1).map (fun ln => (ln, p.1 + (128 * ln - p.2.2.pa))))

/-- The first address of a versioned write at which no record is left (R275), counting over its lines; `seen` are lines
that have a record. -/
def overflowAt : Nat → List Nat → List (Nat × Nat) → Option Nat
  | _, _, [] => none
  | left, seen, (ln, va) :: ls =>
    if seen.contains ln then overflowAt left seen ls
    else if left = 0 then some va
    else overflowAt (left - 1) (ln :: seen) ls

/-- Whether a checked write as a whole runs out of records, and where. -/
def State.overflows (s : State) (who : Who) (ls : List (Nat × Nat × Leaf)) : Option Nat :=
  if s.versioned who then
    overflowAt (who.recordCap - s.recordsUsed who.ctx)
      (((s.lineRecords who.ctx).filter (fun p => p.1 == who.hyp)).map (·.2)) (writtenLines ls)
  else none

/-- A checked write: nothing is written unless every piece passes. -/
def State.store (s : State) (who : Who) (va : Nat) (bs : List Byte) : Except (AccFault × Nat) State :=
  match s.accessAll who .store (pagesOf va bs.length) with
  | .error f => .error f
  | .ok ls =>
    match s.overflows who ls with
    | some a => .error (.trap .hypFull, a)
    | none => .ok ((s.fillAll who (pagesOf va bs.length)).writeAll who ls bs)

/-- What an engine writes through a window into a W- or A-buffer makes its granules FULL (R46, R174). -/
def State.fillWindows (s : State) (ls : List (Nat × Nat × Leaf)) : State :=
  if s.windows.isEmpty then s
  else
    ls.foldl (fun (t : State) (p : Nat × Nat × Leaf) =>
      match p.2.2.dev, t.windowAt p.2.2.pa with
      | none, some (w, off) => t.onCore w.core (fun k => k.fill w.buf (granules off p.2.1))
      | _, _ => t) s

/-- A checked write of a copy or a drain. -/
def State.engineStore (s : State) (who : Who) (va : Nat) (bs : List Byte) : Except (AccFault × Nat) State :=
  match s.store who va bs with
  | .error f => .error f
  | .ok t =>
    match s.accessAll who .store (pagesOf va bs.length) with
    | .ok ls => .ok (t.fillWindows ls)
    | .error f => .error f

/-! ### The deciding fault of several accesses -/

/-- The order of R146's checks. -/
def AccFault.rank : AccFault → Nat
  | .trap .noncanon => 3
  | .shadow _ => 4
  | .trap .pagePerm => 5
  | .trap .worldViolation => 5
  | .trap .engineDenied => 6
  | .trap .hypFull => 8
  | .trap _ => 9
  | .tag _ => 9

/-- A fault with its address and place in the order: rank, then the group of its access, then the address. -/
abbrev Ranked := Nat × Nat × Nat × AccFault

/-- Whether a fault comes before another. -/
def Ranked.before (a b : Ranked) : Bool :=
  decide (a.1 < b.1) || (a.1 == b.1 && (decide (a.2.1 < b.2.1) || (a.2.1 == b.2.1 && decide (a.2.2.1 < b.2.2.1))))

/-- The first of two faults, if any. -/
def Ranked.better (a b : Option Ranked) : Option Ranked :=
  match a, b with
  | none, y => y
  | some x, none => some x
  | some x, some y => if Ranked.before y x then some y else some x

/-- The deciding fault among the pages of one access: the earliest check that any byte fails, at its lowest address. -/
def State.rankedFault (s : State) (who : Who) (k : AccKind) (group va n : Nat) : Option Ranked :=
  (pagesOf va n).foldl (fun best p =>
    match s.access who k p.1 p.2 with
    | .ok _ => best
    | .error f => Ranked.better best (some (f.rank, group, s.faultAddr who k p.1 p.2 f, f))) none

/-- An access of a group: kind, group, address, bytes. -/
structure Req where
  kind  : AccKind
  group : Nat
  va    : Nat
  n     : Nat
  deriving DecidableEq, Repr, Inhabited

/-- Whether the writes among several accesses together run out of records, and where (R275). -/
def State.overflowOf (s : State) (who : Who) (rs : List Req) : Option Nat :=
  if s.versioned who then
    s.overflows who (rs.flatMap (fun r =>
      if r.kind == .store then
        match s.accessAll who .store (pagesOf r.va r.n) with
        | .ok ls => ls
        | .error _ => []
      else []))
  else none

/-- The deciding fault among several accesses (R146, R179, R204, R287). -/
def State.firstFault (s : State) (who : Who) (rs : List Req) : Option (AccFault × Nat) :=
  let best := rs.foldl (fun best r => Ranked.better best (s.rankedFault who r.kind r.group r.va r.n)) none
  let found := best.map (fun b => (b.2.2.2, b.2.2.1))
  let early := match best with
    | some b => decide (b.1 < (AccFault.trap .hypFull).rank)
    | none => false
  if early then found
  else
    match s.overflowOf who rs with
    | some a => some (.trap .hypFull, a)
    | none => found

/-- The cause an access fault that is not served raises (R67, R324). -/
def AccFault.cause : AccFault → Cause
  | .trap c => c
  | .shadow _ => .pageNotPresent
  | .tag _ => .eccUncorr

end Sys2Proof.Machine
end

