-- ==== Sys2Proof/Machine/Ops.lean ====
section
/-!
DEFINITION. The shared operations of the sequencers: moving past a word and its loops (R150), tokens and pushes (R26),
semaphores (R27), the start and end of commands (R23), engine faults (R24), taking a trap and returning from one (R160,
R161), and the end of a task (R17, R51, R277, R313).
-/

namespace Sys2Proof.Machine

/-- The outcome of every meaning. -/
abbrev Out := Host.Outcome State Fault Refusal

/-! ### Words and loops (R150) -/

/-- end_of_word of R150: the word to go back to, if a loop repeats, and the loop stack after it. -/
def endOfWord (w : Nat) : List LoopEnt → Option Nat × List LoopEnt
  | [] => (none, [])
  | e :: es =>
    if w = e.last then
      if 1 < e.count then (some e.first, { e with count := e.count - 1 } :: es) else endOfWord w es
    else (none, e :: es)

/-- Past the word at `w` (R150): the next word and the loop stack. -/
def nextWord (w : Nat) (ls : List LoopEnt) : Nat × List LoopEnt :=
  let r := endOfWord w ls
  (r.1.getD (w + 1), r.2)

/-- Why LOOP cannot start at `w` with a body of `n` words (R150). -/
def loopBad (w n limit : Nat) (ls : List LoopEnt) : Bool :=
  decide (limit < w + n) || decide (4 ≤ ls.length) ||
    (match ls with
     | [] => false
     | e :: _ => decide (e.last < w + n))

/-- LOOP at word `w` over `n` words, `count` times (R150). -/
def loopStart (w n count : Nat) (ls : List LoopEnt) : Nat × List LoopEnt :=
  if count = 0 then nextWord (w + n) ls
  else (w + 1, { first := w + 1, last := w + n, count := count } :: ls)

/-- CTL past the word at PC (R150). -/
def Ctl.advance (k : Ctl) : Ctl :=
  let r := nextWord k.pc k.loops
  { k with pc := r.1, loops := r.2 }

/-- A taken branch (R149, R150): entries whose body does not hold the target are popped. -/
def Ctl.jump (k : Ctl) (target : Nat) : Ctl :=
  { k with pc := target, loops := k.loops.filter (fun e => decide (e.first ≤ target) && decide (target ≤ e.last)) }

/-- The running CTL retires its word. -/
def State.retire (s : State) : State := s.onCtl Ctl.advance

/-- The running CTL retires from whatever it waited for. -/
def State.retireWait (s : State) : State := (s.onHere (fun k => k.setWait .ctl .none)).retire

/-- Words of the CTL memory (R123). -/
def ctlWords : Nat := 16384

/-- Words of an engine's memory (R123). -/
def engWords : Engine → Nat
  | .lds => 8192
  | .cmp => 32768
  | .sts => 8192

/-! ### Tasks -/

/-- The task of a core; a core that runs none gives the task of zeros, which nothing uses. -/
def Core.theTask (k : Core) : Task := k.task.getD default

/-- Nothing of a core's task moves: it runs none, or its world's seal has begun (R327). -/
def Core.still (k : Core) : Bool := k.task.isNone || k.sealed

/-- Nothing of a core goes on: its clocks are held (R66), or a seal has begun (R327). -/
def Core.stopped (k : Core) : Bool := k.hold || k.sealed

/-- The source of an access by a core's task under a hypothesis. -/
def State.whoOf (s : State) (c : CoreId) (h : HypId) : Who :=
  { die := dieOf c, core := some c, ctx := (s.core c).theTask.ctx, world := (s.core c).theTask.world, hyp := h,
    desc := (s.core c).theTask.desc }

/-- The agent that a sequencer of a core's task is. -/
def Core.seqAgent (k : Core) (q : Sequencer) : Agent := .seq k.theTask.uid q

/-- The running CTL as a source of accesses (R145). -/
def State.ctlWho (s : State) : Who :=
  { s.whoOf s.actCore (s.here).ctl.hcur with agent := (s.here).seqAgent .ctl }

/-- The hypothesis of an engine's running command (R25). -/
def EngCtl.hyp (g : EngCtl) : HypId :=
  match g.cur with
  | some r => r.cmd.hyp
  | none => 0

/-- The instruction memory of an engine. -/
def Core.imem (k : Core) : Sequencer → Cells Word
  | .ctl => k.imemCtl
  | .lds => k.imemLds
  | .cmp => k.imemCmp
  | .sts => k.imemSts

/-- The word at an engine's pc. -/
def Core.engWordBits (k : Core) (e : Engine) : Word := Cells.read 0 (k.imem e.seqr) (k.eng e).pc

/-- The running engine as a source of accesses (R25). -/
def State.engWho (s : State) : Who :=
  { s.whoOf s.actCore ((s.here).eng s.actEng).hyp with agent := (s.here).seqAgent s.actEng.seqr }

/-! ### Wake-ups and semaphores -/

/-- Something WFE waits for has happened on a core (R162). -/
def Core.wake (k : Core) : Core := k.onCtl (fun c => { c with woken := true })

/-- The event at an address has been incremented to a value: a WAITEV on it whose target the value meets completes (R156),
and WFE wakes where it was the last one named (R162). -/
def Core.meetEvent (k : Core) (dev : Option Nat) (pa : Nat) (v : DWord) : Core :=
  if k.ctl.lastEvent = some (dev, pa) then
    (match k.ctl.wait with
      | .event _ t => if t.toNat ≤ v.toNat then k.setWait .ctl .eventMet else k
      | _ => k).wake
  else k

/-- Changes every task's core, running or suspended. -/
def State.onEvery (s : State) (f : Core → Core) : State :=
  { s with
    cores := s.cores.map f
    slots := s.slots.map (fun l => l.map (fun (l : Launch) =>
      if l.susp.isEmpty then l else { l with susp := l.susp.map (fun (u : Suspended) => { u with core := f u.core }) })) }

/-- Every CTL that last named an event hears that it has been incremented to a value, on a core or suspended (R156, R162,
R310). -/
def State.wakeEvent (s : State) (dev : Option Nat) (pa : Nat) (v : DWord) : State := s.onEvery (fun k => k.meetEvent dev pa v)

/-- R27: the sum, when it lies in 0 to 0xFFFF_FFFF. -/
def semSum (v : Word) (d : Int) : Option Word :=
  let n : Int := v.toNat + d
  if 0 ≤ n && decide (n < 2 ^ 32) then some (BitVec.ofInt 32 n) else none

/-- Semaphore n of a core. -/
def Core.sem (k : Core) (n : BitVec 4) : Word := k.sems[n.toNat]'(n.isLt)

/-- A SEMWAIT on semaphore n whose target a value reaches completes at that point (R27). -/
def Wait.meet (n : BitVec 4) (v : Word) : Wait → Wait
  | .sem m t => if m = n && decide (t.toNat ≤ v.toNat) then .semMet else .sem m t
  | w => w

/-- Every SEMWAIT on semaphore n that a value satisfies completes (R27). -/
def Core.meetSem (k : Core) (n : BitVec 4) (v : Word) : Core :=
  let one (q : Sequencer) (r : Core) : Core := r.setWait q ((r.wait q).meet n v)
  one .sts (one .cmp (one .lds (one .ctl k)))

/-- Sets semaphore n: waits that it satisfies complete (R27), and WFE wakes (R162). -/
def Core.setSem (k : Core) (n : BitVec 4) (v : Word) : Core :=
  ({ k with sems := k.sems.set n.toNat v n.isLt }.meetSem n v).wake

/-! ### Tokens (R26) -/

/-- The four token FIFOs with their codes 0 to 3 (R26, R179). -/
inductive Fifo where
  | ltoc | ctol | ctos | stoc
  deriving DecidableEq, Repr, Inhabited

def Fifo.code : Fifo → Nat
  | .ltoc => 0
  | .ctol => 1
  | .ctos => 2
  | .stoc => 3

def Core.fifo (k : Core) : Fifo → List Bool
  | .ltoc => k.ltoc
  | .ctol => k.ctol
  | .ctos => k.ctos
  | .stoc => k.stoc

def Core.setFifo (k : Core) (f : Fifo) (l : List Bool) : Core :=
  match f with
  | .ltoc => { k with ltoc := l }
  | .ctol => { k with ctol := l }
  | .ctos => { k with ctos := l }
  | .stoc => { k with stoc := l }

/-- The FIFO that an engine pushes toward its next neighbour (SN) or its previous one (SP) (R26). -/
def pushFifo (e : Engine) (toNext : Bool) : Fifo :=
  match e with
  | .lds => .ltoc
  | .cmp => if toNext then .ctos else .ctol
  | .sts => .stoc

/-- The FIFOs that a word waits on (R26). -/
def popFifos (e : Engine) (t : Tok) : List Fifo :=
  match e with
  | .lds => if t.wn then [.ctol] else []
  | .cmp => (if t.wp then [.ltoc] else []) ++ (if t.wn then [.stoc] else [])
  | .sts => if t.wp then [.ctos] else []

/-- Whether every FIFO of a list holds a token. -/
def Core.tokensPresent (k : Core) (fs : List Fifo) : Bool := fs.all (fun f => !(k.fifo f).isEmpty)

/-- Pops one token from each FIFO of a list. -/
def Core.popTokens (k : Core) (fs : List Fifo) : Core := fs.foldl (fun c f => c.setFifo f ((c.fifo f).drop 1)) k

/-- The first FIFO of a list, in code order, whose oldest token is poisoned (R179). DESIGN CHOICE (log 68): where both
tokens that a word pops are poisoned, TVAL is the lower FIFO code. -/
def Core.poisoned (k : Core) (fs : List Fifo) : Option Fifo := fs.find? (fun f => (k.fifo f).head? == some true)

/-- Depth of a token FIFO (R26). -/
def fifoDepth : Nat := 8

/-- Whether a push waits for no event of its own, but for space or an earlier push: it is ready, and the accesses before it
have been performed at their homes (R256, R261). -/
def PushEnt.due (p : PushEnt) : Bool := p.ready && p.after.isEmpty

/-- Makes the pushes of an engine that can be made, each FIFO in program order (R26): `kept` collects those that wait. -/
def drainGo (e : Engine) : List PushEnt → List PushEnt → Core → Core
  | [], kept, k => k.onEng e (fun g => { g with pushq := kept.reverse })
  | p :: ps, kept, k =>
    let f := pushFifo e p.toNext
    let blocked := kept.any (fun q => q.toNext == p.toNext)
    if blocked || !p.due || decide (fifoDepth ≤ (k.fifo f).length) then drainGo e ps (p :: kept) k
    else
      let k := k.setFifo f (k.fifo f ++ [p.poison])
      drainGo e ps kept (if p.poison then k.onEng e (fun g => { g with poison := true }) else k)

def Core.drainPushes (k : Core) (e : Engine) : Core := drainGo e (k.eng e).pushq [] k

/-- The pushes a word owes, in the order SP, SN. -/
def pushesOf (e : Engine) (t : Tok) : List Bool :=
  match e with
  | .lds => if t.sn then [true] else []
  | .cmp => (if t.sp then [false] else []) ++ (if t.sn then [true] else [])
  | .sts => if t.sp then [false] else []

/-- Adds the pushes of a word to what the engine owes; those of a marked command are dropped (R37). -/
def Core.owe (k : Core) (e : Engine) (t : Tok) (kind : PushKind) (op : Nat) (ready : Bool) : Core :=
  k.onEng e (fun g =>
    if g.marked then g
    else
      let ser := match g.cur with | some r => r.serial | none => 0
      { g with pushq := g.pushq ++ (pushesOf e t).map (fun d =>
          { toNext := d, kind := kind, op := op, serial := ser, ready := ready, poison := false,
            after := g.away }) })

/-- The pushes of an operation become ready, poisoned or not, and are made as far as they can be (R26, R179). -/
def Core.settle (k : Core) (e : Engine) (op : Nat) (poison : Bool) : Core :=
  (k.onEng e (fun g => { g with pushq := g.pushq.map (fun p =>
    if p.op == op then { p with ready := true, poison := poison } else p) })).drainPushes e

/-- The pushes of an operation are dropped. -/
def Core.dropPushes (k : Core) (e : Engine) (op : Nat) : Core :=
  k.onEng e (fun g => { g with pushq := g.pushq.filter (fun p => p.op != op) })

/-- A push waits that holds the sequencer (R26). DESIGN CHOICE (log 69): one that waits only for an earlier push of its
sequencer holds it as one that waits for space does. -/
def EngCtl.held (g : EngCtl) : Bool := g.pushq.any (fun p => p.due && p.kind != .matrix)

/-- Whether an operation signals any token. -/
def EngCtl.signals (g : EngCtl) (op : Nat) : Bool := g.pushq.any (fun p => p.op == op)

/-! ### Commands (R23) -/

def Core.jt (k : Core) : Engine → Cells Word
  | .lds => k.jtLds
  | .cmp => k.jtCmp
  | .sts => k.jtSts

/-- START of a fragment (R22). -/
def Core.fragStart (k : Core) (e : Engine) (frag : BitVec 8) : Nat := fld (Cells.read 0 (k.jt e) frag.toNat) 0 16

/-- Whether a jump-table entry is valid (R22). -/
def Core.fragValid (k : Core) (e : Engine) (frag : BitVec 8) : Bool := flag (Cells.read 0 (k.jt e) frag.toNat) 31

/-- a15 or k15 receives the iteration index (R23). -/
def Core.setIter (k : Core) (e : Engine) (i : Nat) : Core :=
  match e with
  | .lds => k.onXfer false (fun x => { x with a := x.a.set 15 (BitVec.ofNat 64 i) })
  | .cmp => k.onCmp (fun x => { x with k := x.k.set 15 (BitVec.ofNat 64 i) })
  | .sts => k.onXfer true (fun x => { x with a := x.a.set 15 (BitVec.ofNat 64 i) })

/-- The four arguments of a command in a0 to a3 or k0 to k3 (R23). -/
def putArgs (r : Vector DWord 16) (c : Cmd) : Vector DWord 16 :=
  (((r.set 0 c.args[0]).set 1 c.args[1]).set 2 c.args[2]).set 3 c.args[3]

def Core.setArgs (k : Core) (e : Engine) (c : Cmd) : Core :=
  match e with
  | .lds => k.onXfer false (fun x => { x with a := putArgs x.a c })
  | .cmp => k.onCmp (fun x => { x with k := putArgs x.k c })
  | .sts => k.onXfer true (fun x => { x with a := putArgs x.a c })

/-- An engine begins an iteration: the index register, the first word, an empty loop stack (R23, R164). -/
def Core.beginIter (k : Core) (e : Engine) (frag : BitVec 8) (i : Nat) : Core :=
  (k.setIter e i).onEng e (fun g =>
    { g with cur := g.cur.map (fun r => { r with iter := i }), pc := k.fragStart e frag, loops := [], wait := .none })

/-- A command retires (R23, R25): the engine is free for the next, and WFE wakes (R162). -/
def Core.retireCmd (k : Core) (e : Engine) : Core :=
  (k.onEng e (fun g => { g with cur := none, loops := [], wait := .none, marked := false, halted := false })).wake

/-- A fault request of an engine's word. -/
def Faulter.isWord (w : Faulter) (e : Engine) : Bool := w == .word e

/-- A command is abandoned (R37, R160): the rest of it is skipped, the abandoned bit is set, and no fault of its word is
served any more. -/
def Core.abandon (k : Core) (e : Engine) : Core :=
  ({ k with shadowQ := k.shadowQ.filter (fun r => !r.who.isWord e),
            serving := k.serving.filter (fun r => !r.1.who.isWord e) }.retireCmd e).onEng e
    (fun g => { g with abandoned := true })

/-- The end of an iteration (R23): the next one, or the command retires. -/
def Core.endIter (k : Core) (e : Engine) : Core :=
  match (k.eng e).cur with
  | none => k
  | some r => if r.iter + 1 < r.cmd.count.toNat then k.beginIter e r.cmd.frag (r.iter + 1) else k.retireCmd e

/-- A command with a count begins its first iteration; one without retires at once (R23). -/
def Core.startCmd (k : Core) (e : Engine) (c : Cmd) : Core :=
  if c.count = 0 then k.wake
  else
    let k := k.onEng e (fun g =>
      { g with cur := some { cmd := c, iter := 0, serial := g.serial }, serial := g.serial + 1, marked := false })
    (k.setArgs e c).beginIter e c.frag 0

/-- On-chip queue entries (R19). -/
def onChip : Nat := 32

/-- Commands queued, on chip and in the ring. -/
def EngCtl.pending (g : EngCtl) : Nat := g.queue.length + g.ring.length

/-- An engine is idle (R17): no command, no operation in flight. -/
def Core.idle (k : Core) (e : Engine) : Bool :=
  (k.eng e).cur.isNone &&
    (match e with
     | .lds => k.lds.ops.isEmpty
     | .cmp => k.cmp.mq.isEmpty
     | .sts => k.sts.ops.isEmpty)

def Core.allIdle (k : Core) : Bool := k.idle .lds && k.idle .cmp && k.idle .sts

/-- All queues empty and every engine idle (R17, R153). -/
def Core.drained (k : Core) : Bool :=
  k.allIdle && (k.eng .lds).pending == 0 && (k.eng .cmp).pending == 0 && (k.eng .sts).pending == 0

/-! ### An engine past its word -/

/-- The engine moves past its word (R150, R168, R213). -/
def Core.engAdvance (k : Core) (e : Engine) : Core :=
  k.onEng e (fun g =>
    let r := nextWord g.pc g.loops
    { g with pc := r.1, loops := r.2, wait := .none })

/-- A word retires: its own pushes are made or wait (R26), and the engine moves past it. -/
def Core.engRetire (k : Core) (e : Engine) (t : Tok) : Core :=
  ((k.owe e t .retire 0 true).drainPushes e).engAdvance e

/-! ### Engine faults (R24, R160) -/

/-- The fault of an engine's word, with the command it runs. -/
def Core.wordFault (k : Core) (e : Engine) (c : Cause) (tval : DWord) : EngFault :=
  let g := k.eng e
  let r := g.cur.getD default
  { eng := some e, serial := r.serial, cause := c, tval := tval, waddr := g.pc, frag := r.cmd.frag, tag := r.cmd.tag,
    hyp := r.cmd.hyp }

/-- An engine fault is reported to CTL; WFE wakes (R162). -/
def Core.post (k : Core) (f : EngFault) : Core := { k with faults := k.faults ++ [f] }.wake

/-- An engine stops at its word with a fault (R24). -/
def Core.stopAt (k : Core) (e : Engine) (c : Cause) (tval : DWord) : Core :=
  (k.post (k.wordFault e c tval)).onEng e (fun g => { g with halted := true, wait := .none })

/-- The running engine stops at its word with a fault. -/
def State.engFault (s : State) (c : Cause) (tval : DWord) : State := s.onHere (fun k => k.stopAt s.actEng c tval)

/-! ### Faults offered to the shadow control context (R66, R311) -/

/-- The place of a fault among those that arrive at one clock: CTL, LDS, CMP, STS, then what belongs to no sequencer
(R311). -/
def Faulter.place : Faulter → Nat
  | .ctl => 0
  | .ring => 0
  | .spawn => 0
  | .save => 0
  | .word .lds => 1
  | .step .lds _ => 1
  | .word .cmp => 2
  | .step .cmp _ => 2
  | .matrix => 2
  | .word .sts => 3
  | .step .sts _ => 3
  | .collDst _ => 4
  | .collEvent _ => 4

/-- Whether a fault is served before another: that under clock hold first, then by arrival (R311). -/
def ShadowReq.before (a b : ShadowReq) : Bool :=
  (a.who == .matrix && b.who != .matrix) ||
    ((a.who == .matrix) == (b.who == .matrix) &&
      (decide (a.arr < b.arr) || (a.arr == b.arr && decide (a.who.place < b.who.place))))

/-- A request takes its place among those that wait. -/
def insertReq (r : ShadowReq) : List ShadowReq → List ShadowReq
  | [] => [r]
  | q :: qs => if r.before q then r :: q :: qs else q :: insertReq r qs

/-- A request joins the queue (R311). -/
def Core.offer (k : Core) (r : ShadowReq) : Core := { k with shadowQ := insertReq r k.shadowQ }

/-- A sequencer's word waits for the service of its fault. -/
def State.awaitShadow (s : State) (q : Sequencer) (who : Faulter) (va : DWord) (ats : Bool) : State :=
  s.onHere (fun k => (k.offer { who := who, va := va, ats := ats, arr := s.clock }).setWait q .shadow)

/-! ### Spill rings (R18 to R20, R302) -/

/-- A command as a spill ring stores it (R18). -/
def Cmd.bytes (c : Cmd) : List Byte :=
  leBytes 8 c.args[0].toNat ++ leBytes 8 c.args[1].toNat ++ leBytes 8 c.args[2].toNat ++ leBytes 8 c.args[3].toNat ++
    leBytes 8 c.count.toNat ++ [c.frag, c.hyp] ++ leBytes 2 c.tag.toNat ++ [1] ++ List.replicate 19 0

/-- The command that 64 bytes of a ring hold (R18). -/
def cmdOf (bs : List Byte) : Cmd :=
  let d (i : Nat) : DWord := BitVec.ofNat 64 (fieldAt bs (8 * i) 8)
  { args := #v[d 0, d 1, d 2, d 3], count := d 4, frag := BitVec.ofNat 8 (fieldAt bs 40 1),
    hyp := BitVec.ofNat 8 (fieldAt bs 41 1), tag := BitVec.ofNat 16 (fieldAt bs 42 2) }

/-- Entries of a spill ring (R19): 2^RINGLOG, none for RINGLOG 0. -/
def Task.ringSize (t : Task) : Nat := if t.ringLog = 0 then 0 else 2 ^ t.ringLog

/-- Bytes of the spawn spill queue at the start of the spill area (R302). -/
def Task.spqBytes (t : Task) : Nat := if t.spqLog = 0 then 0 else 2 ^ t.spqLog * 256

/-- The address of entry i of an engine's ring (R302): rings in the order LDS, CMP, STS. -/
def Task.ringAddr (t : Task) (e : Engine) (i : Nat) : DWord :=
  let one := t.ringSize * 64
  t.spill + BitVec.ofNat 64 (t.spqBytes + t.taskid.toNat * (3 * one) + e.code * one + i % (max t.ringSize 1) * 64)

/-- Whether the ring has space (R19): the entries from the oldest queued one to the tail are in use. DESIGN CHOICE (log
12): the entry of a command that QCANCEL has discarded is in use until those before it have left. -/
def EngCtl.ringRoom (g : EngCtl) (size : Nat) : Bool :=
  match g.ring with
  | [] => decide (0 < size)
  | (i, _) :: _ => decide (g.ringTail - i < size)

/-- The oldest ring entry moves on chip, as memory now holds it (R20); one that cannot be read stays (log 12). -/
def State.refillOne (s : State) (c : CoreId) (e : Engine) : Option State :=
  let k := s.core c
  match (k.eng e).ring with
  | [] => none
  | (i, _) :: rest =>
    if onChip ≤ (k.eng e).queue.length then none
    else
      match s.load (s.whoOf c 0) .load (k.theTask.ringAddr e i).toNat 64 with
      | .ok (bs, t) => some (t.onCore c (fun r => r.onEng e (fun g => { g with queue := g.queue ++ [cmdOf bs], ring := rest })))
      | .error _ => none

/-- Changes the TDI of a world (R318). -/
def State.onTdi (s : State) (w : BitVec 4) (f : Tdi → Tdi) : State :=
  { s with tdi := s.tdi.set w.toNat (f (s.tdi[w.toNat]'(w.isLt))) w.isLt }

/-- The TDI of a world. -/
def State.tdiOf (s : State) (w : BitVec 4) : Tdi := s.tdi[w.toNat]'(w.isLt)

/-- A TDI in CONFIG_LOCKED or RUN. -/
def Tdi.isLocked (t : Tdi) : Bool := t.state == .locked || t.state == .run

/-- All worlds. -/
def allWorlds : List (BitVec 4) := (List.range 15).map (fun i => BitVec.ofNat 4 (i + 1))

/-- One more untrusted access, saturating. -/
def Tdi.violate (t : Tdi) : Tdi := { t with viol := if t.viol = 0xFFFFFFFF then t.viol else t.viol + 1 }

/-- Whether a TLP of a function's IDE stream with T = 1 counts as trusted: its stream is set up and its TDI locked
(R323). -/
def State.trusts (s : State) (fn : BitVec 4) : Bool := (s.tdiOf fn).ide.up && (s.tdiOf fn).isLocked

/-- The TDI that holds a queue, from its lock to its STOP (R319, R323). -/
def State.queueHolder (s : State) (q : Nat) : Option (BitVec 4) :=
  allWorlds.find? (fun w => (s.tdiOf w).state != .unlocked && (s.tdiOf w).queues.getLsbD q)

/-- A TDI in CONFIG_LOCKED or RUN goes to ERROR (R319), its tasks and launches to end when the step is over. -/
def State.tdiError (s : State) (w : BitVec 4) (cause : BitVec 3) : State :=
  if w != 0 && ((s.tdiOf w).state == .locked || (s.tdiOf w).state == .run) then
    { s.onTdi w (fun t => { t with state := .error, errcause := cause }) with falls := insertNat w.toNat s.falls }
  else s

/-- R324: a tag mismatch moves the world's TDI to ERROR with ERRCAUSE 2. -/
def State.tagError (s : State) (world : BitVec 4) : State := s.tdiError world 2

/-- What an access fault does by itself, whoever made the access: a tag mismatch stops the world's TDI (R324). -/
def State.noteTag (s : State) : AccFault → State
  | .tag w => s.tagError w
  | .trap _ => s
  | .shadow _ => s

/-- The fault of an engine that belongs to none of its words. -/
def ringFault (e : Engine) (c : Cause) (a : Nat) : EngFault :=
  { eng := some e, serial := 0, cause := c, tval := BitVec.ofNat 64 a, waddr := 0, frag := 0, tag := 0, hyp := 0 }

/-- The oldest ring entry cannot be moved: where its data is uncorrectable or fails its tag, ECC_UNCORR is reported to CTL
once (R312, R324, log 12). -/
def State.refillFault (s : State) (c : CoreId) (e : Engine) : State :=
  let k := s.core c
  match (k.eng e).ring with
  | [] => s
  | (i, _) :: _ =>
    if onChip ≤ (k.eng e).queue.length then s
    else
      match s.load (s.whoOf c 0) .load (k.theTask.ringAddr e i).toNat 64 with
      | .ok _ => s
      | .error (f, a) =>
        if f.cause = .eccUncorr then
          (s.noteTag f).onCore c (fun r =>
            if r.faults.contains (ringFault e .eccUncorr a) then r else r.post (ringFault e .eccUncorr a))
        else s

/-- The ring refills the on-chip entries in order (R20); at most `fuel` entries. -/
def State.refill (s : State) (c : CoreId) (e : Engine) : Nat → State
  | 0 => s
  | fuel + 1 =>
    match s.refillOne c e with
    | some t => t.refill c e fuel
    | none => s.refillFault c e

/-! ### The end of a task (R17, R313) -/

/-- How a task ends (R313). -/
inductive TaskEnd where
  | exited
  | trapped (cause : BitVec 8) (tval tstat : DWord)
  | orphaned
  deriving DecidableEq, Repr, Inhabited

/-- TSTAT as one number (R140). -/
def TStat.pack (t : TStat) : DWord :=
  BitVec.ofNat 64 (t.eng.toNat + 2 ^ 2 * bit t.inh + 2 ^ 4 * t.waddr.toNat + 2 ^ 19 * t.frag.toNat
    + 2 ^ 27 * t.tag.toNat + 2 ^ 43 * t.hyp.toNat)

/-- A team counts one of its tasks that ended. -/
def Team.count (m : Team) : Team := { m with ended := m.ended + 1 }

/-- The lowest TASKID among TRAPPED tasks keeps its cause, value and TSTAT (R313). -/
def Launch.noteTrap (l : Launch) (t : Task) (c : BitVec 8) (v st : DWord) : Launch :=
  let better := match l.first with
    | some (n, _, _, _) => decide (t.taskid.toNat < n.toNat)
    | none => true
  { l with traps := l.traps + 1, first := if better then some (t.taskid, c, v, st) else l.first }

/-- The launch counts a task that ended (R313); a team whose every task has ended without a link failure retires. -/
def Launch.count (l : Launch) (t : Task) (how : TaskEnd) : Launch :=
  let teams := l.teams.map (fun m => if m.num == t.team then m.count else m)
  let whole := teams.filter (fun m => m.num == t.team && m.ended == m.size && !m.broken)
  let l := { l with teams := teams, retired := whole.foldl (fun (r : List Nat) (m : Team) => insertNat m.num r) l.retired }
  match how with
  | .exited => { l with exited := l.exited + 1 }
  | .orphaned => { l with orphans := l.orphans + 1 }
  | .trapped c v st => l.noteTrap t c v st

/-- The first unit of a window whose write-back would cross a failed link, by its virtual address (R314, R315). -/
def State.unmapBar (s : State) (w : Window) : Option Nat :=
  let who := s.whoOf w.core 0
  (List.range w.pas.length).findSome? (fun i =>
    let va := w.va + i * 2 ^ 16
    match s.translate who va with
    | .ok l => if l.w && !s.linkUp who.die (homeDie ((w.pas[i]?).getD 0)) then some va else none
    | .error f => if f = .trap .linkDown then some va else none)

/-- UNMAPW of one registered window (R51, R258): the registration goes, and each unit whose page is present and carries W is
written back; a unit whose home cannot be reached is dropped. -/
def State.unmap (s : State) (w : Window) : State :=
  let who := s.whoOf w.core 0
  let bytes := (s.core w.core).bufBytes w.buf
  let s' := { s.dropAhead with windows := s.windows.filter (fun u => !(u.core == w.core && u.w == w.w)) }
  (List.range w.pas.length).foldl (fun t i =>
    let va := w.va + i * 2 ^ 16
    match t.translate who va with
    | .ok l =>
      let l := { l with pa := (w.pas[i]?).getD 0, filter := false, dev := none }
      if l.w && t.linkUp who.die (homeDie l.pa) then t.writeLeaf who l va (bytes (w.off + i * 2 ^ 16) (2 ^ 16)) else t
    | .error _ => t) s'

/-- Every window of a core (R51). -/
def State.unmapAll (s : State) (c : CoreId) : State :=
  (s.windows.filter (fun w => w.core == c)).foldl (fun t w => t.unmap w) s

/-- A fault that belongs to no sequencer of the core: it outlives the task (R297, R300). -/
def Faulter.ofDevice : Faulter → Bool
  | .ctl => false
  | .word _ => false
  | .step _ _ => false
  | .matrix => false
  | .ring => false
  | .spawn => false
  | .save => false
  | .collDst _ => true
  | .collEvent _ => true

/-- What is left of a core when its task has ended: buffers and registers as they stand; no command, token, semaphore
value, fault or operation (R17). -/
def Core.vacate (k : Core) : Core :=
  { k with
    task := none,
    ctl := { k.ctl with wait := .none, loops := [], savedLoops := [], answer := none, qcancelAt := none },
    lds := { k.lds with eng := { }, ops := [] },
    sts := { k.sts with eng := { }, ops := [] },
    cmp := { k.cmp with eng := { }, mq := [], doomed := none, nib := none },
    ltoc := [], ctol := [], ctos := [], stoc := [],
    sems := Vector.replicate 16 0,
    faults := [], hold := false, ogu := none, victim := false,
    shadowQ := k.shadowQ.filter (fun r => r.who.ofDevice),
    serving := k.serving.filter (fun r => r.1.who.ofDevice) }

/-- Clocks of a microsecond (R10). -/
def usClocks : Nat := 1800

/-- The clock at which the frame under way on a core closes (R327). -/
def Core.frameEnd (k : Core) : Option Nat :=
  k.frame.map (fun e => k.frameAt + usClocks * ((k.cycleTab[e]?).getD { }).len.toNat)

/-- The world of an entry of a frame table (R326). -/
def entWorld (tab : Vector FrameEnt 16) (e : Nat) : BitVec 4 := ((tab[e]?).getD { }).world

/-- The world to which a core belongs by its current frame (R326). -/
def Core.frameWorld (k : Core) : BitVec 4 :=
  match k.frame with
  | none => 0
  | some e => entWorld k.cycleTab e

/-- When the frame closes in which a task of a world ends (R328); none for world 0, and outside a frame of the world. -/
def Core.closes (k : Core) (t : Task) : Option Nat := if t.world = 0 || k.frameWorld != t.world then none else k.frameEnd

/-- The launch counts a task that ended on, or having left, a core: its completion waits for the end of the frame in which
the last of its tasks ended in a frame (R313, R328). -/
def Launch.endOf (l : Launch) (k : Core) (t : Task) (how : TaskEnd) : Launch :=
  { l.count t how with holdUntil := (k.closes t).orElse (fun _ => l.holdUntil) }

/-- Loads of a task that are under way elsewhere, and what its units have read ahead, come to nothing when it ends. -/
def State.dropReads (s : State) (uid : Nat) : State :=
  { s with
    posted := s.posted.filter (fun p => !(p.who.agent.ofTask uid && (match p.kind with
      | .write _ => false
      | .load _ _ _ => true
      | .vload _ _ _ => true)))
    peeks := s.peeks.filter (fun p => !p.agent.ofTask uid) }

/-- Asynchronous operations of an orphan perform nothing further (R277). -/
def State.dropOps (s : State) (uid : Nat) : State :=
  { s with posted := s.posted.filter (fun p => !(p.who.agent.ofTask uid && (match p.who.agent with
      | .direct => false
      | .seq _ _ => false
      | .op _ _ _ => true
      | .mat _ _ => true
      | .job _ _ _ => true
      | .coll _ => false))) }

/-- A task ends (R17, R160, R277): its windows are unmapped (R51), its launch counts it (R313), and its core is free. -/
def State.endTask (s : State) (c : CoreId) (how : TaskEnd) : State :=
  match (s.core c).task with
  | none => s
  | some t =>
    let s := (s.unmapAll c).dropReads t.uid
    let s := if how = .orphaned then s.dropOps t.uid else s
    let s := s.onSlot t.slot (fun l =>
      let l := l.endOf (s.core c) t how
      if s.taskQuiet t.uid then l else { l with linger := l.linger ++ [t.uid] })
    s.onCore c Core.vacate

/-! ### A task wherever it is -/

/-- Whether a core runs a given task. -/
def Core.runs (k : Core) (uid : Nat) : Bool :=
  match k.task with
  | some t => t.uid == uid
  | none => false

/-- The core that runs a task. -/
def State.whereIs (s : State) (uid : Nat) : Option CoreId := allCores.find? (fun c => (s.core c).runs uid)

/-- The state of a task's core, running or suspended from a slot. -/
def State.taskCore (s : State) (slot : BitVec 8) (uid : Nat) : Option Core :=
  match s.whereIs uid with
  | some c => some (s.core c)
  | none =>
    match s.slot slot with
    | some l => (l.susp.find? (fun u => u.core.runs uid)).map (·.core)
    | none => none

/-- Changes a task's core, running or suspended; nothing when the task has ended. -/
def State.onTask (s : State) (slot : BitVec 8) (uid : Nat) (f : Core → Core) : State :=
  match s.whereIs uid with
  | some c => s.onCore c f
  | none =>
    s.onSlot slot (fun l =>
      { l with susp := l.susp.map (fun (u : Suspended) => if u.core.runs uid then { u with core := f u.core } else u) })

/-! ### Taking a trap (R160) and returning from one (R161) -/

/-- What TSTAT records of a trap's source (R140): for CTL, zeros. -/
def srcStat (f : Option EngFault) : TStat :=
  match f with
  | none => { }
  | some f =>
    match f.eng with
    | none => { }
    | some e =>
      { eng := BitVec.ofNat 2 e.seqr.code, inh := false, waddr := BitVec.ofNat 15 f.waddr, frag := f.frag,
        tag := f.tag, hyp := f.hyp }

/-- R160's one step by which every trap reaches CTL of core c: without a handler, or while one runs, the task ends
TRAPPED; otherwise TCAUSE, TVAL, TSTAT and TPC are written, INH is set, the loop stack is saved and emptied, and CTL
goes on at HANDLER. -/
def State.takeTrap (s : State) (c : CoreId) (cause : Cause) (tval : DWord) (src : TStat) (resume : Nat) : State :=
  let k := (s.core c).ctl
  if !k.tvecEn || k.tstat.inh then
    s.endTask c (.trapped cause.code tval ({ src with inh := k.tstat.inh }).pack)
  else
    s.onCore c (fun r => r.onCtl (fun k =>
      { k with
        tcause := cause.code, tval := tval, tstat := { src with inh := true }, tpc := BitVec.ofNat 14 resume,
        savedLoops := k.loops, loops := [], pc := k.tvecPc.toNat, wait := .none }))

/-- A precise trap of the running CTL instruction: nothing of it has taken place, and it is the resume word (R160). -/
def State.ctlTrap (s : State) (cause : Cause) (tval : DWord) : State :=
  s.takeTrap s.actCore cause tval { } (s.here).ctl.pc

/-- RETT with INH = 1 (R161): PC from TPC, the loop stack restored, INH cleared, stopped engines released. -/
def Core.returnTrap (k : Core) : Core :=
  let free (e : Engine) (r : Core) : Core := r.onEng e (fun g => { g with stopped := false })
  free .sts (free .cmp (free .lds (k.onCtl (fun c =>
    { c with
      pc := c.tpc.toNat, loops := c.savedLoops, savedLoops := [], tstat := { c.tstat with inh := false },
      qcancelAt := if c.qcancelAt = some c.tpc.toNat then c.qcancelAt else none }))))

/-- R160: the faulting engine's command is abandoned when it is the one that runs, and the engine pops no further
command while INH = 1; a link failure does this to every engine (R314). -/
def Core.abandonFor (k : Core) (f : EngFault) : Core :=
  let one (e : Engine) (always : Bool) (r : Core) : Core :=
    let g := r.eng e
    let same := match g.cur with
      | some u => always || u.serial == f.serial
      | none => false
    (if same then r.abandon e else r).onEng e (fun g => { g with stopped := true, halted := g.halted && !same })
  match f.eng with
  | some e => one e false k
  | none => one .sts true (one .cmp true (one .lds true k))

/-- Waits that a trap or pre-emption ends, leaving the instruction to be run again (R160, R163, R236). -/
def Wait.interruptible : Wait → Bool
  | .none => true
  | .tokens => false
  | .sem _ _ => true
  | .semMet => false
  | .nibble => false
  | .event _ _ => true
  | .eventMet => false
  | .wfe _ => true
  | .disp _ => true
  | .qdrain => true
  | .qcancel => true
  | .exit => true
  | .slot _ _ => true
  | .message => false
  | .shadow => false
  | .deferred => false
  | .fullEmpty => false
  | .matrixLimit => false
  | .msettle _ => false
  | .mdecQueue => false
  | .overlap => false

/-- Whether an engine fault is to be taken now: one is pending, INH is 0, and CTL is at a boundary or in a wait that
a fault ends (R160). -/
def Core.faultDue (k : Core) : Bool := !k.faults.isEmpty && !k.ctl.tstat.inh && k.ctl.wait.interruptible

/-- The oldest engine fault is taken at CTL's boundary (R160). -/
def State.takeEngineFault (s : State) (c : CoreId) : State :=
  match (s.core c).faults with
  | [] => s
  | f :: fs =>
    let s := s.onCore c (fun k => { k with faults := fs }.abandonFor f)
    let k := (s.core c).ctl
    let s := if k.wait = .qcancel then s.onCore c (fun r => r.onCtl (fun k => { k with qcancelAt := some k.pc })) else s
    s.takeTrap c f.cause f.tval (srcStat (some f)) k.pc

/-! ### Outcomes of CTL words -/

/-- A CTL word's outcome: the state in which it retires, or its precise trap. -/
def ctlDone (s : State) (r : Except (Cause × DWord) State) : Out :=
  match r with
  | .ok t => .next t.retire
  | .error (c, v) => .next (s.ctlTrap c v)

/-- A CTL word that writes s[d] and can fail in no way. -/
def ctlWrite (s : State) (d : BitVec 5) (v : DWord) : Out := .next (s.setSreg d v).retire

/-- A CTL word whose access has failed: V = 0 goes to the shadow control context, which then lets the word run again
(R146); a tag mismatch also stops the world's TDI (R324); everything else traps with the address. -/
def ctlAccFault (s : State) (f : AccFault) (va : DWord) : Out :=
  match f with
  | .trap c => .next (s.ctlTrap c va)
  | .shadow ats =>
    if s.shlim = 0 then .next (s.ctlTrap .pageNotPresent va) else .next (s.awaitShadow .ctl .ctl va ats)
  | .tag w => .next ((s.tagError w).ctlTrap .eccUncorr va)

/-! ### Outcomes of engine words (R26) -/

/-- What the checks and captures of an engine word find, before any of its effects. -/
inductive Issue where
  /-- Every check passes. -/
  | go
  /-- A check fails: the tokens stay in their FIFOs. -/
  | fault (c : Cause) (tval : DWord)
  /-- A V = 0 fault: offered to the shadow control context, and the word runs again. -/
  | shadow (va : DWord) (ats : Bool)
  /-- A world's line fails its tag (R324). -/
  | tag (w : BitVec 4) (va : DWord)
  /-- The word holds its sequencer's issue. -/
  | hold (w : Wait)
  deriving DecidableEq, Repr, Inhabited

/-- An access fault as the finding of an engine word. -/
def AccFault.issue (f : AccFault) (va : DWord) : Issue :=
  match f with
  | .trap c => .fault c va
  | .shadow ats => .shadow va ats
  | .tag w => .tag w va

/-- The pushes of an engine's command whose hypothesis is refuted, or that was abandoned as marked, are not made. -/
def Core.dropSerial (k : Core) (e : Engine) : Core :=
  k.onEng e (fun g =>
    match g.cur with
    | some r => { g with pushq := g.pushq.filter (fun p => p.serial != r.serial) }
    | none => g)

/-- An engine word (R26): it waits for its tokens (a marked command that finds a FIFO empty is abandoned, R37), its
checks are made, its tokens are popped, a poisoned one faults DEP_POISON, and its effects take place. -/
def engWord (s : State) (t : Tok) (check : State → Issue) (effect : State → State) : Out :=
  let e := s.actEng
  let fs := popFifos e t
  if !(s.here).tokensPresent fs then
    if ((s.here).eng e).marked then .next (s.onHere (fun k => k.abandon e))
    else .next (s.onHere (fun k => k.setWait e.seqr .tokens))
  else
    match check s with
    | .fault c v => .next (s.engFault c v)
    | .shadow va ats =>
      if s.shlim = 0 then .next (s.engFault .pageNotPresent va) else .next (s.awaitShadow e.seqr (.word e) va ats)
    | .tag w va => .next ((s.tagError w).engFault .eccUncorr va)
    | .hold w => .next (s.onHere (fun k => k.setWait e.seqr w))
    | .go =>
      let popped := s.onHere (fun k => (k.popTokens fs).onEng e (fun g => { g with tok := t }))
      match (s.here).poisoned fs with
      | some f => .next (popped.engFault .depPoison (BitVec.ofNat 64 f.code))
      | none => .next (effect popped)

/-- A word that retires with its effect. -/
def engSimple (s : State) (t : Tok) (check : State → Issue) (effect : State → State) : Out :=
  engWord s t check (fun u => (effect u).onHere (fun k => k.engRetire s.actEng t))

/-- No check. -/
def noCheck : State → Issue := fun _ => .go

/-- A word that has waited after taking its tokens retires (R170, R212, R214, R229, R231). -/
def Core.finishWord (k : Core) (e : Engine) : Core := k.engRetire e (k.eng e).tok

end Sys2Proof.Machine
end

