-- ==== Sys2Proof/Machine/Operands.lean ====
section
/-!
DEFINITION. Operand forms: immediates and their extension (R127, R128), the W forms (R142), effective addresses
(R145), jump targets (R149), and the integer operations that several instructions share.
-/

namespace Sys2Proof.Machine

/-- A 16-bit immediate marked signed (R127). -/
def imm16s (i : BitVec 16) : DWord := i.signExtend 64

/-- A 16-bit immediate that is not (R127). -/
def imm16z (i : BitVec 16) : DWord := i.setWidth 64

/-- An operation of a given width on two operands. -/
abbrev BinOp := (n : Nat) → BitVec n → BitVec n → BitVec n

/-- R142's W: on bits [31:0] with the result sign-extended, or on all 64 bits. -/
def alu (w : Bool) (f : BinOp) (x y : DWord) : DWord :=
  if w then (f 32 (x.setWidth 32) (y.setWidth 32)).signExtend 64 else f 64 x y

/-- 0 or 1 of a width. -/
def bitv (n : Nat) (b : Bool) : BitVec n := BitVec.ofNat n (bit b)

/-- Leading zeros of a value of width n; n for zero (R142). -/
def clzNat (n v : Nat) : Nat := if v = 0 then n else n - 1 - Nat.log2 v

/-- Trailing zeros of a value of width n; n for zero (R142). -/
def ctzNat (n v : Nat) : Nat := ((List.range n).find? (fun i => v.testBit i)).getD n

/-- Set bits of a value of width n (R142). -/
def popNat (n v : Nat) : Nat := ((List.range n).filter (fun i => v.testBit i)).length

/-! The operations of R142. Shift amounts are the low bits of y: y mod the width. -/

def opAdd : BinOp := fun _ x y => x + y
def opSub : BinOp := fun _ x y => x - y
def opAnd : BinOp := fun _ x y => x &&& y
def opOr : BinOp := fun _ x y => x ||| y
def opXor : BinOp := fun _ x y => x ^^^ y
def opShl : BinOp := fun n x y => x <<< (y.toNat % n)
def opShr : BinOp := fun n x y => x >>> (y.toNat % n)
def opSra : BinOp := fun n x y => x.sshiftRight (y.toNat % n)
def opRol : BinOp := fun n x y => x.rotateLeft (y.toNat % n)
def opSlt : BinOp := fun n x y => bitv n (x.slt y)
def opSltu : BinOp := fun n x y => bitv n (x.ult y)
def opMin : BinOp := fun _ x y => if x.slt y then x else y
def opMax : BinOp := fun _ x y => if x.slt y then y else x
def opMinu : BinOp := fun _ x y => if x.ult y then x else y
def opMaxu : BinOp := fun _ x y => if x.ult y then y else x
def opClz : BinOp := fun n x _ => BitVec.ofNat n (clzNat n x.toNat)
def opCtz : BinOp := fun n x _ => BitVec.ofNat n (ctzNat n x.toNat)
def opPopc : BinOp := fun n x _ => BitVec.ofNat n (popNat n x.toNat)

/-! The operations of R144; a zero divisor gives quotient 0 and remainder x. -/

def opMul : BinOp := fun _ x y => x * y
def opDiv : BinOp := fun _ x y => if y = 0 then 0 else x.sdiv y
def opDivu : BinOp := fun _ x y => if y = 0 then 0 else x / y
def opRem : BinOp := fun _ x y => if y = 0 then x else x.srem y
def opRemu : BinOp := fun _ x y => if y = 0 then x else x % y

/-- Bits [127:64] of the signed product (R144). -/
def mulHigh (x y : DWord) : DWord := ((x.signExtend 128 * y.signExtend 128) >>> 64).setWidth 64

/-- Bits [127:64] of the unsigned product (R144). -/
def mulHighU (x y : DWord) : DWord := ((x.setWidth 128 * y.setWidth 128) >>> 64).setWidth 64

/-- Whether a division's divisor is zero at its width (R144). -/
def divZero (w : Bool) (y : DWord) : Bool := if w then y.setWidth 32 == 0 else y == 0

/-- The effective address of a load, store or CACHE operation (R145). -/
def effAddr (base : DWord) (imm : BitVec 16) : DWord := base + imm16s imm

/-- A branch or jump offset in words from a word (R128): the target, an integer. -/
def jumpTarget (pc : Nat) (off : Int) : Int := pc + off

/-- A branch target outside the CTL memory (R128). -/
def targetBad (t : Int) : Bool := t < 0 || 16383 < t

/-- Sign- or zero-extension of n loaded bytes (R145). -/
def extendLoad (signed : Bool) (bs : List Byte) : DWord :=
  let v := BitVec.ofNat (8 * bs.length) (leNat bs)
  if signed then v.signExtend 64 else v.setWidth 64

/-- The low n bytes of a register, as a store writes them (R145). -/
def storeBytes (n : Nat) (v : DWord) : List Byte := leBytes n v.toNat

/-! ### Lane operands of CMP are in Machine/Lanes.lean -/

end Sys2Proof.Machine
end

