-- ==== Sys2Proof/Machine/Flags.lean ====
section
/-!
DEFINITION. Sticky flags: FPSTAT's two groups (R75, R76) and CSTAT.DZ (R140, R144).
-/

namespace Sys2Proof.Machine

/-- FPSTAT with the flags of a CMP vector operation set, bits [4:0] (R75). -/
def setVFlags (st : BitVec 10) (f : FFlags) : BitVec 10 := st ||| BitVec.ofNat 10 f.code

/-- FPSTAT with the flags of a matrix step or MDRAIN set, bits [9:5]; MDZ is always 0 (R75). -/
def setMFlags (st : BitVec 10) (f : FFlags) : BitVec 10 :=
  st ||| BitVec.ofNat 10 (2 ^ 5 * ({ f with dz := false } : FFlags).code)

/-- The flags of a retiring vector word (R76). -/
def Core.raiseV (k : Core) (f : FFlags) : Core := k.onCtl (fun c => { c with fpstat := setVFlags c.fpstat f })

/-- The flags of a completing matrix word (R76). -/
def Core.raiseM (k : Core) (f : FFlags) : Core := k.onCtl (fun c => { c with fpstat := setMFlags c.fpstat f })

/-- CSTAT.DZ is set when a divisor was zero (R144). -/
def State.noteDiv (s : State) (zero : Bool) : State := if zero then s.onCtl (fun k => { k with dz := true }) else s

end Sys2Proof.Machine
end

