-- ==== Sys2Proof/Machine/Control.lean ====
section
/-!
DEFINITION. CTL's control flow (R149, R150), its trap instructions (R161), FENCE and WFE (R162), and the steps that end
a WFE or deliver an engine fault.
-/

namespace Sys2Proof.Machine

/-- The word at CTL's PC, as TVAL reports it (R312). -/
def State.ctlWord (s : State) : DWord := (Cells.read 0 (s.here).imemCtl (s.here).ctl.pc).setWidth 64

/-- A branch whose comparison holds (R149): PC + off16, or ILLEGAL_INSTR with the target when that lies outside. -/
def branch (taken : Bool) (off : BitVec 16) (s : State) : Out :=
  if taken then
    let t := jumpTarget (s.here).ctl.pc off.toInt
    if targetBad t then .next (s.ctlTrap .illegalInstr (BitVec.ofInt 64 t)) else .next (s.onCtl (fun k => k.jump t.toNat))
  else .next s.retire

/-- BEQ (R149). -/
def execBeq (a b : BitVec 5) (off : BitVec 16) (s : State) : Out := branch (s.sreg a == s.sreg b) off s

/-- BNE (R149). -/
def execBne (a b : BitVec 5) (off : BitVec 16) (s : State) : Out := branch (s.sreg a != s.sreg b) off s

/-- BLT (R149): signed less. -/
def execBlt (a b : BitVec 5) (off : BitVec 16) (s : State) : Out := branch ((s.sreg a).slt (s.sreg b)) off s

/-- BGE (R149): signed not less. -/
def execBge (a b : BitVec 5) (off : BitVec 16) (s : State) : Out := branch (!(s.sreg a).slt (s.sreg b)) off s

/-- BLTU (R149): unsigned less. -/
def execBltu (a b : BitVec 5) (off : BitVec 16) (s : State) : Out := branch ((s.sreg a).ult (s.sreg b)) off s

/-- BGEU (R149): unsigned not less. -/
def execBgeu (a b : BitVec 5) (off : BitVec 16) (s : State) : Out := branch (!(s.sreg a).ult (s.sreg b)) off s

/-- JAL (R149): s31 := PC + 1 unless the target traps (R128). -/
def execJal (off : BitVec 26) (s : State) : Out :=
  let pc := (s.here).ctl.pc
  let t := jumpTarget pc off.toInt
  if targetBad t then .next (s.ctlTrap .illegalInstr (BitVec.ofInt 64 t))
  else .next ((s.setSreg 31 (BitVec.ofNat 64 (pc + 1))).onCtl (fun k => k.jump t.toNat))

/-- JALR (R149): the target is (s[a] + imm16) mod 2^64, computed before s[d] is written. -/
def execJalr (d a : BitVec 5) (imm : BitVec 16) (s : State) : Out :=
  let t := s.sreg a + imm16s imm
  if 16383 < t.toNat then .next (s.ctlTrap .illegalInstr t)
  else .next ((s.setSreg d (BitVec.ofNat 64 ((s.here).ctl.pc + 1))).onCtl (fun k => k.jump t.toNat))

/-- LOOP (R150). -/
def execLoop (a : BitVec 5) (imm : BitVec 16) (s : State) : Out :=
  let k := (s.here).ctl
  if loopBad k.pc imm.toNat 16383 k.loops then .next (s.ctlTrap .illegalInstr s.ctlWord)
  else
    let r := loopStart k.pc imm.toNat (s.sreg a).toNat k.loops
    .next (s.onCtl (fun k => { k with pc := r.1, loops := r.2 }))

/-- A trap whose resume word is the next word (R160). -/
def trapNext (cause : Cause) (tval : DWord) (s : State) : Out :=
  let t := s.retire
  .next (t.takeTrap s.actCore cause tval { } (t.here).ctl.pc)

/-- TRAP (R161). -/
def execTrap (a : BitVec 5) (s : State) : Out := trapNext .soft (s.sreg a) s

/-- BRK (R161). -/
def execBrk (s : State) : Out := trapNext .brk 0 s

/-- RETT (R161): ILLEGAL_INSTR unless a handler runs. -/
def execRett (s : State) : Out :=
  if (s.here).ctl.tstat.inh then .next (s.onHere Core.returnTrap) else .next (s.ctlTrap .illegalInstr s.ctlWord)

/-- FENCE (R162): its turn comes only when no access of CTL that it orders is under way (`State.pending`, R261, log 10);
then it has nothing more to wait for. -/
def execFence (_scope : BitVec 5) (s : State) : Out := .next s.retire

/-- WFE (R162): issue halts. -/
def execWfe (s : State) : Out :=
  .next (s.onCtl (fun k => { k with wait := .wfe s.clock, woken := false }))

/-- A WFE of core c ends. -/
def endWfe (s : State) (c : CoreId) : State := s.onCore c (fun k => k.onCtl (fun x => { x.advance with wait := .none }))

/-- Since when CTL of a core has been in WFE. -/
def wfeSince (k : Core) : Option Nat :=
  match k.ctl.wait with
  | .wfe n => some n
  | .none => none
  | .tokens => none
  | .sem _ _ => none
  | .semMet => none
  | .nibble => none
  | .event _ _ => none
  | .eventMet => none
  | .disp _ => none
  | .qdrain => none
  | .qcancel => none
  | .exit => none
  | .slot _ _ => none
  | .message => none
  | .shadow => none
  | .deferred => none
  | .fullEmpty => none
  | .matrixLimit => none
  | .msettle _ => none
  | .mdecQueue => none
  | .overlap => none

/-- WFE_WAKE (R162): a semaphore changed, an engine retired or faulted, or the named event was incremented. -/
def execWfeWake (c : CoreId) (s : State) : Out :=
  if (wfeSince (s.core c)).isSome && (s.core c).ctl.woken && !(s.core c).stopped then .next (endWfe s c) else .next s

/-- Clocks after which WFE ends by itself (R162). -/
def wfeClocks : Nat := 65536

/-- WFE_TIMEOUT (R162). -/
def execWfeTimeout (c : CoreId) (s : State) : Out :=
  match wfeSince (s.core c) with
  | some n => if n + wfeClocks ≤ s.clock && !(s.core c).stopped then .next (endWfe s c) else .next s
  | none => .next s

/-- TRAP_ENTRY (R160): an engine fault is taken at CTL's next boundary, or at once in a wait. -/
def execTrapEntry (c : CoreId) (s : State) : Out :=
  if (s.core c).faultDue && !(s.core c).stopped then .next (s.takeEngineFault c) else .next s

/-- ILLEGAL_INSTR_FETCH (R125, R24, R139): the word at the sequencer that runs decodes as no instruction, or its
address lies beyond the memory; CTL traps precisely, an engine stops with the fault. -/
def execIllegalInstrFetch (reserved : Bool) (tval : DWord) (s : State) : Out :=
  let cause := if reserved then Cause.reservedField else Cause.illegalInstr
  match s.actSeq with
  | .ctl => .next (s.ctlTrap cause tval)
  | .lds => .next (s.engFault cause tval)
  | .cmp => .next (s.engFault cause tval)
  | .sts => .next (s.engFault cause tval)

end Sys2Proof.Machine
end

