-- ==== Sys2Proof/Machine/Csr.lean ====
section
/-!
DEFINITION. CTL's control registers: their layouts (R13, R39, R75, R140), CSRD and CSWR (R141), QSTATRD (R153).
-/

namespace Sys2Proof.Machine

/-- min(n, 0xFFFF): a pending count of QSTAT (R39). -/
def sat16 (n : Nat) : Nat := min n 0xFFFF

/-- QSTAT (R39). -/
def Core.qstat (k : Core) : DWord :=
  let g (e : Engine) := k.eng e
  BitVec.ofNat 64 (sat16 (g .lds).pending + 2 ^ 16 * sat16 (g .cmp).pending + 2 ^ 32 * sat16 (g .sts).pending
    + 2 ^ 48 * bit (g .lds).abandoned + 2 ^ 49 * bit (g .cmp).abandoned + 2 ^ 50 * bit (g .sts).abandoned
    + 2 ^ 52 * bit (g .lds).poison + 2 ^ 53 * bit (g .cmp).poison + 2 ^ 54 * bit (g .sts).poison
    + 2 ^ 55 * bit (!k.idle .lds) + 2 ^ 56 * bit (!k.idle .cmp) + 2 ^ 57 * bit (!k.idle .sts))

/-- Clears the abandoned and poison bits of an engine that a mask names (R39). -/
def clearQbits (ab po : Bool) (g : EngCtl) : EngCtl :=
  { g with abandoned := g.abandoned && !ab, poison := g.poison && !po }

/-- A write of 1 to QSTAT's W1C bits clears them (R39). -/
def Core.clearQstat (k : Core) (m : DWord) : Core :=
  let one (e : Engine) (i : Nat) (r : Core) : Core := r.onEng e (clearQbits (m.getLsbD (48 + i)) (m.getLsbD (52 + i)))
  one .sts 2 (one .cmp 1 (one .lds 0 k))

/-- CYCLE (R140). -/
def State.cycle (s : State) : DWord := BitVec.ofNat 64 ((s.here).ctl.cycleSaved + (s.clock - (s.here).ctl.cycleBase))

/-- COREID of a core (R140). -/
def coreIdReg (c : CoreId) : DWord := BitVec.ofNat 64 (c.toNat + 2 ^ 8 * (c.toNat / 32) + 2 ^ 10 * (c.toNat % 32 / 4))

/-- TASKID (R140). -/
def State.taskIdReg (s : State) : DWord :=
  BitVec.ofNat 64 ((s.here).theTask.taskid.toNat + 2 ^ 32 * (s.here).theTask.slot.toNat)

/-- TVEC (R140). -/
def Ctl.tvec (k : Ctl) : DWord := BitVec.ofNat 64 (k.tvecPc.toNat + 2 ^ 63 * bit k.tvecEn)

/-- What numbers of control registers a task meets (R141). -/
inductive CsrKind where
  | defined | undefined | shadow
  deriving DecidableEq, Repr, Inhabited

/-- R141's ranges. -/
def csrKind (n : Nat) : CsrKind :=
  if 0x800 ≤ n then .shadow
  else if (0x002 ≤ n && n ≤ 0x00F) || (0x029 ≤ n && n ≤ 0x02F) || (0x035 ≤ n && n ≤ 0x03F) || decide (0x048 ≤ n) then .undefined
  else .defined

/-- The value of a control register, reserved bits zero (R140, R141); 0 for numbers that are not defined. -/
def State.csrRead (s : State) (n : Nat) : DWord :=
  let k := (s.here).ctl
  if 0x010 ≤ n && n < 0x018 then ((k.lvl[n - 0x010]?).getD 0).setWidth 64
  else if 0x018 ≤ n && n < 0x020 then ((k.ext[n - 0x018]?).getD 0).setWidth 64
  else if 0x040 ≤ n && n < 0x048 then (s.caps[n - 0x040]?).getD 0
  else
    match n with
    | 0x000 => s.cycle
    | 0x001 => s.taskIdReg
    | 0x020 => k.hcur.setWidth 64
    | 0x021 => k.accn.setWidth 64
    | 0x022 => k.jsel.setWidth 64
    | 0x023 => k.qtag.setWidth 64
    | 0x024 => (s.here).qstat
    | 0x025 => s.devid.setWidth 64
    | 0x026 => coreIdReg s.actCore
    | 0x027 => k.fpstat.setWidth 64
    | 0x028 => BitVec.ofNat 64 (bit k.dz)
    | 0x030 => k.tcause.setWidth 64
    | 0x031 => k.tpc.setWidth 64
    | 0x032 => k.tval
    | 0x033 => k.tstat.pack
    | 0x034 => k.tvec
    | _ => 0

/-- TSTAT's RW fields from a written value; INH is RO (R140). -/
def TStat.write (t : TStat) (v : DWord) : TStat :=
  { eng := v.extractLsb' 0 2, inh := t.inh, waddr := v.extractLsb' 4 15, frag := v.extractLsb' 19 8,
    tag := v.extractLsb' 27 16, hyp := v.extractLsb' 43 8 }

/-- A write to a control register under its fields' access codes (R4, R140, R141); registers whose fields are all RO
ignore it. -/
def Core.csrWrite (k : Core) (n : Nat) (v : DWord) : Core :=
  match n with
  | 0x021 => k.onCtl (fun c => { c with accn := v.setWidth 32 })
  | 0x022 => k.onCtl (fun c => { c with jsel := v.setWidth 8 })
  | 0x023 => k.onCtl (fun c => { c with qtag := v.setWidth 16 })
  | 0x024 => k.clearQstat v
  | 0x027 => k.onCtl (fun c => { c with fpstat := c.fpstat &&& ~~~(v.setWidth 10) })
  | 0x028 => k.onCtl (fun c => { c with dz := c.dz && !v.getLsbD 0 })
  | 0x030 => k.onCtl (fun c => { c with tcause := v.setWidth 8 })
  | 0x031 => k.onCtl (fun c => { c with tpc := v.setWidth 14 })
  | 0x032 => k.onCtl (fun c => { c with tval := v })
  | 0x033 => k.onCtl (fun c => { c with tstat := c.tstat.write v })
  | 0x034 => k.onCtl (fun c => { c with tvecPc := v.setWidth 14, tvecEn := v.getLsbD 63 })
  | _ => k

/-- A control register access whose number R141 refuses. -/
def csrTrap (n : Nat) (s : State) : State :=
  match csrKind n with
  | .shadow => s.ctlTrap .priv (BitVec.ofNat 64 n)
  | .undefined => s.ctlTrap .illegalInstr s.ctlWord
  | .defined => s

/-- CSRD (R141). -/
def execCsrd (d : BitVec 5) (csr : BitVec 12) (s : State) : Out :=
  if csrKind csr.toNat = .defined then ctlWrite s d (s.csrRead csr.toNat) else .next (csrTrap csr.toNat s)

/-- CSWR (R141). -/
def execCswr (a : BitVec 5) (csr : BitVec 12) (s : State) : Out :=
  if csrKind csr.toNat = .defined then .next (s.onHere (fun k => k.csrWrite csr.toNat (s.sreg a))).retire
  else .next (csrTrap csr.toNat s)

/-- QSTATRD (R153): reads QSTAT and clears the abandoned and poison bits that it returned as 1. -/
def execQstatrd (d : BitVec 5) (s : State) : Out :=
  let v := (s.here).qstat
  ctlWrite (s.onHere (fun k => k.clearQstat v)) d v

end Sys2Proof.Machine
end

