-- ==== Sys2Proof/Machine/Queue.lean ====
section
/-!
DEFINITION. Dispatch and the command queues (R18 to R23, R151, R153), cancellation (R37), the end of a task (R17), and
the steps that end their waits.
-/

namespace Sys2Proof.Machine

/-! ### DISP and DISPX -/

/-- s[g + i], or zero beyond s31 (R18). -/
def Ctl.argReg (k : Ctl) (g : BitVec 5) (i : Nat) : DWord :=
  if g.toNat + i < 32 then k.reg (BitVec.ofNat 5 (g.toNat + i)) else 0

/-- The command that DISP captures (R18). -/
def Ctl.command (k : Ctl) (frag : BitVec 8) (n g : BitVec 5) : Cmd :=
  { args := #v[k.argReg g 0, k.argReg g 1, k.argReg g 2, k.argReg g 3], count := k.reg n, frag := frag, hyp := k.hcur,
    tag := k.qtag }

/-- The command enters the on-chip entries. -/
def Core.enqueue (k : Core) (e : Engine) (c : Cmd) : Core := k.onEng e (fun g => { g with queue := g.queue ++ [c] })

/-- The command enters the ring. -/
def Core.enqueueRing (k : Core) (e : Engine) (c : Cmd) : Core :=
  k.onEng e (fun g => { g with ring := g.ring ++ [(g.ringTail, c)], ringTail := g.ringTail + 1 })

/-- R19: where a command goes; DISP stalls when there is no place. -/
def place (e : Engine) (c : Cmd) (s : State) : Out :=
  let g := (s.here).eng e
  let t := (s.here).theTask
  if g.queue.length < onChip && g.ring.isEmpty then .next (s.onHere (fun k => k.enqueue e c)).retireWait
  else if g.ringRoom t.ringSize then
    let va := t.ringAddr e g.ringTail
    match s.store (s.whoOf s.actCore 0) va.toNat c.bytes with
    | .ok u => .next (u.onHere (fun k => k.enqueueRing e c)).retireWait
    | .error (.shadow ats, _) =>
      if s.shlim = 0 then .next (s.ctlTrap .queueSpillFault va) else .next (s.awaitShadow .ctl .ring va ats)
    | .error (.tag w, _) => .next ((s.tagError w).ctlTrap .queueSpillFault va)
    | .error (.trap _, _) => .next (s.ctlTrap .queueSpillFault va)
  else .next (s.onHere (fun k => k.setWait .ctl (.disp e)))

/-- DISP and DISPX (R151): the jump-table entry is checked (R22), then the command is pushed. -/
def dispatch (e : Engine) (frag : BitVec 8) (n g : BitVec 5) (s : State) : Out :=
  if (s.here).fragValid e frag then place e ((s.here).ctl.command frag n g) s
  else .next (s.ctlTrap .illegalInstr s.ctlWord)

/-- DISP (R151). -/
def execDisp (eng : Engine) (frag : BitVec 8) (n g : BitVec 5) (s : State) : Out := dispatch eng frag n g s

/-- DISPX (R151): the fragment comes from JSEL. -/
def execDispx (eng : Engine) (n g : BitVec 5) (s : State) : Out := dispatch eng (s.here).ctl.jsel n g s

/-- DISP_PLACE (R19): a stalled DISP or DISPX issues once there is room, with the registers and the JSEL of that
moment (R151). -/
def execDispPlace (c : CoreId) (s : State) : Out :=
  match (s.core c).ctl.wait with
  | .disp e =>
    let g := (s.core c).eng e
    if (s.core c).stopped then .next s
    else if (g.queue.length < onChip && g.ring.isEmpty) || g.ringRoom (s.core c).theTask.ringSize then
      let u := { s with actCore := c, actSeq := .ctl }
      match decodeWord .ctl (Cells.read 0 (s.core c).imemCtl (s.core c).ctl.pc) with
      | .ok (.disp eng frag n r) => dispatch eng frag n r u
      | .ok (.dispx eng n r) => dispatch eng (u.here).ctl.jsel n r u
      | _ => .next s
    else .next s
  | _ => .next s

/-- Whether a core's task is an orphan: its HCUR is REFUTED (R277). -/
def State.orphan (s : State) (c : CoreId) : Bool :=
  let k := s.core c
  k.ctl.hcur != 0 && (s.ctx k.theTask.ctx).isRefuted k.ctl.hcur

/-- Nothing of a core's task moves: it runs none, its world's seal has begun (R327), or it is an orphan (R277). -/
def State.halts (s : State) (c : CoreId) : Bool := (s.core c).still || s.orphan c

/-- Whether an engine's command carries a hypothesis that is REFUTED: at its next word boundary it is abandoned (R277). -/
def State.runRefuted (s : State) (c : CoreId) (e : Engine) : Bool :=
  ((s.core c).eng e).hyp != 0 && (s.ctx (s.core c).theTask.ctx).isRefuted ((s.core c).eng e).hyp

/-- Whether a word of an engine that waits may go on: the core does (R66, R327), its task is no orphan, and the command is
not to be abandoned (R277). -/
def State.engGoes (s : State) (c : CoreId) (e : Engine) : Bool := !s.halts c && !(s.core c).hold && !s.runRefuted c e

/-- COMMAND_POP (R20, R23): an idle engine pops its oldest command and begins it; a command whose hypothesis is refuted
is discarded, and an orphan's engines pop nothing (R277); a stopped engine pops nothing (R160); the clocks may be held
(R66). -/
def execCommandPop (c : CoreId) (e : Engine) (s : State) : Out :=
  let k := s.core c
  let g := k.eng e
  if s.halts c || g.cur.isSome || g.stopped || g.held || k.hold then .next s
  else
    match g.queue with
    | [] => .next (s.refill c e onChip)
    | cmd :: rest =>
      let popped := k.onEng e (fun g => { g with queue := rest })
      let begun := if cmd.hyp != 0 && (s.ctx k.theTask.ctx).isRefuted cmd.hyp then popped else popped.startCmd e cmd
      .next ((s.setCore c begun).refill c e onChip)

/-! ### QCANCEL, QDRAIN -/

/-- Phase 1 of QCANCEL on an engine (R37). The tail moves back over entries that have been discarded. -/
def EngCtl.cancel (g : EngCtl) (t : BitVec 16) : EngCtl :=
  let ring := g.ring.filter (fun c => decide (c.2.tag.toNat < t.toNat))
  { g with
    queue := g.queue.filter (fun c => decide (c.tag.toNat < t.toNat))
    ring := ring
    ringTail := (ring.getLast?.map (fun c => c.1 + 1)).getD g.ringTail }

/-- The FIFOs that a word waits on, from its token bits (R26, R132, R137). -/
def wordPops (e : Engine) (w : Word) : List Fifo :=
  match e with
  | .lds => if flag w 25 then [.ctol] else []
  | .cmp => (if flag w 29 then [.ltoc] else []) ++ (if flag w 28 then [.stoc] else [])
  | .sts => if flag w 26 then [.ctos] else []

/-- Phase 2 of QCANCEL on an engine (R37): the running command is marked and its pushes are dropped; a pop that already
waits abandons it, unless its tokens have come. -/
def Core.mark (k : Core) (e : Engine) : Core :=
  let k := (k.dropSerial e).onEng e (fun g => { g with marked := g.cur.isSome })
  if (k.eng e).wait = .tokens && !k.tokensPresent (wordPops e (k.engWordBits e)) then k.abandon e else k

/-- Phase 4 of QCANCEL (R37). -/
def Core.clearFifos (k : Core) : Core := { k with ltoc := [], ctol := [], ctos := [], stoc := [] }

/-- Whether every access that the engines of a core's task have issued has been performed: their completions carry them
(R256, R261). -/
def State.engQuiet (s : State) (c : CoreId) : Bool :=
  let uid := (s.core c).theTask.uid
  s.posted.all (fun p => !p.who.agent.ofTask uid || p.who.agent == .seq uid .ctl)

/-- The last phases of QCANCEL: when every engine is idle the FIFOs are cleared and CTL goes on. DESIGN CHOICE (log 64): a
push of a command that has retired, still waiting for room in its FIFO, keeps no engine busy; it is made once the FIFOs
are empty and stands in them. -/
def qcancelEnd (s : State) : Out :=
  if (s.here).allIdle && s.engQuiet s.actCore then .next (s.onHere Core.clearFifos).retireWait
  else .next (s.onHere (fun k => k.setWait .ctl .qcancel))

/-- QCANCEL (R37, R153); one that a trap or pre-emption interrupted goes on with phase 3 (R160, R163). -/
def execQcancel (a : BitVec 5) (s : State) : Out :=
  if (s.here).ctl.qcancelAt = some (s.here).ctl.pc then
    qcancelEnd (s.onCtl (fun k => { k with qcancelAt := none }))
  else
    let t := (s.sreg a).setWidth 16
    let u := s.onHere (fun k =>
      let k := ((k.onEng .lds (fun g => g.cancel t)).onEng .cmp (fun g => g.cancel t)).onEng .sts (fun g => g.cancel t)
      ((k.mark .lds).mark .cmp).mark .sts)
    qcancelEnd (((u.refill u.actCore .lds onChip).refill u.actCore .cmp onChip).refill u.actCore .sts onChip)

/-- QCANCEL_COMPLETE (R37). -/
def execQcancelComplete (c : CoreId) (s : State) : Out :=
  if (s.core c).ctl.wait = .qcancel && !(s.core c).stopped then qcancelEnd { s with actCore := c, actSeq := .ctl } else .next s

/-- Whether QDRAIN may retire (R153). -/
def State.mayDrain (s : State) (c : CoreId) : Bool := (s.core c).drained && s.engQuiet c

/-- QDRAIN (R153). -/
def execQdrain (s : State) : Out :=
  if s.mayDrain s.actCore then .next s.retire else .next (s.onHere (fun k => k.setWait .ctl .qdrain))

/-- QDRAIN_COMPLETE (R153). -/
def execQdrainComplete (c : CoreId) (s : State) : Out :=
  if (s.core c).ctl.wait = .qdrain && s.mayDrain c && !(s.core c).stopped then .next ({ s with actCore := c, actSeq := .ctl }.retireWait)
  else .next s

/-! ### EXIT -/

/-- Whether EXIT may retire (R17): all queues are empty, every engine is idle, and no access of the task is under way. -/
def State.mayExit (s : State) (c : CoreId) : Bool := (s.core c).drained && s.taskQuiet (s.core c).theTask.uid

/-- EXIT (R17, R156): the task ends once all queues are empty and every engine is idle. -/
def execExit (s : State) : Out :=
  if s.mayExit s.actCore then .next (s.endTask s.actCore .exited) else .next (s.onHere (fun k => k.setWait .ctl .exit))

/-- TASK_END (R17). -/
def execTaskEnd (c : CoreId) (s : State) : Out :=
  if (s.core c).ctl.wait = .exit && s.mayExit c && !(s.core c).stopped then .next (s.endTask c .exited) else .next s

end Sys2Proof.Machine
end

