-- ==== Sys2Proof/Machine/Regs.lean ====
section
/-!
DEFINITION. Which registers a word names, and which words release (R256, R261): a word waits for loads that are under way
into its registers, and a release for every earlier access of its agent.
-/

namespace Sys2Proof.Machine

/-- Four registers from one on, up to the last. -/
def quad (g : BitVec 5) : List (BitVec 5) := ([0, 1, 2, 3].filter (fun i => g.toNat + i < 32)).map (fun i => BitVec.ofNat 5 (g.toNat + i))

/-- The vector register that an operand is. -/
def vsrcRegs : VSrc → List (BitVec 5)
  | .v r => [r]
  | .k _ => []

end Sys2Proof.Machine

namespace Sys2Proof

open Machine

/-- The scalar registers that a word of CTL reads or writes, and the vector registers of a word of CMP. -/
def Instr.regs : Instr → List (BitVec 5)
  | .add d a b _ => [d, a, b]
  | .sub d a b _ => [d, a, b]
  | .and d a b _ => [d, a, b]
  | .or d a b _ => [d, a, b]
  | .xor d a b _ => [d, a, b]
  | .shl d a b _ => [d, a, b]
  | .shr d a b _ => [d, a, b]
  | .sra d a b _ => [d, a, b]
  | .rol d a b _ => [d, a, b]
  | .slt d a b _ => [d, a, b]
  | .sltu d a b _ => [d, a, b]
  | .min d a b _ => [d, a, b]
  | .max d a b _ => [d, a, b]
  | .minu d a b _ => [d, a, b]
  | .maxu d a b _ => [d, a, b]
  | .clz d a _ => [d, a]
  | .ctz d a _ => [d, a]
  | .popc d a _ => [d, a]
  | .addi d a _ => [d, a]
  | .slti d a _ => [d, a]
  | .sltiu d a _ => [d, a]
  | .andi d a _ => [d, a]
  | .ori d a _ => [d, a]
  | .xori d a _ => [d, a]
  | .shli d a _ _ => [d, a]
  | .shri d a _ _ => [d, a]
  | .srai d a _ _ => [d, a]
  | .roli d a _ _ => [d, a]
  | .lui d _ => [d]
  | .lih d _ => [d]
  | .mul d a b _ => [d, a, b]
  | .mulh d a b => [d, a, b]
  | .mulhu d a b => [d, a, b]
  | .div d a b _ => [d, a, b]
  | .divu d a b _ => [d, a, b]
  | .rem d a b _ => [d, a, b]
  | .remu d a b _ => [d, a, b]
  | .ldb d a _ => [d, a]
  | .ldbu d a _ => [d, a]
  | .ldh d a _ => [d, a]
  | .ldhu d a _ => [d, a]
  | .ldw d a _ => [d, a]
  | .ldwu d a _ => [d, a]
  | .ldd d a _ => [d, a]
  | .stb b a _ => [b, a]
  | .sth b a _ => [b, a]
  | .stw b a _ => [b, a]
  | .std b a _ => [b, a]
  | .amoadd d a b _ _ => [d, a, b]
  | .amoand d a b _ _ => [d, a, b]
  | .amoor d a b _ _ => [d, a, b]
  | .amoxor d a b _ _ => [d, a, b]
  | .amomin d a b _ _ => [d, a, b]
  | .amomax d a b _ _ => [d, a, b]
  | .amominu d a b _ _ => [d, a, b]
  | .amomaxu d a b _ _ => [d, a, b]
  | .amoswap d a b _ _ => [d, a, b]
  | .amocas d a b _ _ => [d, a, b]
  | .amofadd d a b _ _ => [d, a, b]
  | .amonswap d a b _ _ => [d, a, b]
  | .cwb a _ => [a]
  | .cinv a _ => [a]
  | .cwbinv a _ => [a]
  | .cpref a _ => [a]
  | .beq a b _ => [a, b]
  | .bne a b _ => [a, b]
  | .blt a b _ => [a, b]
  | .bge a b _ => [a, b]
  | .bltu a b _ => [a, b]
  | .bgeu a b _ => [a, b]
  | .jal _ => [31]
  | .jalr d a _ => [d, a]
  | .loop a _ => [a]
  | .disp _ _ n g => n :: quad g
  | .dispx _ n g => n :: quad g
  | .qcancel a => [a]
  | .qstatrd d => [d]
  | .semadd a _ => [a]
  | .semwait a _ => [a]
  | .rflag d a _ => [d, a]
  | .mflag d a _ => [d, a, a + 1]
  | .spawn a => [a]
  | .waitev a b => [a, b]
  | .sigev a b => [a, b]
  | .hopen d a => [d, a]
  | .hwin d a => [d, a]
  | .hset a => [a]
  | .hresolve a _ => [a]
  | .hcommit a b => [a, b]
  | .hstat d a => [d, a]
  | .gload a _ => [a]
  | .gparam a _ => quad a
  | .palloc d a => [d, a]
  | .pfree a => [a]
  | .tltset d a b => [d, a, b]
  | .tltuse a => [a]
  | .mapw _ a b => [a, b]
  | .csrd d _ => [d]
  | .cswr a _ => [a]
  | .trap a => [a]
  | .vadd _ _ d a b => d :: a :: vsrcRegs b
  | .vsub _ _ d a b => d :: a :: vsrcRegs b
  | .vmul _ _ d a b => d :: a :: vsrcRegs b
  | .vmulh _ _ d a b => d :: a :: vsrcRegs b
  | .vfma _ _ d a b => d :: a :: vsrcRegs b
  | .vfms _ _ d a b => d :: a :: vsrcRegs b
  | .vmin _ _ d a b => d :: a :: vsrcRegs b
  | .vmax _ _ d a b => d :: a :: vsrcRegs b
  | .vabs _ _ d a => [d, a]
  | .vneg _ _ d a => [d, a]
  | .vdiv _ _ d a b => d :: a :: vsrcRegs b
  | .vsqrt _ _ d a => [d, a]
  | .vrcp _ _ d a => [d, a]
  | .vrsq _ _ d a => [d, a]
  | .vexp2 _ _ d a => [d, a]
  | .vlog2 _ _ d a => [d, a]
  | .vand _ _ d a b => d :: a :: vsrcRegs b
  | .vor _ _ d a b => d :: a :: vsrcRegs b
  | .vxor _ _ d a b => d :: a :: vsrcRegs b
  | .vnot _ _ d a => [d, a]
  | .vshl _ _ d a b => d :: a :: vsrcRegs b
  | .vshr _ _ d a b => d :: a :: vsrcRegs b
  | .vsra _ _ d a b => d :: a :: vsrcRegs b
  | .vfshl _ _ d a b => d :: a :: vsrcRegs b
  | .vfshr _ _ d a b => d :: a :: vsrcRegs b
  | .vclz _ _ d a => [d, a]
  | .vpopc _ _ d a => [d, a]
  | .vsel _ _ d a b => d :: a :: vsrcRegs b
  | .vmov _ _ d a => [d, a]
  | .vcvt _ _ d a _ => [d, a]
  | .vcmpeq _ _ _ a b => a :: vsrcRegs b
  | .vcmplt _ _ _ a b => a :: vsrcRegs b
  | .vcmple _ _ _ a b => a :: vsrcRegs b
  | .vcmpne _ _ _ a b => a :: vsrcRegs b
  | .vadds _ _ d a b => d :: a :: vsrcRegs b
  | .vsubs _ _ d a b => d :: a :: vsrcRegs b
  | .vredsum _ _ d a => [d, a]
  | .vredmax _ _ d a => [d, a]
  | .vredmin _ _ d a => [d, a]
  | .vscan _ _ d a => [d, a]
  | .vscanx _ _ d a => [d, a]
  | .vbcast _ _ d a b => d :: a :: vsrcRegs b
  | .viota _ _ d => [d]
  | .vaccept _ _ d a b => d :: a :: vsrcRegs b
  | .vfirst _ _ d _ => [d]
  | .vhash _ _ d a b => d :: a :: vsrcRegs b
  | .vunif _ _ d a => [d, a]
  | .vld _ _ v _ _ _ => [v]
  | .vst _ _ v _ _ _ => [v]
  | .vldi _ _ v _ _ _ => [v]
  | .vsti _ _ v _ _ _ => [v]
  | .vstu _ _ v _ _ _ => [v]
  | .vgath _ _ v vi _ _ => [v, vi]
  | .vscat _ _ v vi _ _ => [v, vi]
  | .vpart _ _ v vi _ => [v, vi]
  | .vperm _ _ v vi => [v, vi]
  | .vldb _ _ v _ _ _ => [v]
  | .vli _ d _ => [d]
  | .histrd _ d _ _ => [d]
  | .qdrain | .exit | .gfree _ | .unmapw _ | .rett | .brk | .fence _ | .wfe | .xferNop _ | .xferEnd _
  | .copy _ _ _ _ _ _ _ | .gath _ _ _ _ _ _ _ | .scat _ _ _ _ _ _ _ | .boxld _ _ _ | .aadd _ _ _ _ | .ali _ _ _
  | .amov _ _ _ | .xferSemwait _ _ _ | .xferSemadd _ _ _ | .loopt _ _ _ | .coll _ _ | .mdec _ _ | .pref _ _ _ _
  | .zero _ _ _ _ | .tuse _ _ | .mma _ _ _ _ _ | .mmaz _ _ _ _ _ | .mmv _ _ _ _ _ | .mdrain _ _ _ _ _ _ _
  | .mseal _ | .msettle _ _ | .accz _ _ | .accld _ _ _ | .cmpNop _ | .cmpEnd _ | .shape _ _ _ _ _ _
  | .sld _ _ _ _ | .smod _ _ _ _ | .kadd _ _ _ _ | .kli _ _ _ | .kmov _ _ _ | .pset _ _ _ | .cmpSemwait _ _ _
  | .cmpSemadd _ _ _ | .loopk _ _ _ | .fragsel _ _ _ | .feclr _ _ _ _ | .gstat _ _ _ | .genAdd _ _ _
  | .genSub _ _ _ | .genMul _ _ _ | .genMulhu _ _ _ | .genAnd _ _ _ | .genOr _ _ _ | .genXor _ _ _
  | .genShl _ _ _ | .genShr _ _ _ | .genSra _ _ _ | .genRotl _ _ _ | .genAddi _ _ _ | .genXori _ _ _
  | .genLi _ _ | .genLui _ _ | .genHash _ _ _ | .genSel _ _ _ | .genSltu _ _ _ | .genSlt _ _ _ | .genFadd _ _ _
  | .genFmul _ _ _ | .genFfma _ _ _ | .genI2f _ _ | .genUnif _ _ | .genRade _ _ | .genFneg _ _ | .genFmin _ _ _
  | .genFmax _ _ _ | .genLoop _ _ | .genOut _ | .genOuti _ | .illegalInstrFetch _ _ | .commandPop _ _
  | .tokenWaitIssue _ _ | .tokenPushDelayed _ _ | .semwaitSatisfied _ _ | .waitevSatisfied _ | .wfeWake _
  | .wfeTimeout _ | .dispPlace _ | .qdrainComplete _ | .qcancelComplete _ | .taskEnd _ | .deferredRetire _ _
  | .fullEmptyWaitDone _ | .copyComplete _ _ _ _ | .copyUnitFault _ _ _ | .matrixWordComplete _ _
  | .matrixIssueResume _ | .msettleComplete _ | .matrixWordFault _ | .clockHold _ | .slotChangeRetire _
  | .trapEntry _ | .shadowFaultService _ | .shadowServiceDone _ _ _ | .shadowLimitExpiry _ | .prgResponse _ _
  | .atsInvalidation _ _ _ | .tltDrainComplete _ | .mdecQueuePlace _ _ | .mediaDecodeJob _
  | .mediaDecodeComplete _ | .srcFree _ _ _ _ | .collArrival _ | .collCombine _ | .localDone _ | .collReport _
  | .allDone _ | .termiteCommand _ | .rflagDelivery _ | .mflagDelivery _ _ | .fireflyArm | .fireflyRound _
  | .lqtailDoorbell _ _ | .launchRecordRead | .spawnSpillMove _ | .launchReady _ | .containerLoad _
  | .launchSelection | .taskSave _ | .priorityAging _ | .launchCompletion _ | .tlbInvalidation _
  | .tlbInvalidationComplete | .ctxDestroy _ | .ctxUnload _ | .warmDeviceReset | .warmDieReset _ | .coreReset _
  | .coldReset _ | .thermalTrip | .throttleChange _ _ | .ucieLinkFailure _ _ | .nudonPortTrain _ _
  | .configRequest _ | .registerWrite _ _ _ | .violcntRead _ | .ldropRead | .untrustedPrivateAccess _ _
  | .ideIntegrityFailure _ | .functionLevelReset _ | .debugEnable | .lockDigestWalk | .frameSeal _
  | .frameStart _ | .channelReset _ _ _ | .chdoorWrite _ _ _ | .bounceSlotCopy _ _ | .getVersion
  | .getCapabilities | .negotiateAlgorithms _ | .getDigests | .getCertificate _ | .challenge _
  | .getMeasurements _ | .keyExchange | .finish | .keyUpdate | .heartbeat | .endSession
  | .spdmUnsupportedRequest _ | .ideKm _ | .kSetGo _ _ | .getTdispVersion _ | .getTdispCapabilities _
  | .lockInterfaceRequest _ _ _ | .getDeviceInterfaceReport _ | .getDeviceInterfaceState _
  | .startInterfaceRequest _ | .stopInterfaceRequest _ | .tdispUnsupportedRequest _ _ | .mctpControl _ _
  | .pldmDiscovery | .pldmMonitoring _ | .pldmFirmwareUpdate _ _ | .mctpUnsupportedType _
  | .remoteHomeAccess _ _ | .trustedSharedPageAccess _ => []

/-- Releases of CTL and CMP, and FENCE with scope 4 (R256, R261, R262, R266). -/
def Instr.releases : Instr → Bool
  | .amoadd _ _ _ _ _ => true
  | .amoand _ _ _ _ _ => true
  | .amoor _ _ _ _ _ => true
  | .amoxor _ _ _ _ _ => true
  | .amomin _ _ _ _ _ => true
  | .amomax _ _ _ _ _ => true
  | .amominu _ _ _ _ _ => true
  | .amomaxu _ _ _ _ _ => true
  | .amoswap _ _ _ _ _ => true
  | .amocas _ _ _ _ _ => true
  | .amofadd _ _ _ _ _ => true
  | .amonswap _ _ _ _ _ => true
  | .disp _ _ _ _ => true
  | .dispx _ _ _ => true
  | .semadd _ _ => true
  | .rflag _ _ _ => true
  | .mflag _ _ _ => true
  | .spawn _ => true
  | .sigev _ _ => true
  | .hopen _ _ => true
  | .hwin _ _ => true
  | .hresolve _ _ => true
  | .hcommit _ _ => true
  | .fence a => a == 4
  | .cmpSemadd _ _ _ => true
  | .fragsel _ _ _ => true
  | .add _ _ _ _ | .sub _ _ _ _ | .and _ _ _ _ | .or _ _ _ _ | .xor _ _ _ _ | .shl _ _ _ _ | .shr _ _ _ _
  | .sra _ _ _ _ | .rol _ _ _ _ | .slt _ _ _ _ | .sltu _ _ _ _ | .min _ _ _ _ | .max _ _ _ _ | .minu _ _ _ _
  | .maxu _ _ _ _ | .clz _ _ _ | .ctz _ _ _ | .popc _ _ _ | .addi _ _ _ | .slti _ _ _ | .sltiu _ _ _
  | .andi _ _ _ | .ori _ _ _ | .xori _ _ _ | .shli _ _ _ _ | .shri _ _ _ _ | .srai _ _ _ _ | .roli _ _ _ _
  | .lui _ _ | .lih _ _ | .mul _ _ _ _ | .mulh _ _ _ | .mulhu _ _ _ | .div _ _ _ _ | .divu _ _ _ _
  | .rem _ _ _ _ | .remu _ _ _ _ | .ldb _ _ _ | .ldbu _ _ _ | .ldh _ _ _ | .ldhu _ _ _ | .ldw _ _ _
  | .ldwu _ _ _ | .ldd _ _ _ | .stb _ _ _ | .sth _ _ _ | .stw _ _ _ | .std _ _ _ | .cwb _ _ | .cinv _ _
  | .cwbinv _ _ | .cpref _ _ | .beq _ _ _ | .bne _ _ _ | .blt _ _ _ | .bge _ _ _ | .bltu _ _ _ | .bgeu _ _ _
  | .jal _ | .jalr _ _ _ | .loop _ _ | .qcancel _ | .qdrain | .qstatrd _ | .semwait _ _ | .waitev _ _ | .exit
  | .hset _ | .hstat _ _ | .gload _ _ | .gfree _ | .gparam _ _ | .palloc _ _ | .pfree _
  | .tltset _ _ _ | .tltuse _ | .mapw _ _ _ | .unmapw _ | .csrd _ _ | .cswr _ _ | .trap _ | .rett | .brk | .wfe
  | .xferNop _ | .xferEnd _ | .copy _ _ _ _ _ _ _ | .gath _ _ _ _ _ _ _ | .scat _ _ _ _ _ _ _ | .boxld _ _ _
  | .aadd _ _ _ _ | .ali _ _ _ | .amov _ _ _ | .xferSemwait _ _ _ | .xferSemadd _ _ _ | .loopt _ _ _ | .coll _ _
  | .mdec _ _ | .pref _ _ _ _ | .zero _ _ _ _ | .tuse _ _ | .vadd _ _ _ _ _ | .vsub _ _ _ _ _ | .vmul _ _ _ _ _
  | .vmulh _ _ _ _ _ | .vfma _ _ _ _ _ | .vfms _ _ _ _ _ | .vmin _ _ _ _ _ | .vmax _ _ _ _ _ | .vabs _ _ _ _
  | .vneg _ _ _ _ | .vdiv _ _ _ _ _ | .vsqrt _ _ _ _ | .vrcp _ _ _ _ | .vrsq _ _ _ _ | .vexp2 _ _ _ _
  | .vlog2 _ _ _ _ | .vand _ _ _ _ _ | .vor _ _ _ _ _ | .vxor _ _ _ _ _ | .vnot _ _ _ _ | .vshl _ _ _ _ _
  | .vshr _ _ _ _ _ | .vsra _ _ _ _ _ | .vfshl _ _ _ _ _ | .vfshr _ _ _ _ _ | .vclz _ _ _ _ | .vpopc _ _ _ _
  | .vsel _ _ _ _ _ | .vmov _ _ _ _ | .vcvt _ _ _ _ _ | .vcmpeq _ _ _ _ _ | .vcmplt _ _ _ _ _
  | .vcmple _ _ _ _ _ | .vcmpne _ _ _ _ _ | .vadds _ _ _ _ _ | .vsubs _ _ _ _ _ | .vredsum _ _ _ _
  | .vredmax _ _ _ _ | .vredmin _ _ _ _ | .vscan _ _ _ _ | .vscanx _ _ _ _ | .vbcast _ _ _ _ _ | .viota _ _ _
  | .vaccept _ _ _ _ _ | .vfirst _ _ _ _ | .vhash _ _ _ _ _ | .vunif _ _ _ _ | .vld _ _ _ _ _ _
  | .vst _ _ _ _ _ _ | .vldi _ _ _ _ _ _ | .vsti _ _ _ _ _ _ | .vstu _ _ _ _ _ _ | .vgath _ _ _ _ _ _
  | .vscat _ _ _ _ _ _ | .vpart _ _ _ _ _ | .vperm _ _ _ _ | .vldb _ _ _ _ _ _ | .mma _ _ _ _ _
  | .mmaz _ _ _ _ _ | .mmv _ _ _ _ _ | .mdrain _ _ _ _ _ _ _ | .mseal _ | .msettle _ _ | .accz _ _
  | .accld _ _ _ | .cmpNop _ | .cmpEnd _ | .shape _ _ _ _ _ _ | .sld _ _ _ _ | .smod _ _ _ _ | .kadd _ _ _ _
  | .kli _ _ _ | .kmov _ _ _ | .vli _ _ _ | .pset _ _ _ | .cmpSemwait _ _ _ | .loopk _ _ _ | .histrd _ _ _ _
  | .feclr _ _ _ _ | .gstat _ _ _ | .genAdd _ _ _ | .genSub _ _ _ | .genMul _ _ _ | .genMulhu _ _ _
  | .genAnd _ _ _ | .genOr _ _ _ | .genXor _ _ _ | .genShl _ _ _ | .genShr _ _ _ | .genSra _ _ _
  | .genRotl _ _ _ | .genAddi _ _ _ | .genXori _ _ _ | .genLi _ _ | .genLui _ _ | .genHash _ _ _ | .genSel _ _ _
  | .genSltu _ _ _ | .genSlt _ _ _ | .genFadd _ _ _ | .genFmul _ _ _ | .genFfma _ _ _ | .genI2f _ _
  | .genUnif _ _ | .genRade _ _ | .genFneg _ _ | .genFmin _ _ _ | .genFmax _ _ _ | .genLoop _ _ | .genOut _
  | .genOuti _ | .illegalInstrFetch _ _ | .commandPop _ _ | .tokenWaitIssue _ _ | .tokenPushDelayed _ _
  | .semwaitSatisfied _ _ | .waitevSatisfied _ | .wfeWake _ | .wfeTimeout _ | .dispPlace _ | .qdrainComplete _
  | .qcancelComplete _ | .taskEnd _ | .deferredRetire _ _ | .fullEmptyWaitDone _ | .copyComplete _ _ _ _
  | .copyUnitFault _ _ _ | .matrixWordComplete _ _ | .matrixIssueResume _ | .msettleComplete _
  | .matrixWordFault _ | .clockHold _ | .slotChangeRetire _ | .trapEntry _ | .shadowFaultService _
  | .shadowServiceDone _ _ _ | .shadowLimitExpiry _ | .prgResponse _ _ | .atsInvalidation _ _ _
  | .tltDrainComplete _ | .mdecQueuePlace _ _ | .mediaDecodeJob _ | .mediaDecodeComplete _ | .srcFree _ _ _ _
  | .collArrival _ | .collCombine _ | .localDone _ | .collReport _ | .allDone _ | .termiteCommand _
  | .rflagDelivery _ | .mflagDelivery _ _ | .fireflyArm | .fireflyRound _ | .lqtailDoorbell _ _
  | .launchRecordRead | .spawnSpillMove _ | .launchReady _ | .containerLoad _ | .launchSelection | .taskSave _
  | .priorityAging _ | .launchCompletion _ | .tlbInvalidation _ | .tlbInvalidationComplete | .ctxDestroy _
  | .ctxUnload _ | .warmDeviceReset | .warmDieReset _ | .coreReset _ | .coldReset _ | .thermalTrip
  | .throttleChange _ _ | .ucieLinkFailure _ _ | .nudonPortTrain _ _ | .configRequest _ | .registerWrite _ _ _
  | .violcntRead _ | .ldropRead | .untrustedPrivateAccess _ _ | .ideIntegrityFailure _ | .functionLevelReset _
  | .debugEnable | .lockDigestWalk | .frameSeal _ | .frameStart _ | .channelReset _ _ _ | .chdoorWrite _ _ _
  | .bounceSlotCopy _ _ | .getVersion | .getCapabilities | .negotiateAlgorithms _ | .getDigests
  | .getCertificate _ | .challenge _ | .getMeasurements _ | .keyExchange | .finish | .keyUpdate | .heartbeat
  | .endSession | .spdmUnsupportedRequest _ | .ideKm _ | .kSetGo _ _ | .getTdispVersion _
  | .getTdispCapabilities _ | .lockInterfaceRequest _ _ _ | .getDeviceInterfaceReport _
  | .getDeviceInterfaceState _ | .startInterfaceRequest _ | .stopInterfaceRequest _
  | .tdispUnsupportedRequest _ _ | .mctpControl _ _ | .pldmDiscovery | .pldmMonitoring _
  | .pldmFirmwareUpdate _ _ | .mctpUnsupportedType _ | .remoteHomeAccess _ _ | .trustedSharedPageAccess _ => false

end Sys2Proof
end

