-- ==== Sys2Proof/Machine/Fetch.lean ====
section
/-!
DEFINITION. How the word at a sequencer's PC is fetched from its instruction memory and decoded (R123 to R125, R139), and
what it waits for at homes elsewhere (R261). Also the acts of the world outside, and the release of hypothesis ids that no
one holds any more (R264).
-/

namespace Sys2Proof.Machine

/-- What a turn comes to: an instruction to execute in a state, or a state reached without one. -/
inductive Turn where
  | run (i : Instr) (s : State)
  | done (s : State)
  deriving DecidableEq, Repr, Inhabited

/-- The instruction that a word stands for in a memory, or the step that faults it (R125). -/
def instrOf (f : Fetch) (w : Word) : Instr :=
  match decodeWord f w with
  | .ok i => i
  | .error r => .illegalInstrFetch r.isReserved (w.setWidth 64)

/-- The instruction at a word index of a sequencer's memory; beyond its end nothing is fetched (R24, R139). -/
def Core.instrAt (k : Core) (q : Sequencer) (f : Fetch) (limit pc : Nat) : Instr :=
  if limit ≤ pc then .illegalInstrFetch false 0 else instrOf f (Cells.read 0 (k.imem q) pc)

/-! ### What a word waits for at homes elsewhere (R261) -/

/-- The register that a load under way is for; s0 takes nothing. -/
def PostKind.reg : PostKind → Option (BitVec 5)
  | .write _ => none
  | .load d _ _ => if d = 0 then none else some d
  | .vload v _ _ => some v

/-- Whether a word of a source waits for accesses under way: a release for all of them, any word for loads into the
registers that it names (R256, R261). -/
def State.pending (s : State) (a : Agent) (i : Instr) : Bool :=
  !s.posted.isEmpty &&
    ((i.releases && !s.quiet a) ||
      s.posted.any (fun p => p.who.agent == a && (match p.kind.reg with
        | some r => i.regs.contains r
        | none => false)))

/-- An answer that came while the clocks were held reaches the running CTL, which retires (R66, R259). -/
def State.takeAnswer (s : State) (a : Option (BitVec 5 × DWord)) : State :=
  let s := s.onCtl (fun k => { k with answer := none })
  match a with
  | some (d, v) => (s.setSreg d v).retireWait
  | none => s.retireWait

/-- The decoder of an engine's words (R123). -/
def fetchOf : Engine → Fetch
  | .lds => .lds
  | .cmp => .cmp
  | .sts => .sts

/-- Whether an engine may issue: it runs a command, waits for nothing, is not stopped and has no push that holds it
(R26), and the core's clocks run (R66). -/
def Core.mayIssue (k : Core) (e : Engine) : Bool :=
  (k.eng e).cur.isSome && decide ((k.eng e).wait = .none) && !(k.eng e).halted && !(k.eng e).held && !k.hold

/-- VLDI's and VSTI's increment (R201). -/
def State.bumpK (s : State) (inc : Bool) (k : BitVec 4) : State :=
  let sh := (s.here).cmp.shape
  if inc then
    let n := if sh.ty = .k4 then (sh.vl.toNat + 1) / 2 else sh.vl.toNat * (sh.ty.bits / 8)
    s.setKreg k (s.kreg k + BitVec.ofNat 64 n)
  else s

/-- The runs of a store whose checks have passed are written, with set-full their granules are filled (R46). -/
def State.writeNib (s : State) (n : NibStore) : State :=
  let w := s.engWho
  let u := n.runs.foldl (fun (t : State) (r : Nat × Option Leaf × List Byte) =>
    match r.2.1 with
    | some l => t.writeLeaf w l r.1 r.2.2
    | none => t.onHere (fun k => k.putBuf n.sp r.1 r.2.2)) s
  if n.fill then u.onHere (fun k => k.fill n.sp (n.runs.flatMap (fun r => granules r.1 r.2.2.length))) else u

/-- A K4 store makes the second of its two accesses, and retires (R260); a command whose hypothesis has been refuted
meanwhile is abandoned there (R277). -/
def State.finishNib (s : State) : State :=
  match (s.here).cmp.nib with
  | none => s.onHere (fun k => k.setWait .cmp .none)
  | some n =>
    let t := ((s.writeNib n).bumpK n.inc n.k).onHere (fun k => k.onCmp (fun x => { x with nib := none }))
    if s.runRefuted s.actCore .cmp then t.onHere (fun k => (k.dropSerial .cmp).abandon .cmp)
    else t.onHere (fun k => k.engRetire .cmp n.tok)

/-! ### Acts of the world outside -/

/-- Removes or adds a number in a list without repeats. -/
def setMember (n : Nat) (on : Bool) (l : List Nat) : List Nat := if on then insertNat n l else l.filter (fun m => m != n)

/-- Whether the host's write reaches what it writes: its own memory, or HBM that exists behind the die's IOD link (R9,
R40). -/
def State.hostReaches (s : State) (pa n : Nat) : Bool :=
  s.paExists pa && (n == 0 || s.paExists (pa + n - 1)) && (isPcie pa || s.linkUp (homeDie pa) 4)

/-- The acts that are no one's instruction and no step of the device. -/
def State.outside (s : State) (a : Act) : State :=
  match a with
  | .seq _ _ => s
  | .ogu _ => s
  | .event _ => s
  | .hostWrite pa bs => if s.hostReaches pa.toNat bs.length then s.homeStore pa.toNat bs else s
  | .barRead _ _ _ => s
  | .debugAccess => s
  | .dieReadmit _ => s
  | .flashChange p i => { s with flash := s.flash.set p.index i }
  | .remoteWrite dev pa bs => s.putRemote dev.toNat pa.toNat bs
  | .remoteLink dev up => { s with remoteUp := setMember dev.toNat up s.remoteUp }
  | .atsPage pasid page present =>
    let e := (pasid.toNat, page.toNat)
    { s with atsAbsent := if present then s.atsAbsent.filter (fun p => p != e) else e :: s.atsAbsent.filter (fun p => p != e) }
  | .perform _ => s
  | .peekCmp _ _ => s
  | .peekRec _ _ _ => s
  | .peekCopy _ _ _ _ => s
  | .peekMat _ _ _ _ => s
  | .peekJob _ _ => s
  | .jobPart _ _ => s
  | .copyPart _ _ _ _ => s
  | .sramUpset c sp g bad =>
    s.onCore c (fun k =>
      let rest := k.badSram.filter (fun p => p != (sp, g.toNat))
      { k with badSram := if bad && sp != .glob then (sp, g.toNat) :: rest else rest })
  | .flagIn _ _ _ _ => s
  | .upset line bad => { s with badLines := setMember line.toNat bad s.badLines }
  | .collData x => { s with collData := s.collData ++ [{ id := s.collNum, x := x }], collNum := s.collNum + 1 }
  | .collReportIn ctx collid root member =>
    { s with collReports := s.collReports ++ [{ ctx := ctx, collid := collid, tgt := root, member := member }] }
  | .collNoteIn ctx collid tgt =>
    { s with collNotes := s.collNotes ++ [{ ctx := ctx, collid := collid, tgt := tgt, member := 0 }] }
  | .idle => s

/-! ### Holders of hypothesis ids (R264) -/

/-- Ids that an engine's commands and operations carry. -/
def Xfer.carries (x : Xfer) (h : HypId) : Bool :=
  x.ops.any (fun o => o.hyp == h)

def EngCtl.carries (g : EngCtl) (h : HypId) : Bool :=
  g.hyp == h || g.queue.any (fun c => c.hyp == h) || g.ring.any (fun c => c.2.hyp == h)

/-- Whether a core's task holds an id of context x (R264). -/
def Core.holds (k : Core) (x : BitVec 6) (h : HypId) : Bool :=
  match k.task with
  | none => false
  | some t =>
    t.ctx == x && (k.ctl.hcur == h || (k.eng .lds).carries h || (k.eng .cmp).carries h || (k.eng .sts).carries h ||
      k.lds.carries h || k.sts.carries h || k.cmp.mq.any (fun m => m.hyp == h))

/-- Whether a command of CTL that waits at a Termite carries an id. -/
def TermOp.carries (m : TermOp) (x : BitVec 6) (h : HypId) : Bool :=
  match m with
  | .ctl m => m.who.ctx == x && m.who.hyp == h
  | .remote _ => false
  | .line _ => false

/-- Whether anything on the device holds an id: a task, running or suspended, or an access at a Termite. -/
def State.held (s : State) (x : BitVec 6) (h : HypId) : Bool :=
  s.cores.any (fun k => k.holds x h) ||
    s.slots.any (fun l => match l with
      | some l => l.susp.any (fun u => u.core.holds x h)
      | none => false) ||
    s.termite.any (fun q => q.any (fun m => m.carries x h))

/-- CONFIRMED and REFUTED ids that no one holds become FREE (R264). -/
def State.releaseIds (s : State) : State :=
  { s with ctxs := Vector.ofFn (fun (i : Fin 64) =>
      let c := s.ctxs[i]
      if c.hyps.all (fun y => y.state == .live) then c
      else { c with hyps := c.hyps.filter (fun y => y.state == .live || s.held (BitVec.ofNat 6 i.val) y.id) }) }

/-- R264 applied when some id has been resolved. -/
def State.sweep (s : State) : State :=
  if s.ctxs.all (fun c => c.hyps.all (fun y => y.state == .live)) then s else s.releaseIds

end Sys2Proof.Machine
end

