-- ==== Sys2Proof/Machine/Hyp.lean ====
section
/-!
DEFINITION. The hypothesis tree (R263 to R272), what a confirm and a refute do to versions and pool pages (R262, R265,
R273, R279), and page pools (R278 to R280).
-/

namespace Sys2Proof.Machine

/-! ### Committed writes made by a confirm -/

/-- A version becomes the committed value of its byte unless a later write already stands there; versions that stand
earlier in the byte's coherence order now have it behind them (R262). -/
def State.settleVer (s : State) (x : BitVec 6) (v : Ver) : State :=
  if v.behind then s
  else
    let s := (s.reviveLines x v.va 1 none v.pa).retag v.enc v.pa 1
    let s := { s with ctxs := s.ctxs.map (fun (c : Ctx) =>
      if c.vers.isEmpty then c
      else { c with vers := c.vers.map (fun (u : Ver) =>
        if u.pa == v.pa && decide (u.seq < v.seq) then { u with behind := true } else u) }) }
    match s.windowAt v.pa with
    | some (w, off) => s.onCore w.core (fun k => k.putBuf w.buf off [v.val])
    | none => { s with mem := Cells.splice 0 s.mem v.pa [v.val] }

/-- The versions of one id, in the order they were written: a write puts its versions at the end. -/
def Ctx.versionsOf (c : Ctx) (h : HypId) : List Ver := c.vers.filter (fun v => v.hyp == h)

/-! ### Pool pages -/

/-- A page's bit in MAP is cleared and its OWNER byte zeroed (R279, R280). -/
def State.clearPage (s : State) (r : PoolRec) : State :=
  let b := s.phys r.map &&& ~~~(BitVec.ofNat 8 (2 ^ r.bit))
  (s.dropAhead.commit r.map [b]).commit r.owner [0]

/-- Whether a page's bit is set. -/
def State.pageTaken (s : State) (r : PoolRec) : Bool := (s.phys r.map).getLsbD r.bit

/-- Lifetime entries that a freed page touches become FREE when they are DEAD (R59); lines of them not written since
then hold values the specification leaves open (log 24). -/
def State.freeTltOver (s : State) (x : BitVec 6) (va len : Nat) : State :=
  let meets (t : TltEnt) : Bool := t.ctx == x && decide (t.base < va + len) && decide (va < t.base + t.len)
  let gone := s.tlt.filter (fun t => meets t && (match t.state with
    | .dead _ => true
    | .live _ => false
    | .draining => false))
  gone.foldl (fun u t =>
    let wr := match t.state with
      | .dead w => w
      | .live _ => []
      | .draining => []
    { u with
      tlt := u.tlt.filter (fun e => e.idx != t.idx)
      stale := if wr.length < t.len / 128 then
          u.stale ++ [{ ctx := t.ctx, base := t.base, len := t.len, written := wr, num := u.freeCtr }]
        else u.stale
      freeCtr := u.freeCtr + 1 }) s

/-- A free that takes effect (R280): nothing when the bit is clear; else the page returns to its pool, and any
allocation record of it is dropped. -/
def State.freePage (s : State) (x : BitVec 6) (r : PoolRec) : State :=
  if s.pageTaken r then
    (((s.clearPage r).onCtx x (fun c =>
      { c with allocs := c.allocs.filter (fun a => !(a.map == r.map && a.bit == r.bit)) })).freeTltOver x r.va r.len)
  else s

/-! ### Refute (R265) -/

/-- h and every LIVE descendant of it. -/
def Ctx.subtree (c : Ctx) (h : HypId) : List HypId :=
  (c.hyps.filter (fun y => y.state == .live && (c.path 256 y.id).contains h)).map (·.id)

/-- A set of ids becomes REFUTED: versions and deferred frees go, allocated pages return to their pools, and windows
whose first member is refuted are removed (R264, R265, R268, R273, R279, R280). -/
def State.refuteIds (s : State) (x : BitVec 6) (ids : List HypId) : State :=
  let back := (s.ctx x).allocs.filter (fun a => ids.contains a.hyp)
  let s := s.dropAhead
  let s := back.foldl (fun t r => t.clearPage r) s
  s.onCtx x (fun c =>
    { c with
      hyps := c.hyps.map (fun y => if ids.contains y.id then { y with state := .refuted } else y)
      vers := c.vers.filter (fun v => !ids.contains v.hyp)
      spent := c.spent.filter (fun p => !ids.contains p.1)
      allocs := c.allocs.filter (fun a => !ids.contains a.hyp)
      frees := c.frees.filter (fun a => !ids.contains a.hyp)
      wins := c.wins.filter (fun w => !(match w.members with
        | m :: _ => ids.contains m
        | [] => false)) })

/-- A refute of h (R265). -/
def State.refute (s : State) (x : BitVec 6) (h : HypId) : State := s.refuteIds x ((s.ctx x).subtree h)

/-! ### Confirm (R265) -/

/-- The siblings of h: the other LIVE ids with its parent and set. -/
def Ctx.siblings (c : Ctx) (h : HypId) : List HypId :=
  match c.hyp h with
  | none => []
  | some y =>
    (c.hyps.filter (fun z => z.id != h && z.state == .live && z.parent == y.parent && z.set == y.set)).map (·.id)

/-- A confirm of h, all at one point (R253, R262, R265, R279, R280). DEDUCED (log 70): of an engine's access each 16-byte
granule is a read of its own (R257), so one that is under way may read some of its granules before the confirm. -/
def State.confirm (s : State) (x : BitVec 6) (h : HypId) : State :=
  let sibs := (s.ctx x).siblings h
  let s := s.dropAhead
  let s := ((s.ctx x).versionsOf h).foldl (fun t v => t.settleVer x v) s
  let s := s.onCtx x (fun c =>
    { c with vers := c.vers.filter (fun v => v.hyp != h), spent := c.spent.filter (fun p => p.1 != h) })
  let s := sibs.foldl (fun t g => t.refute x g) s
  let owned := (s.ctx x).allocs.filter (fun a => a.hyp == h)
  let s := owned.foldl (fun t r => t.commit r.owner [0]) s
  let dues := (s.ctx x).frees.filter (fun a => a.hyp == h)
  let s := s.onCtx x (fun c =>
    { c with
      hyps := c.hyps.map (fun y =>
        if y.id == h then { y with state := .confirmed } else if y.parent == h then { y with parent := 0 } else y)
      allocs := c.allocs.filter (fun a => a.hyp != h)
      frees := c.frees.filter (fun a => a.hyp != h) })
  (dues.foldl (fun t r => t.freePage x r) s).freeWrittenTlt

/-! ### Allocation of ids -/

/-- FREE ids, ascending. -/
def Ctx.freeIds (c : Ctx) : List HypId :=
  ((List.range 255).map (fun i => BitVec.ofNat 8 (i + 1))).filter (fun h => (c.hyp h).isNone)

/-- An id becomes LIVE (R264); a window that held it as a member holds it no more. -/
def Ctx.alloc (c : Ctx) (h parent : HypId) (set : BitVec 8) : Ctx :=
  { c with
    hyps := c.hyps ++ [{ id := h, state := .live, parent := parent, set := set }]
    wins := c.wins.map (fun w => { w with members := w.members.map (fun m => if m = h then 0 else m) }) }

/-- Members m1, m2, … of a new window, each the child of the one before; the later ones have set 0 (R268). -/
def Ctx.allocChain (c : Ctx) : HypId → BitVec 8 → List HypId → Ctx
  | _, _, [] => c
  | parent, set, h :: hs => (c.alloc h parent set).allocChain h 0 hs

/-- Whether an id is 0 or LIVE. -/
def Ctx.rootOrLive (c : Ctx) (h : HypId) : Bool := h == 0 || c.isLive h

/-! ### The HYP group -/

/-- The context of the running task. -/
def State.myCtx (s : State) : BitVec 6 := (s.here).theTask.ctx

/-- HCUR when it is LIVE, else 0 (R264). -/
def State.liveHcur (s : State) : HypId :=
  if (s.ctx s.myCtx).isLive (s.here).ctl.hcur then (s.here).ctl.hcur else 0

/-- HOPEN (R267). -/
def execHopen (d a : BitVec 5) (s : State) : Out :=
  let v := s.sreg a
  let parent : HypId := v.setWidth 8
  let set : BitVec 8 := v.extractLsb' 8 8
  if v.toNat / 2 ^ 16 != 0 then .next (s.ctlTrap .reservedField v)
  else if !(s.ctx s.myCtx).rootOrLive parent then .next (s.ctlTrap .hypDead (parent.setWidth 64))
  else
    match (s.ctx s.myCtx).freeIds with
    | [] => ctlWrite s d 0
    | h :: _ => ctlWrite (s.onCtx s.myCtx (fun c => c.alloc h parent set)) d (h.setWidth 64)

/-- HWIN (R268). -/
def execHwin (d a : BitVec 5) (s : State) : Out :=
  let v := s.sreg a
  let k := v.toNat % 64
  let set : BitVec 8 := v.extractLsb' 8 8
  if v.toNat / 2 ^ 6 % 4 != 0 || v.toNat / 2 ^ 16 != 0 || k = 0 || 32 < k then .next (s.ctlTrap .reservedField v)
  else
    let ids := (s.ctx s.myCtx).freeIds.take k
    if ids.length < k then ctlWrite s d 0
    else
      let m1 := ids.headD 0
      let parent := s.liveHcur
      ctlWrite (s.onCtx s.myCtx (fun c =>
        let c' := c.allocChain parent set ids
        { c' with wins := c'.wins ++ [{ name := m1, members := ids }] })) d (m1.setWidth 64)

/-- HSET (R269). -/
def execHset (a : BitVec 5) (s : State) : Out :=
  let v := s.sreg a
  let h : HypId := v.setWidth 8
  if v.toNat / 2 ^ 8 != 0 then .next (s.ctlTrap .reservedField v)
  else if !(s.ctx s.myCtx).rootOrLive h then .next (s.ctlTrap .hypDead (h.setWidth 64))
  else .next (s.onCtl (fun k => { k with hcur := h })).retire

/-- Whether an id is LIVE and a child of the root. -/
def Ctx.liveAtRoot (c : Ctx) (h : HypId) : Bool :=
  match c.hyp h with
  | some y => y.state == .live && y.parent == 0
  | none => false

/-- HRESOLVE (R270). -/
def execHresolve (a : BitVec 5) (confirm : Bool) (s : State) : Out :=
  let v := s.sreg a
  let h : HypId := v.setWidth 8
  let c := s.ctx s.myCtx
  if v.toNat / 2 ^ 8 != 0 then .next (s.ctlTrap .reservedField v)
  else if confirm then
    if c.liveAtRoot h then .next (s.confirm s.myCtx h).retire else .next (s.ctlTrap .hypDead (h.setWidth 64))
  else if c.isLive h then .next (s.refute s.myCtx h).retire
  else .next (s.ctlTrap .hypDead (h.setWidth 64))

/-- The window that a first member names (R268). -/
def Ctx.window (c : Ctx) (w : HypId) : Option HypWin := c.wins.find? (fun u => w != 0 && u.members.head? == some w)

/-- The leading members that are still LIVE (R271). -/
def Ctx.leading (c : Ctx) (ms : List HypId) : List HypId := ms.takeWhile (fun m => m != 0 && c.isLive m)

/-- The effect of HCOMMIT, its checks passed (R271). -/
def State.hcommit (s : State) (x : BitVec 6) (w : HypWin) (n : Nat) : State :=
  let lead := (s.ctx x).leading w.members
  let s := (lead.take n).foldl (fun t m => t.confirm x m) s
  let s := match lead[n]? with
    | some m => s.refute x m
    | none => s
  s.onCtx x (fun c => { c with wins := c.wins.filter (fun u => u != w) })

/-- HCOMMIT (R271). -/
def execHcommit (a b : BitVec 5) (s : State) : Out :=
  let v := s.sreg a
  let w : HypId := v.setWidth 8
  let n := s.sreg b
  let c := s.ctx s.myCtx
  if v.toNat / 2 ^ 8 != 0 then .next (s.ctlTrap .reservedField v)
  else
    match c.window w with
    | none => .next (s.ctlTrap .hypDead (w.setWidth 64))
    | some u =>
      if !c.liveAtRoot w then .next (s.ctlTrap .hypDead (w.setWidth 64))
      else if (c.leading u.members).length < n.toNat then .next (s.ctlTrap .hypDead n)
      else .next (s.hcommit s.myCtx u n.toNat).retire

/-- The window and place of a member, as HSTAT gives them (R272). -/
def Ctx.place (c : Ctx) (h : HypId) : Nat × Nat :=
  match c.wins.find? (fun w => w.members.contains h) with
  | some w => (w.name.toNat, w.members.idxOf h)
  | none => (0, 0)

/-- HSTAT's result (R272). -/
def Ctx.hstat (c : Ctx) (v : DWord) : DWord :=
  if v = 0 then 1
  else if 255 < v.toNat then 0
  else
    match c.hyp (v.setWidth 8) with
    | none => 0
    | some y =>
      match y.state with
      | .confirmed => 2
      | .refuted => 3
      | .live =>
        let p := c.place y.id
        BitVec.ofNat 64 (1 + 2 ^ 8 * y.parent.toNat + 2 ^ 16 * y.set.toNat + 2 ^ 24 * p.1 + 2 ^ 32 * p.2)

/-- HSTAT (R272). -/
def execHstat (d a : BitVec 5) (s : State) : Out := ctlWrite s d ((s.ctx s.myCtx).hstat (s.sreg a))

/-! ### Page pools (R278 to R280) -/

/-- The fields of a pool descriptor (R278). -/
structure Pool where
  base   : Nat
  npages : Nat
  pshift : Nat
  v      : Bool
  map    : Nat
  owner  : Nat
  /-- Every field lies within the table. -/
  ok     : Bool
  deriving DecidableEq, Repr, Inhabited

def poolOf (d : List Byte) : Pool :=
  let base := fieldAt d 0 8
  let np := fieldAt d 8 4
  let ps := fieldAt d 12 1
  let map := fieldAt d 16 8
  { base := base, npages := np, pshift := ps, v := (fieldAt d 13 1).testBit 0, map := map, owner := fieldAt d 24 8,
    ok := fieldAt d 13 1 == 1 && zeroAt d 14 2 && zeroAt d 32 32 && decide (7 ≤ ps) && decide (ps ≤ 29) &&
      decide (1 ≤ np) && decide (np ≤ 2 ^ 24) && base % 2 ^ ps == 0 && map % 8 == 0 }

/-- The address of pool descriptor i. -/
def State.poolVa (s : State) (i : Nat) : Nat := ((s.here).theTask.desc.pooltab.toNat + 64 * i) % 2 ^ 64

/-- The source of the pool instructions' own accesses: committed values (R278). -/
def State.poolWho (s : State) : Who := s.whoOf s.actCore 0

/-- R146 checks 3 to 5 and 9 on bytes of MAP or OWNER, which Termite updates atomically (R63, R278). -/
def State.poolAccess (s : State) (va n : Nat) : Except AccFault Leaf :=
  match s.translate s.poolWho (va % 2 ^ 64) with
  | .error f => .error f
  | .ok l =>
    match leafCheck s.poolWho .atomic l with
    | .error f => .error f
    | .ok _ => s.access s.poolWho .load (va % 2 ^ 64) n

/-- The lowest clear bit among n bits from number `i` on in a list of bytes. -/
def clearBit (i n : Nat) : List Byte → Option Nat
  | [] => none
  | b :: bs =>
    match (List.range 8).find? (fun j => !b.getLsbD j) with
    | some j => if i + j < n then some (i + j) else none
    | none => clearBit (i + 8) n bs

/-- The lowest clear bit of MAP over its pieces within pages, or the first fault with its address (R279). -/
def State.findClear (s : State) (p : Pool) : List (Nat × Nat) → Except (AccFault × Nat) (Option (Nat × Leaf))
  | [] => .ok none
  | (va, n) :: ps =>
    match s.poolAccess va n with
    | .error f => .error (f, s.faultAddr s.poolWho .load va n f)
    | .ok l =>
      match clearBit (8 * (va - p.map)) p.npages (s.readLeaf s.poolWho l va n) with
      | some i => .ok (some (i, { l with pa := l.pa + (i / 8 - (va - p.map)) }))
      | none => s.findClear p ps

/-- A byte of MAP or OWNER written by Termite: a committed write (R278). -/
def State.poolWrite (s : State) (l : Leaf) (va : Nat) (b : Byte) : State := s.writeLeaf s.poolWho l va [b]

/-- The record of a page of a pool. -/
def poolRec (p : Pool) (h : HypId) (i : Nat) (lm lo : Leaf) : PoolRec :=
  { hyp := h, va := p.base + i * 2 ^ p.pshift, len := 2 ^ p.pshift, map := lm.pa, bit := i % 8, owner := lo.pa }

/-- The running task's context has a free record (R275). -/
def State.recordFree (s : State) : Bool := decide (s.recordsUsed s.myCtx < s.poolWho.recordCap)

/-- PALLOC takes page i (R279). -/
def State.takePage (s : State) (p : Pool) (i : Nat) (lm lo : Leaf) : State :=
  let h := s.liveHcur
  let b := s.readByte s.poolWho lm (p.map + i / 8) lm.pa ||| BitVec.ofNat 8 (2 ^ (i % 8))
  let t := (s.poolWrite lm (p.map + i / 8) b).poolWrite lo (p.owner + i) h
  if h = 0 then t else t.onCtx s.myCtx (fun c => { c with allocs := c.allocs ++ [poolRec p h i lm lo] })

/-- PALLOC (R279). -/
def execPalloc (d a : BitVec 5) (s : State) : Out :=
  let v := s.sreg a
  let dva := s.poolVa v.toNat
  if 15 < v.toNat then .next (s.ctlTrap .reservedField v)
  else
    match s.load s.poolWho .load dva 64 with
    | .error (f, at_) => ctlAccFault s f (BitVec.ofNat 64 at_)
    | .ok (bytes, _) =>
      let p := poolOf bytes
      if !p.ok then .next (s.ctlTrap .reservedField v)
      else
        match s.findClear p (pagesOf p.map ((p.npages + 7) / 8)) with
        | .error (f, at_) => ctlAccFault s f (BitVec.ofNat 64 at_)
        | .ok hit =>
          let full := s.liveHcur != 0 && !s.recordFree
          match hit with
          | none => if full then .next (s.ctlTrap .hypFull (BitVec.ofNat 64 dva)) else ctlWrite s d 0
          | some (i, lm) =>
            match s.poolAccess (p.owner + i) 1 with
            | .error f => ctlAccFault s f (BitVec.ofNat 64 (p.owner + i))
            | .ok lo =>
              if full then .next (s.ctlTrap .hypFull (BitVec.ofNat 64 dva))
              else ctlWrite (s.takePage p i lm lo) d (BitVec.ofNat 64 (p.base + i * 2 ^ p.pshift))

/-- The lowest-numbered valid pool whose range holds an address, or the first fault on a descriptor (R280). DEDUCED (log
63): a valid pool with a field outside the table answers for the range its fields name, and PFREE then traps (R5). -/
def State.poolOfPage (s : State) (va : Nat) : List Nat → Except (AccFault × Nat) (Option Pool)
  | [] => .ok none
  | i :: is =>
    match s.load s.poolWho .load (s.poolVa i) 64 with
    | .error f => .error f
    | .ok (bytes, _) =>
      let p := poolOf bytes
      if p.v && decide (p.base ≤ va) && decide (va < p.base + p.npages * 2 ^ p.pshift) then .ok (some p)
      else s.poolOfPage va is

/-- PFREE of a page whose pool is known (R280). -/
def pfreePage (p : Pool) (va : DWord) (s : State) : Out :=
  let i := (va.toNat - p.base) / 2 ^ p.pshift
  let h := s.liveHcur
  if va.toNat % 2 ^ p.pshift != 0 then .next (s.ctlTrap .misaligned va)
  else
    match s.poolAccess (p.map + i / 8) 1, s.poolAccess (p.owner + i) 1 with
    | .error f, _ => ctlAccFault s f (BitVec.ofNat 64 (p.map + i / 8))
    | _, .error f => ctlAccFault s f (BitVec.ofNat 64 (p.owner + i))
    | .ok lm, .ok lo =>
      let r := poolRec p h i lm lo
      if h = 0 then .next (s.freePage s.myCtx r).retire
      else if s.recordFree then
        .next (s.onCtx s.myCtx (fun c => { c with frees := c.frees ++ [r] })).retire
      else .next (s.ctlTrap .hypFull va)

/-- PFREE (R280). -/
def execPfree (a : BitVec 5) (s : State) : Out :=
  let va := s.sreg a
  match s.poolOfPage va.toNat (List.range 16) with
  | .error (f, at_) => ctlAccFault s f (BitVec.ofNat 64 at_)
  | .ok none => .next s.retire
  | .ok (some p) => if p.ok then pfreePage p va s else .next (s.ctlTrap .reservedField va)

end Sys2Proof.Machine
end

