-- ==== Sys2Proof/Machine/MemMgmt.lean ====
section
/-!
DEFINITION. Tensor lifetimes (R59, R60, R158) and mapped windows (R49 to R51, R157).
-/

namespace Sys2Proof.Machine

/-! ### Tensor lifetime entries -/

/-- All ones: a TLTSET that made no entry. -/
def noEntry : DWord := BitVec.allOnes 64

/-- Whether two ranges of one context meet. -/
def TltEnt.meets (t : TltEnt) (x : BitVec 6) (base len : Nat) : Bool :=
  t.ctx == x && decide (t.base < base + len) && decide (base < t.base + t.len)

/-- The lowest FREE entry of a die (R158). -/
def State.freeTlt (s : State) (die : Nat) : Option Nat :=
  ((List.range 64).map (fun i => 64 * die + i)).find? (fun n => !s.tlt.any (fun t => t.idx == n))

/-- A DEAD entry with the same base becomes FREE (R59). -/
def State.freeSameBase (s : State) (x : BitVec 6) (base : Nat) : State :=
  if s.tlt.any (fun t => t.ctx == x && t.base == base && (match t.state with
    | .dead _ => true
    | .live _ => false
    | .draining => false)) then s.freeTltOver x base 1 else s

/-- TLTSET past its traps (R59, R158). -/
def tltMake (d : BitVec 5) (base len : Nat) (uses : DWord) (s : State) : Out :=
  let x := s.myCtx
  let u := s.freeSameBase x base
  if uses.toNat = 0 || 65535 < uses.toNat || u.tlt.any (fun t => t.meets x base len) then ctlWrite u d noEntry
  else
    match u.freeTlt (dieOf s.actCore) with
    | none => ctlWrite u d noEntry
    | some n =>
      let e : TltEnt := { idx := n, ctx := x, base := base, len := len, state := .live uses.toNat }
      ctlWrite { u with tlt := u.tlt ++ [e] } d (BitVec.ofNat 64 n)

/-- TLTSET (R158). -/
def execTltset (d a b : BitVec 5) (s : State) : Out :=
  let base := s.sreg a
  let len := s.sreg b
  let last := base + len - 1
  if base.toNat % 128 != 0 || len.toNat % 128 != 0 || len = 0 then .next (s.ctlTrap .misaligned base)
  else if 2 ^ 56 ≤ base.toNat then .next (s.ctlTrap .noncanon base)
  else if 2 ^ 56 ≤ base.toNat + len.toNat - 1 then .next (s.ctlTrap .noncanon last)
  else tltMake d base.toNat len.toNat (s.sreg d) s

/-- One use of the LIVE entry that holds an address (R59): the number of the entry when the use was its last. -/
def State.useTlt (s : State) (x : BitVec 6) (va : Nat) : State × Option Nat :=
  match s.tlt.find? (fun t => t.meets x va 1) with
  | none => (s, none)
  | some t =>
    match t.state with
    | .live n =>
      let st := if n ≤ 1 then TltState.draining else .live (n - 1)
      ({ s with tlt := s.tlt.map (fun e => if e.idx == t.idx then { e with state := st } else e) },
        if n ≤ 1 then some t.idx else none)
    | .draining => (s, none)
    | .dead _ => (s, none)

/-- TLTUSE (R158). -/
def execTltuse (a : BitVec 5) (s : State) : Out := .next ((s.useTlt s.myCtx (s.sreg a).toNat).1).retire

/-- TLT_DRAIN_COMPLETE (R59): once the last use's accesses have retired, the lines of the range are dropped, of every
version, and the entry is DEAD. -/
def execTltDrainComplete (entry : BitVec 8) (s : State) : Out :=
  match s.tlt.find? (fun t => t.idx == entry.toNat && t.state == .draining) with
  | none => .next s
  | some t =>
    if s.stillUsed t.idx then .next s else .next (s.drainEntry t)

/-! ### Windows -/

/-- MAPW's buffer operand (R157). -/
structure MapArg where
  buf : Nat
  off : Nat
  n   : Nat
  ok  : Bool
  deriving DecidableEq, Repr, Inhabited

def mapArg (v : DWord) : MapArg :=
  { buf := v.toNat % 4, off := v.toNat / 2 ^ 16 % 2 ^ 22, n := v.toNat / 2 ^ 40 % 2 ^ 7,
    ok := v.toNat % 4 != 0 && v.toNat / 2 ^ 2 % 2 ^ 14 == 0 && v.toNat / 2 ^ 38 % 4 == 0 && v.toNat / 2 ^ 47 == 0 }

/-- Whether a range of a core's buffer or of virtual addresses meets another window of the core (R49). -/
def State.windowClash (s : State) (c : CoreId) (w : BitVec 4) (b : Space) (off va len : Nat) : Bool :=
  s.windows.any (fun u =>
    u.core == c && u.w != w &&
      ((u.buf == b && decide (u.off < off + len) && decide (off < u.off + 2 ^ 16 * u.pas.length)) ||
        (decide (u.va < va + len) && decide (va < u.va + 2 ^ 16 * u.pas.length))))

/-- The frames of a window's pages, or the first fault with its address: every page present first, then none malformed,
MSIDE, FAB or FILTER, and every one with R (R49). -/
def State.windowPages (s : State) (who : Who) (pages : List Nat) : Except (AccFault × Nat) (List Nat) :=
  let look (va : Nat) := s.translate who va
  let absent (va : Nat) : Option (AccFault × Nat) :=
    match look va with
    | .error (.shadow a) => some (.shadow a, va)
    | .error (.trap _) => none
    | .error (.tag _) => none
    | .ok _ => none
  let barred (va : Nat) : Option (AccFault × Nat) :=
    match look va with
    | .error f => some (f, va)
    | .ok l => if l.mside || l.fab || l.filter || !l.r then some (.trap .pagePerm, va) else none
  match pages.findSome? absent, pages.findSome? barred with
  | some f, _ => .error f
  | none, some f => .error f
  | none, none => .ok (pages.map (fun va =>
      match look va with
      | .ok l => l.pa
      | .error _ => 0))

/-- UNMAPW of window w of a core; nothing when it is not mapped (R51, R157). -/
def State.unmapNo (s : State) (c : CoreId) (w : BitVec 4) : State :=
  match s.windows.find? (fun u => u.core == c && u.w == w) with
  | some u => s.unmap u
  | none => s

/-- The unit at which UNMAPW of window w of a core would cross a failed link. -/
def State.unmapBarNo (s : State) (c : CoreId) (w : BitVec 4) : Option Nat :=
  (s.windows.find? (fun u => u.core == c && u.w == w)).bind s.unmapBar

/-- MAPW (R49, R157, R258). DESIGN CHOICE (log 59): its operand's reserved fields are checked before the address is. -/
def execMapw (d : BitVec 4) (a b : BitVec 5) (s : State) : Out :=
  let va := s.sreg a
  let m := mapArg (s.sreg b)
  let buf := Space.ofCode m.buf
  let last := va + BitVec.ofNat 64 (2 ^ 16 * m.n) - 1
  let bytes := 2 ^ 16 * m.n
  if !m.ok then .next (s.ctlTrap .reservedField s.ctlWord)
  else if 2 ^ 56 ≤ va.toNat then .next (s.ctlTrap .noncanon va)
  else if 2 ^ 56 ≤ last.toNat then .next (s.ctlTrap .noncanon last)
  else if m.off % 2 ^ 16 != 0 || va.toNat % 2 ^ 16 != 0 || m.n = 0 then .next (s.ctlTrap .misaligned va)
  else if bufSize buf < m.off + bytes || s.windowClash s.actCore d buf m.off va.toNat bytes then
    .next (s.ctlTrap .bufRange (BitVec.ofNat 64 m.off))
  else
    match s.windowPages s.ctlWho ((List.range m.n).map (fun i => va.toNat + i * 2 ^ 16)) with
    | .error (f, at_) => ctlAccFault s f (BitVec.ofNat 64 at_)
    | .ok pas =>
      match s.unmapBarNo s.actCore d with
      | some at_ => .next (s.ctlTrap .linkDown (BitVec.ofNat 64 at_))
      | none =>
      let u := s.unmapNo s.actCore d
      let w : Window := { core := s.actCore, w := d, buf := buf, off := m.off, va := va.toNat, pas := pas }
      .next { u.dropAhead with windows := u.windows ++ [w] }.retire

/-- UNMAPW (R51, R157): a write-back that would cross a failed link traps LINK_DOWN (R314). -/
def execUnmapw (d : BitVec 4) (s : State) : Out :=
  match s.unmapBarNo s.actCore d with
  | some at_ => .next (s.ctlTrap .linkDown (BitVec.ofNat 64 at_))
  | none => .next (s.unmapNo s.actCore d).retire

end Sys2Proof.Machine
end

