-- ==== Sys2Proof/Machine/Stream.lean ====
section
/-!
DEFINITION. Stream descriptors (R216, R217), operand pairs (R94) and the addresses of elements and scales (R88, R92).
-/

namespace Sys2Proof.Machine

/-- A field of a descriptor: n bytes at byte lo (R216). -/
def dfield (d : BitVec 512) (lo n : Nat) : Nat := d.toNat / 256 ^ lo % 256 ^ n

def dBase (d : BitVec 512) : Nat := dfield d 0 8
def dKind (d : BitVec 512) : Nat := dfield d 8 1 % 16
def dEtype (d : BitVec 512) : Nat := dfield d 8 1 / 16
def dT (d : BitVec 512) : Bool := (dfield d 9 1).testBit 0
def dWaitFull (d : BitVec 512) : Bool := (dfield d 9 1).testBit 1
def dClearRead (d : BitVec 512) : Bool := (dfield d 9 1).testBit 2
def dScaled (d : BitVec 512) : Bool := (dfield d 9 1).testBit 3
def dRows (d : BitVec 512) : Nat := dfield d 12 4
def dCols (d : BitVec 512) : Nat := dfield d 16 4
def dStride (d : BitVec 512) : Nat := dfield d 20 8
def dRow0 (d : BitVec 512) : Nat := dfield d 32 4
def dCol0 (d : BitVec 512) : Nat := dfield d 36 4
def dSbase (d : BitVec 512) : Nat := dfield d 40 8
def dSstride (d : BitVec 512) : Nat := dfield d 48 4
def dBh (d : BitVec 512) : Nat := dfield d 52 1
def dBw (d : BitVec 512) : Nat := dfield d 53 1
def dSeed (d : BitVec 512) : Nat := dfield d 56 8

/-- The element type of a descriptor; codes 13 to 15 fail R219 before this is used. -/
def dType (d : BitVec 512) : EType := (EType.ofCode (dEtype d)).getD .f32

/-- Reserved bytes and bits of a descriptor are zero (R216, R219 check 1). -/
def dReservedOk (d : BitVec 512) : Bool :=
  dfield d 9 1 / 16 == 0 && dfield d 10 2 == 0 && dfield d 28 4 == 0 && dfield d 54 2 == 0

/-- A descriptor with n bytes at byte lo replaced (R221). -/
def dSet (d : BitVec 512) (lo n v : Nat) : BitVec 512 :=
  BitVec.ofNat 512 (d.toNat - dfield d lo n * 256 ^ lo + v % 256 ^ n * 256 ^ lo)

/-- Element (r, c) lies in range (R217). -/
def dInRange (d : BitVec 512) (r c : Nat) : Bool := decide (r < dRows d) && decide (c < dCols d)

/-- Stored coordinates of a logical element (R217). -/
def dStored (d : BitVec 512) (r c : Nat) : Nat × Nat := if dT d then (c, r) else (r, c)

/-- The typed buffer of a descriptor of kind 1 to 3. -/
def dSpace (d : BitVec 512) : Space :=
  match dKind d with
  | 1 => .abuf
  | 2 => .wbuf
  | 3 => .cbuf
  | _ => .glob

/-- Byte address of a logical element (R92, R217) and, for K4, whether it is the high nibble. -/
def dElemAddr (d : BitVec 512) (r c : Nat) : Nat × Bool :=
  let (sr, sc) := dStored d r c
  let t := dType d
  let off := if t = .k4 then sc / 2 else sc * (t.bits / 8)
  let a := dBase d + sr * dStride d + off
  (if dSpace d = .glob then a % 2 ^ 64 else a, t == .k4 && sc % 2 == 1)

/-- Address of a logical element's scale byte (R88). -/
def dScaleAddr (d : BitVec 512) (r c : Nat) : Nat :=
  let (sr, sc) := dStored d r c
  let a := dSbase d + sr / 2 ^ dBh d * dSstride d + sc / 2 ^ dBw d
  if dSpace d = .glob then a % 2 ^ 64 else a

/-- Storage bytes of an element; a K4 element lies within one byte. -/
def elemBytes (t : EType) : Nat := if t = .k4 then 1 else t.bits / 8

/-- Types of the 8-bit class of R94. -/
def isByteClass (t : EType) : Bool := t == .k8 || t == .i8 || t == .u8

/-- The granule depth of an operand pair (R94), none for a pair it does not list. -/
def granuleDepth (a b : EType) : Option Nat :=
  if isByteClass a && isByteClass b then some 8
  else if a == .k4 && b == .k4 then some 16
  else if (a == .k4 && b == .k8) || (a == .k8 && b == .k4) then some 8
  else if (a == .f16 || a == .bf16) && (b == .f16 || b == .bf16) then some 4
  else if a == .f32 && b == .f32 then some 1
  else none

end Sys2Proof.Machine
end

