-- ==== Sys2Proof/Machine/Access.lean ====
section
/-!
DEFINITION. CTL's loads and stores (R145, R146), atomics (R147), cache operations (R148), and the Termite's queue that
performs memory-side accesses (R58, R259, R298).
-/

namespace Sys2Proof.Machine

/-! ### Atomics at memory (R147) -/

/-- The operation of an atomic on values of one width. -/
def amoInt (op : AmoOp) (n : Nat) (old val : BitVec n) : BitVec n :=
  match op with
  | .add => opAdd n old val
  | .and => opAnd n old val
  | .or => opOr n old val
  | .xor => opXor n old val
  | .min => opMin n old val
  | .max => opMax n old val
  | .minu => opMinu n old val
  | .maxu => opMaxu n old val
  | .swap => val
  | .cas => val
  | .fadd => val

/-- FADD rounds under RNE and sets no flag (R147). -/
def amoFadd (f : Fmt) (old val : Nat) : Nat := (addIn f .rne (f.value old) (f.value val)).1

/-- The new value of an atomic, or none when a CAS fails and writes nothing (R147). -/
def amoNew (op : AmoOp) (sz : AmoSize) (old val exp : DWord) : Option DWord :=
  let n := match sz with
    | .w => 32
    | .d => 64
  let o := old.setWidth n
  let v := val.setWidth n
  match op with
  | .cas => if o = exp.setWidth n then some (v.setWidth 64) else none
  | .fadd => some (BitVec.ofNat 64 (amoFadd (match sz with | .w => .f32 | .d => .a64) o.toNat v.toNat))
  | .add => some ((amoInt .add n o v).setWidth 64)
  | .and => some ((amoInt .and n o v).setWidth 64)
  | .or => some ((amoInt .or n o v).setWidth 64)
  | .xor => some ((amoInt .xor n o v).setWidth 64)
  | .min => some ((amoInt .min n o v).setWidth 64)
  | .max => some ((amoInt .max n o v).setWidth 64)
  | .minu => some ((amoInt .minu n o v).setWidth 64)
  | .maxu => some ((amoInt .maxu n o v).setWidth 64)
  | .swap => some (v.setWidth 64)

/-- Bytes of an atomic (R130). -/
def amoBytes : AmoSize → Nat
  | .w => 4
  | .d => 8

/-- The old value as s[d] receives it: a 32-bit one is sign-extended (R147). -/
def amoExtend (sz : AmoSize) (bs : List Byte) : DWord := extendLoad (sz == .w) bs

/-- A nibble of a byte, and the byte with it replaced (R147). -/
def nibbleOf (hi : Bool) (b : Byte) : Byte := if hi then b >>> 4 else b &&& 0x0F

def withNibble (hi : Bool) (b : Byte) (v : DWord) : Byte :=
  if hi then (b &&& 0x0F) ||| ((v.setWidth 8) <<< 4) else (b &&& 0xF0) ||| (v.setWidth 8 &&& 0x0F)

/-! ### Performing an access -/

/-- Bytes an access covers. -/
def MemOp.size : MemOp → Nat
  | .load _ n _ => n
  | .store bs => bs.length
  | .amo _ _ sz _ _ => amoBytes sz
  | .nswap _ _ _ => 1
  | .event _ => 8

/-- The kind of an access (R63). -/
def MemOp.kind : MemOp → AccKind
  | .load _ _ _ => .load
  | .store _ => .store
  | .amo _ _ _ _ _ => .atomic
  | .nswap _ _ _ => .atomic
  | .event _ => .atomic

/-- Whether an atomic is the add that increments an event (R156). DEDUCED (log 78): an AMOADD.d of any agent counts as one, as
SIGEV's own does. -/
def amoBumps (op : AmoOp) (sz : AmoSize) : Bool := op == .add && sz == .d

/-- An event is incremented at its point in the order (R156), as an AMOADD.d: its waiters hear of it. -/
def State.bumpEvent (s : State) (who : Who) (l : Leaf) (va : Nat) (v : DWord) : State :=
  let new : DWord := BitVec.ofNat 64 (leNat (s.readLeaf who l va 8)) + v
  (s.writeLeaf who l va (leBytes 8 new.toNat)).wakeEvent l.dev l.pa new

/-- The memory effect of an access at its point in the order (R253). -/
def State.memEffect (s : State) (who : Who) (l : Leaf) (va : Nat) (op : MemOp) : State :=
  match op with
  | .load _ _ _ => s
  | .store bs => s.writeLeaf who l va bs
  | .amo _ o sz val exp =>
    match amoNew o sz (BitVec.ofNat 64 (leNat (s.readLeaf who l va (amoBytes sz)))) val exp with
    | some v =>
      let t := s.writeLeaf who l va (storeBytes (amoBytes sz) v)
      if amoBumps o sz then t.wakeEvent l.dev l.pa v else t
    | none => s
  | .nswap _ hi val => s.writeLeaf who l va [withNibble hi (s.readByte who l va l.pa) val]
  | .event val => s.bumpEvent who l va val

/-- The register effect of an access: the value it returns, into s[d] (R145, R147). -/
def State.memResult (s : State) (who : Who) (l : Leaf) (va : Nat) (op : MemOp) : Option (BitVec 5 × DWord) :=
  match op with
  | .load d n sg => some (d, extendLoad sg (s.readLeaf who l va n))
  | .store _ => none
  | .amo d _ sz _ _ => some (d, amoExtend sz (s.readLeaf who l va (amoBytes sz)))
  | .nswap d hi _ => some (d, (nibbleOf hi (s.readByte who l va l.pa)).setWidth 64)
  | .event _ => none

/-- An atomic is performed where it is made: it is a release and an acquire (R256, R261). -/
def MemOp.late (op : MemOp) : Bool :=
  match op with
  | .load _ _ _ => true
  | .store _ => true
  | .amo _ _ _ _ _ => false
  | .nswap _ _ _ => false
  | .event _ => false

/-- An access performed for the running CTL, which retires. -/
def State.performCtl (s : State) (who : Who) (l : Leaf) (va : Nat) (op : MemOp) : State :=
  let who := { who with late := op.late }
  let t := ((s.memEffect who l va op).dropSeen who.agent).fillTlb who va
  match s.memResult who l va op with
  | some (d, v) => (t.setSreg d v).retire
  | none => t.retire

/-- Commands that one Termite holds (R294). -/
def termiteDepth : Nat := 1024

/-- The access joins the queue of its line's Termite and CTL waits for the answer (R58, R259); while the queue is full
it does not issue. -/
def State.sendTermite (s : State) (who : Who) (l : Leaf) (va : DWord) (op : MemOp) : State :=
  let st := stackOf l.pa
  let t := (s.here).theTask
  if h : st < 12 then
    if termiteDepth ≤ (s.termite[st]'h).length then s
    else
      let cmd : MsideCmd := { core := s.actCore, slot := t.slot, uid := t.uid, who := who, leaf := l, va := va, op := op }
      ({ s with termite := s.termite.set st (s.termite[st]'h ++ [TermOp.ctl cmd]) h }.fillTlb who va.toNat).onHere
        (fun k => k.setWait .ctl .message)
  else s

/-- A load whose home is elsewhere issues, and CTL goes on (R261). -/
def State.sendLoad (s : State) (who : Who) (l : Leaf) (va : Nat) (d : BitVec 5) (n : Nat) (sg : Bool) : State :=
  ((s.post who l va (.load d n sg)).fillTlb who va).retire

/-- A CTL access whose checks have passed: of a home elsewhere, a load or store issues to be performed later (R261). -/
def State.issueCtl (s : State) (who : Who) (l : Leaf) (va : Nat) (op : MemOp) : State :=
  match op with
  | .load d n sg => if s.postsTo who l then s.sendLoad who l va d n sg else s.performCtl who l va op
  | .store _ => s.performCtl who l va op
  | .amo _ _ _ _ _ => s.performCtl who l va op
  | .nswap _ _ _ => s.performCtl who l va op
  | .event _ => s.performCtl who l va op

/-- A CTL access whose checks have passed goes to the Termite of its stack, for a memory-side page of HBM and for MS = 1
(R58, R147), or is issued. -/
def State.sendCtl (s : State) (who : Who) (l : Leaf) (ea : DWord) (ms : Bool) (op : MemOp) : State :=
  if (l.mside || ms) && l.dev.isNone && decide (l.pa < hbmEnd) then s.sendTermite who l ea op
  else s.issueCtl who l ea.toNat op

/-- A CTL access after its alignment check (R146 checks 3 to 9): performed at once, at a later point when its home is
elsewhere (R261), or by the Termite of its stack for a memory-side page of HBM and for MS = 1 (R147). -/
def ctlAccess (s : State) (ea : DWord) (ms : Bool) (op : MemOp) : Out :=
  let who := s.ctlWho
  match s.access who op.kind ea.toNat op.size with
  | .error f => ctlAccFault s f ea
  | .ok l => .next (s.sendCtl who l ea ms op)

/-- A load or store with its alignment check (R146 check 2). -/
def loadStore (a : BitVec 5) (imm : BitVec 16) (op : MemOp) (s : State) : Out :=
  let ea := effAddr (s.sreg a) imm
  if ea.toNat % op.size != 0 then .next (s.ctlTrap .misaligned ea) else ctlAccess s ea false op

/-- LDB (R145). -/
def execLdb (d a : BitVec 5) (imm : BitVec 16) (s : State) : Out := loadStore a imm (.load d 1 true) s

/-- LDBU (R145). -/
def execLdbu (d a : BitVec 5) (imm : BitVec 16) (s : State) : Out := loadStore a imm (.load d 1 false) s

/-- LDH (R145). -/
def execLdh (d a : BitVec 5) (imm : BitVec 16) (s : State) : Out := loadStore a imm (.load d 2 true) s

/-- LDHU (R145). -/
def execLdhu (d a : BitVec 5) (imm : BitVec 16) (s : State) : Out := loadStore a imm (.load d 2 false) s

/-- LDW (R145). -/
def execLdw (d a : BitVec 5) (imm : BitVec 16) (s : State) : Out := loadStore a imm (.load d 4 true) s

/-- LDWU (R145). -/
def execLdwu (d a : BitVec 5) (imm : BitVec 16) (s : State) : Out := loadStore a imm (.load d 4 false) s

/-- LDD (R145). -/
def execLdd (d a : BitVec 5) (imm : BitVec 16) (s : State) : Out := loadStore a imm (.load d 8 false) s

/-- STB (R145). -/
def execStb (b a : BitVec 5) (imm : BitVec 16) (s : State) : Out := loadStore a imm (.store (storeBytes 1 (s.sreg b))) s

/-- STH (R145). -/
def execSth (b a : BitVec 5) (imm : BitVec 16) (s : State) : Out := loadStore a imm (.store (storeBytes 2 (s.sreg b))) s

/-- STW (R145). -/
def execStw (b a : BitVec 5) (imm : BitVec 16) (s : State) : Out := loadStore a imm (.store (storeBytes 4 (s.sreg b))) s

/-- STD (R145). -/
def execStd (b a : BitVec 5) (imm : BitVec 16) (s : State) : Out := loadStore a imm (.store (storeBytes 8 (s.sreg b))) s

/-- An atomic with R146's first two checks: HYP_ATOMIC under HCUR other than 0, then alignment. -/
def atomic (a : BitVec 5) (ms : Bool) (op : MemOp) (s : State) : Out :=
  let ea := s.sreg a
  if (s.here).ctl.hcur != 0 then .next (s.ctlTrap .hypAtomic 0)
  else if ea.toNat % op.size != 0 then .next (s.ctlTrap .misaligned ea)
  else ctlAccess s ea ms op

/-- An AMO of 32 or 64 bits; CAS expects s[d] as it stands (R147). -/
def amo (op : AmoOp) (d a b : BitVec 5) (ms : Bool) (sz : AmoSize) (s : State) : Out :=
  atomic a ms (.amo d op sz (s.sreg b) (s.sreg d)) s

/-- AMOADD (R147). -/
def execAmoadd (d a b : BitVec 5) (ms : Bool) (sz : AmoSize) (s : State) : Out := amo .add d a b ms sz s

/-- AMOAND (R147). -/
def execAmoand (d a b : BitVec 5) (ms : Bool) (sz : AmoSize) (s : State) : Out := amo .and d a b ms sz s

/-- AMOOR (R147). -/
def execAmoor (d a b : BitVec 5) (ms : Bool) (sz : AmoSize) (s : State) : Out := amo .or d a b ms sz s

/-- AMOXOR (R147). -/
def execAmoxor (d a b : BitVec 5) (ms : Bool) (sz : AmoSize) (s : State) : Out := amo .xor d a b ms sz s

/-- AMOMIN (R147). -/
def execAmomin (d a b : BitVec 5) (ms : Bool) (sz : AmoSize) (s : State) : Out := amo .min d a b ms sz s

/-- AMOMAX (R147). -/
def execAmomax (d a b : BitVec 5) (ms : Bool) (sz : AmoSize) (s : State) : Out := amo .max d a b ms sz s

/-- AMOMINU (R147). -/
def execAmominu (d a b : BitVec 5) (ms : Bool) (sz : AmoSize) (s : State) : Out := amo .minu d a b ms sz s

/-- AMOMAXU (R147). -/
def execAmomaxu (d a b : BitVec 5) (ms : Bool) (sz : AmoSize) (s : State) : Out := amo .maxu d a b ms sz s

/-- AMOSWAP (R147). -/
def execAmoswap (d a b : BitVec 5) (ms : Bool) (sz : AmoSize) (s : State) : Out := amo .swap d a b ms sz s

/-- AMOCAS (R147). -/
def execAmocas (d a b : BitVec 5) (ms : Bool) (sz : AmoSize) (s : State) : Out := amo .cas d a b ms sz s

/-- AMOFADD (R147). -/
def execAmofadd (d a b : BitVec 5) (ms : Bool) (sz : AmoSize) (s : State) : Out := amo .fadd d a b ms sz s

/-- AMONSWAP (R147). -/
def execAmonswap (d a b : BitVec 5) (hi ms : Bool) (s : State) : Out := atomic a ms (.nswap d hi (s.sreg b)) s

/-! ### Cache operations (R148)

No CACHE operation changes a value that any access returns, and none raises a fault, so none has an effect here: the
caches themselves hold nothing that an access could tell (log 9). -/

/-- CWB (R148). -/
def execCwb (_a : BitVec 5) (_imm : BitVec 16) (s : State) : Out := .next s.retire

/-- CINV (R148). -/
def execCinv (_a : BitVec 5) (_imm : BitVec 16) (s : State) : Out := .next s.retire

/-- CWBINV (R148). -/
def execCwbinv (_a : BitVec 5) (_imm : BitVec 16) (s : State) : Out := .next s.retire

/-- CPREF (R148). -/
def execCpref (_a : BitVec 5) (_imm : BitVec 16) (s : State) : Out := .next s.retire

end Sys2Proof.Machine
end

