-- ==== Sys2Proof/Machine/Work.lean ====
section
/-!
DEFINITION. Semaphores and flags (R27, R154, R155, R299), spawned launches (R36, R156) and events (R156).
-/

namespace Sys2Proof.Machine

/-! ### Semaphores -/

/-- SEMADD of CTL (R154). -/
def execSemadd (a : BitVec 5) (b : BitVec 4) (s : State) : Out :=
  match semSum ((s.here).sem b) (s.sreg a).toInt with
  | some v => .next (s.onHere (fun k => k.setSem b v)).retire
  | none => .next (s.ctlTrap .semOverflow (s.sreg a))

/-- SEMWAIT of CTL (R154). -/
def execSemwait (a : BitVec 5) (b : BitVec 4) (s : State) : Out :=
  if (s.sreg a).toNat ≤ ((s.here).sem b).toNat then .next s.retire
  else .next (s.onHere (fun k => k.setWait .ctl (.sem b (s.sreg a))))

/-- The engine that a sequencer is, if any. -/
def Sequencer.eng? : Sequencer → Option Engine
  | .ctl => none
  | .lds => some .lds
  | .cmp => some .cmp
  | .sts => some .sts

/-- A sequencer's SEMWAIT completes and its word retires. -/
def endSemwait (c : CoreId) (q : Sequencer) (s : State) : State :=
  match Sequencer.eng? q with
  | none => { s with actCore := c, actSeq := .ctl }.retireWait
  | some e => s.onCore c (fun k => k.finishWord e)

/-- Whether a sequencer's wait may end: the core goes on, and an engine's command is not to be abandoned (R66, R277,
R327). -/
def State.seqGoes (s : State) (c : CoreId) (q : Sequencer) : Bool :=
  match Sequencer.eng? q with
  | none => !(s.core c).stopped
  | some e => s.engGoes c e

/-- SEMWAIT_SATISFIED (R27): a SEMWAIT whose semaphore has reached its target, since it began to wait, retires. -/
def execSemwaitSatisfied (c : CoreId) (q : Sequencer) (s : State) : Out :=
  if (s.core c).wait q = .semMet && s.seqGoes c q then .next (endSemwait c q s) else .next s

/-! ### RFLAG and MFLAG -/

/-- Bits of RFLAG's target register that are zero (R155). -/
def rflagReserved (v : DWord) : Bool := v &&& 0xFFFFFFFFFE00FF80 != 0

/-- The age of the running task's launch, which tells it from an earlier or later one in its slot. -/
def State.myAge (s : State) : Nat :=
  match s.slot (s.here).theTask.slot with
  | some l => l.age
  | none => 0

/-- RFLAG (R155): the add travels to the target; an unreachable device or die traps LINK_DOWN (R289, R312). -/
def execRflag (d a : BitVec 5) (b : BitVec 4) (s : State) : Out :=
  let w := s.sreg d
  let dev : BitVec 9 := w.extractLsb' 16 9
  let tgt : CoreId := w.setWidth 7
  if rflagReserved w then .next (s.ctlTrap .reservedField s.ctlWord)
  else
    let reached := if dev = s.devid then s.linkUp (dieOf s.actCore) (dieOf tgt) else s.devReached (dieOf s.actCore) dev.toNat
    if !reached then .next (s.ctlTrap .linkDown w)
    else
      let m := FlagMsg.rflag s.actCore (s.here).theTask.uid (s.here).theTask.slot s.myAge dev tgt b (s.sreg a)
      .next ({ s with msgs := s.msgs ++ [m] }.onHere (fun k => k.setWait .ctl .message))

/-- The task of a launch most recently placed on a core, whether it has exited or not (R299). -/
def Launch.lastTask (l : Launch) (tgt : CoreId) : Option Nat := (l.lastOn.find? (fun p => p.1 == tgt)).map (·.2)

/-- The task most recently placed on a core by the launch of an age in a slot (R299). -/
def State.flagTask (s : State) (slot : BitVec 8) (age : Nat) (tgt : CoreId) : Option Nat :=
  (s.slot slot).bind (fun l => if l.age = age then l.lastTask tgt else none)

/-- Changes the semaphores of the launch's task most recently placed on a core, running anywhere or suspended (R299);
none when no task was placed there, or that task has exited. -/
def State.onFlagTask (s : State) (slot : BitVec 8) (age : Nat) (tgt : CoreId) (f : Core → Option Core) : Option (Option State) :=
  match s.flagTask slot age tgt with
  | none => none
  | some uid => (s.taskCore slot uid).map (fun k => (f k).map (fun r => s.onTask slot uid (fun _ => r)))

/-- RFLAG at its target (R27, R155, R299): the new state, or the cause with which it is refused. -/
def State.applyRflag (s : State) (slot : BitVec 8) (age : Nat) (dev : BitVec 9) (tgt : CoreId) (sem : BitVec 4) (val : DWord) :
    Except Cause State :=
  if dev = s.devid then
    match s.onFlagTask slot age tgt (fun k => (semSum (k.sem sem) val.toInt).map (fun v => k.setSem sem v)) with
    | none => .error .reservedField
    | some none => .error .semOverflow
    | some (some t) => .ok t
  else
    let s' := { s with freeCtr := s.freeCtr + 1 }
    match (Config.remoteFlag s.freeCtr).toNat with
    | 1 => .error .semOverflow
    | 2 => .error .reservedField
    | _ => .ok s'

/-- Whether a message is an RFLAG from a core, or an MFLAG from one with a target left. -/
def FlagMsg.isRflag (m : FlagMsg) (c : CoreId) : Bool :=
  match m with
  | .rflag src _ _ _ _ _ _ _ => src == c
  | .mflag _ _ _ _ _ _ _ => false

def FlagMsg.isMflag (m : FlagMsg) (c tgt : CoreId) : Bool :=
  match m with
  | .rflag _ _ _ _ _ _ _ _ => false
  | .mflag src _ _ _ ts _ _ => src == c && ts.contains tgt

/-- The oldest message that a test takes is replaced. -/
def replaceFirst (f : FlagMsg → Bool) (new : List FlagMsg) : List FlagMsg → List FlagMsg
  | [] => []
  | m :: ms => if f m then new ++ ms else m :: replaceFirst f new ms

/-- Whether the task that sent a flag still waits for its answer. -/
def State.awaits (s : State) (c : CoreId) (uid : Nat) : Bool := (s.core c).runs uid && decide ((s.core c).ctl.wait = .message)

/-- The word of s[d] that names a target (R155). -/
def flagWord (dev : BitVec 9) (tgt : CoreId) : DWord := BitVec.ofNat 64 (tgt.toNat + 2 ^ 16 * dev.toNat)

/-- An RFLAG on its way is applied, and its CTL retires; or it is refused, and its CTL traps (R155, R299). -/
def State.deliverRflag (s : State) (c : CoreId) (uid : Nat) (slot : BitVec 8) (age : Nat) (dev : BitVec 9) (tgt : CoreId)
    (sem : BitVec 4) (val : DWord) : State :=
  match s.applyRflag slot age dev tgt sem val with
  | .ok t => if s.awaits c uid then { t with actCore := c, actSeq := .ctl }.retireWait else t
  | .error cause =>
    if s.awaits c uid then
      { s with actCore := c, actSeq := .ctl }.ctlTrap cause (if cause = Cause.semOverflow then val else flagWord dev tgt)
    else s

/-- Whether the task that a flag reaches stands on a core whose clocks are held: its semaphores change only once they run
again (R66). -/
def State.flagWaits (s : State) (slot : BitVec 8) (age : Nat) (tgt : CoreId) : Bool :=
  match (s.flagTask slot age tgt).bind s.whereIs with
  | some c => (s.core c).hold
  | none => false

/-- RFLAG_DELIVERY (R299): the oldest RFLAG of core c arrives. It waits while the clocks of its sender, or of its target, are
held (R66). -/
def execRflagDelivery (c : CoreId) (s : State) : Out :=
  match s.msgs.find? (fun m => m.isRflag c) with
  | some (.rflag _ uid slot age dev tgt sem val) =>
    if (s.core c).stopped || (dev == s.devid && s.flagWaits slot age tgt) then .next s
    else
      .next ({ s with msgs := replaceFirst (fun m => m.isRflag c) [] s.msgs }.deliverRflag c uid slot age dev tgt sem val)
  | _ => .next s

/-- The cores that an MFLAG reaches: present, with their mask bit set (R155). -/
def State.mflagTargets (s : State) (lo hi : DWord) : List CoreId :=
  allCores.filter (fun c => s.present c && (if c.toNat < 64 then lo.getLsbD c.toNat else hi.getLsbD (c.toNat - 64)))

/-- MFLAG (R155): a set for each masked present core; a die that cannot be reached traps LINK_DOWN (R314). -/
def execMflag (d a : BitVec 5) (b : BitVec 4) (s : State) : Out :=
  let tgts := s.mflagTargets (s.sreg a) (s.sreg (a + 1))
  match tgts.find? (fun t => !s.linkUp (dieOf s.actCore) (dieOf t)) with
  | some t => .next (s.ctlTrap .linkDown (BitVec.ofNat 64 (dieOf t)))
  | none =>
    if tgts.isEmpty then .next s.retire
    else
      let m := FlagMsg.mflag s.actCore (s.here).theTask.uid (s.here).theTask.slot s.myAge tgts b ((s.sreg d).setWidth 32)
      .next ({ s with msgs := s.msgs ++ [m] }.onHere (fun k => k.setWait .ctl .message))

/-- MFLAG at one of its targets (R299). -/
def State.applyMflag (s : State) (slot : BitVec 8) (age : Nat) (tgt : CoreId) (sem : BitVec 4) (val : Word) : State :=
  match s.onFlagTask slot age tgt (fun k => some (k.setSem sem val)) with
  | some (some t) => t
  | some none => s
  | none => s

/-- MFLAG_DELIVERY (R299): the set reaches one masked core's task, or is ignored where there is none; with the last one
MFLAG retires. -/
def execMflagDelivery (c tgt : CoreId) (s : State) : Out :=
  match s.msgs.find? (fun m => m.isMflag c tgt) with
  | some (.mflag src uid slot age ts sem val) =>
    let rest := ts.filter (fun t => t != tgt)
    if (s.core c).stopped || s.flagWaits slot age tgt then .next s
    else if rest.isEmpty then
      let s2 := { s with msgs := replaceFirst (fun m => m.isMflag c tgt) [] s.msgs }.applyMflag slot age tgt sem val
      if s.awaits c uid then .next ({ s2 with actCore := c, actSeq := .ctl }.retireWait) else .next s2
    else
      .next ({ s with msgs := replaceFirst (fun m => m.isMflag c tgt) [.mflag src uid slot age rest sem val] s.msgs }.applyMflag
        slot age tgt sem val)
  | _ => .next s

/-- An RFLAG of another device arrives over Nudon for the task of a launch here (R289, R299). -/
def State.flagIn (s : State) (slot : BitVec 8) (tgt : CoreId) (sem : BitVec 4) (val : DWord) : State :=
  let age := match s.slot slot with
    | some l => l.age
    | none => 0
  if !s.nudonUp (dieOf tgt) then s.reply (.flag (some .linkDown))
  else if s.flagWaits slot age tgt then s
  else
    match s.applyRflag slot age s.devid tgt sem val with
    | .ok t => t.reply (.flag none)
    | .error c => s.reply (.flag (some c))

/-! ### SPAWN (R36) -/

/-- Entries of the spawn pool: unreserved and reserved (R36). -/
def poolOpen : Nat := 3840
def poolReserved : Nat := 256

/-- An unreserved entry is free. -/
def State.poolHasOpen (s : State) : Bool := decide ((s.pool.filter (fun p => !p.reserved)).length < poolOpen)

/-- The child record enters the pool. -/
def State.addPool (s : State) (record : List Byte) (ctx : BitVec 6) (slot : BitVec 8) (taskid : Word) (rsv : Bool) : State :=
  { s with pool := s.pool ++ [{ record := record, ctx := ctx, slot := slot, taskid := taskid, reserved := rsv }] }

/-- Records waiting in the spill queue of the launch in a slot. -/
def State.spilledOf (s : State) (slot : BitVec 8) : List SpillEnt :=
  match s.slot slot with
  | some l => s.spillq.filter (fun e => e.slot == slot && e.age == l.age)
  | none => []

/-- The spill queue's tail index of a launch. -/
def State.spqTail (s : State) (slot : BitVec 8) : Nat :=
  match s.slot slot with
  | some l => l.spqTail
  | none => 0

/-- A record written at an address joins its launch's spill queue (R36). -/
def State.spill (s : State) (t : Task) (at_ : DWord) : State :=
  let e : SpillEnt :=
    { slot := t.slot, age := (match s.slot t.slot with | some l => l.age | none => 0), taskid := t.taskid, uid := t.uid,
      who := { die := 4, ctx := t.ctx, world := t.world, hyp := 0, desc := t.desc }, va := at_.toNat }
  { s with spillq := s.spillq ++ [e] }.onSlot t.slot (fun l => { l with spqTail := l.spqTail + 1 })

/-- R36: the record goes to the pool, or to the tail of the parent launch's spill queue, or SPAWN traps SPAWN_FULL. -/
def placeSpawn (record : List Byte) (va : DWord) (s : State) : Out :=
  let t := (s.here).theTask
  let spilled := s.spilledOf t.slot
  if s.poolHasOpen && spilled.isEmpty then .next (s.addPool record t.ctx t.slot t.taskid false).retire
  else if t.spqLog = 0 || 2 ^ t.spqLog ≤ spilled.length || (s.slot t.slot).isNone then .next (s.ctlTrap .spawnFull va)
  else
    let at_ := t.spill + BitVec.ofNat 64 (s.spqTail t.slot % 2 ^ t.spqLog * 256)
    match s.store (s.whoOf s.actCore 0) at_.toNat record with
    | .ok u => .next (u.spill t at_).retire
    | .error (.shadow ats, _) =>
      if s.shlim = 0 then .next (s.ctlTrap .spawnFull va) else .next (s.awaitShadow .ctl .spawn at_ ats)
    | .error (.tag w, _) => .next ((s.tagError w).ctlTrap .spawnFull va)
    | .error (.trap _, _) => .next (s.ctlTrap .spawnFull va)

/-- SPAWN (R156): alignment, the read of 256 bytes as ordinary loads, then R36. -/
def execSpawn (a : BitVec 5) (s : State) : Out :=
  let va := s.sreg a
  if va.toNat % 64 != 0 then .next (s.ctlTrap .misaligned va)
  else
    match s.load s.ctlWho .load va.toNat 256 with
    | .error (f, at_) => ctlAccFault s f (BitVec.ofNat 64 at_)
    | .ok (record, u) => placeSpawn record va u

/-- Whether the task that spawned a record is blocked in WAITEV (R36). DESIGN CHOICE (log 12): a task that was pre-empted
while in WAITEV counts only once it is on a core again. -/
def State.blockedInWaitev (s : State) (uid : Nat) : Bool :=
  s.cores.any (fun k => k.runs uid && (match k.ctl.wait with
    | .event _ _ => true
    | _ => false))

/-- Whether the pool has an entry for a record: an unreserved one for any parent, a reserved one only when its spawning
task is blocked in WAITEV (R36). -/
def State.poolTakes (s : State) (e : SpillEnt) : Bool :=
  s.poolHasOpen || (decide ((s.pool.filter (fun p => p.reserved)).length < poolReserved) && s.blockedInWaitev e.uid)

/-- A record leaves the spill queue. -/
def State.unspill (s : State) (e : SpillEnt) : State := { s with spillq := s.spillq.erase e }

/-- The oldest record of each spill queue that belongs to a slot: that of the launch there, and those of launches that have
left it. -/
def State.spillHeads (s : State) (slot : BitVec 8) : List SpillEnt :=
  let q := s.spillq.filter (fun e => e.slot == slot)
  q.filter (fun e => q.find? (fun o => o.age == e.age) == some e)

/-- A record of a spill queue as memory now holds it. -/
def State.readSpill (s : State) (e : SpillEnt) : Except (AccFault × Nat) (List Byte × State) := s.load e.who .load e.va 256

/-- What a record that cannot be read does besides (R324). -/
def State.noteSpill (s : State) (e : SpillEnt) : State :=
  match s.readSpill e with
  | .ok _ => s
  | .error (f, _) => s.noteTag f

/-- A record that can be read moves into the pool. -/
def State.moveSpill (s : State) (e : SpillEnt) : Option State :=
  match s.readSpill e with
  | .ok (r, u) => some ((u.unspill e).addPool r e.who.ctx e.slot e.taskid (!s.poolHasOpen))
  | .error _ => none

/-- SPAWN_SPILL_MOVE (R36): of the spill queues that belong to a slot, the first whose oldest record the pool takes gives it,
as memory now holds it; a record that cannot be read stays (log 12), and holds its own queue only. -/
def execSpawnSpillMove (slot : BitVec 8) (s : State) : Out :=
  let es := (s.spillHeads slot).filter s.poolTakes
  match es.findSome? s.moveSpill with
  | some t => .next t
  | none => .next (es.foldl (fun t e => t.noteSpill e) s)

/-! ### Events (R156) -/

/-- CTL of the running task names an event (R162). -/
def State.nameEvent (s : State) (l : Leaf) : State := s.onCtl (fun k => { k with lastEvent := some (l.dev, l.pa) })

/-- SIGEV (R156): the checks of an AMO (R146), then the add, which wakes its waiters; on a memory-side page the Termite of
its stack performs it (R58). -/
def execSigev (a b : BitVec 5) (s : State) : Out :=
  let va := s.sreg a
  if (s.here).ctl.hcur != 0 then .next (s.ctlTrap .hypAtomic 0)
  else if va.toNat % 8 != 0 then .next (s.ctlTrap .misaligned va)
  else
    match s.access s.ctlWho .atomic va.toNat 8 with
    | .error f => ctlAccFault s f va
    | .ok l => .next ((s.nameEvent l).sendCtl s.ctlWho l va false (.event (s.sreg b)))

/-- WAITEV at an event (R156): it retires when the value has reached the target, and waits otherwise. -/
def waitEvent (va target : DWord) (s : State) : Out :=
  match s.access s.ctlWho .load va.toNat 8 with
  | .error f => ctlAccFault s f va
  | .ok l =>
    let v := leNat (s.readSeen s.ctlWho l va.toNat 8)
    let t := ((s.nameEvent l).dropSeen s.ctlWho.agent).fillTlb s.ctlWho va.toNat
    if target.toNat ≤ v then .next t.retireWait
    else .next (t.onHere (fun k => k.setWait .ctl (.event va target)))

/-- WAITEV (R156). -/
def execWaitev (a b : BitVec 5) (s : State) : Out :=
  let va := s.sreg a
  if va.toNat % 8 != 0 then .next (s.ctlTrap .misaligned va) else waitEvent va (s.sreg b) s

/-- WAITEV_SATISFIED (R156): a WAITEV whose event an increment has brought to its target retires; one that waits looks at
its event again. -/
def execWaitevSatisfied (c : CoreId) (s : State) : Out :=
  let u := { s with actCore := c, actSeq := .ctl }
  match (s.core c).ctl.wait with
  | .eventMet => if (s.core c).stopped then .next s else .next u.retireWait
  | .event va t => if (s.core c).stopped then .next s else waitEvent va t u
  | _ => .next s

end Sys2Proof.Machine
end

