-- ==== Sys2Proof/Machine/Transfer.lean ====
section
/-!
DEFINITION. The step words of LDS and STS (R164 to R177) and the progress of copies (R166, R174 to R180).
-/

namespace Sys2Proof.Machine

/-- The word an engine stands at, as TVAL reports it (R312). -/
def Core.engWordAt (k : Core) (e : Engine) : DWord := (Cells.read 0 (k.imem e.seqr) (k.eng e).pc).setWidth 64

/-- The word the running engine stands at. -/
def State.engWordBits (s : State) : DWord := (s.here).engWordAt s.actEng

/-! ### Steps without accesses -/

/-- NOP (R169). -/
def execXferNop (t : Tok) (s : State) : Out := engSimple s t noCheck id

/-- END of any engine (R23): its pushes, then the next iteration or the end of the command. -/
def Core.endWord (k : Core) (e : Engine) (t : Tok) : Core := ((k.owe e t .retire 0 true).drainPushes e).endIter e

/-- END of LDS or STS (R23, R169). -/
def execXferEnd (t : Tok) (s : State) : Out := engWord s t noCheck (fun u => u.onHere (fun k => k.endWord s.actEng t))

/-- AADD (R167). -/
def execAadd (t : Tok) (x y z : BitVec 4) (s : State) : Out :=
  engSimple s t noCheck (fun u => u.setAreg x (u.areg y + u.areg z))

/-- ALI (R167). -/
def execAli (t : Tok) (x : BitVec 4) (imm : BitVec 18) (s : State) : Out :=
  engSimple s t noCheck (fun u => u.setAreg x (imm.signExtend 64))

/-- AMOV (R167). -/
def execAmov (t : Tok) (x y : BitVec 4) (s : State) : Out := engSimple s t noCheck (fun u => u.setAreg x (u.areg y))

/-- A loop word of an engine: its check, an engine fault ILLEGAL_INSTR (R168, R213). -/
def loopCheck (words limit : Nat) (s : State) : Issue :=
  let g := (s.here).eng s.actEng
  if loopBad g.pc words limit g.loops then .fault .illegalInstr s.engWordBits else .go

/-- The start of an engine's loop (R168, R213): the word's pushes, then the loop's first word or the word past it. -/
def Core.startLoop (k : Core) (e : Engine) (t : Tok) (words count : Nat) : Core :=
  ((k.owe e t .retire 0 true).drainPushes e).onEng e (fun g =>
    let r := loopStart g.pc words count g.loops
    { g with pc := r.1, loops := r.2, wait := .none })

/-- LOOPT (R168). -/
def execLoopt (t : Tok) (x : BitVec 4) (imm : BitVec 8) (s : State) : Out :=
  engWord s t (loopCheck imm.toNat 8191)
    (fun u => u.onHere (fun k => k.startLoop s.actEng t imm.toNat (u.areg x).toNat))

/-! ### Semaphores (R170) -/

/-- The target of SEMWAIT: an unsigned immediate or an a register. -/
def State.xferTarget (s : State) : XferSemArg → DWord
  | .imm v => v.setWidth 64
  | .a r => s.areg r

/-- The value of SEMADD: a signed immediate or an a register. -/
def State.xferAddend (s : State) : XferSemArg → DWord
  | .imm v => v.signExtend 64
  | .a r => s.areg r

/-- An engine's SEMWAIT, its tokens taken: it retires or waits (R27). -/
def Core.semwaitEng (k : Core) (e : Engine) (t : Tok) (n : BitVec 4) (target : DWord) : Core :=
  if target.toNat ≤ (k.sem n).toNat then k.engRetire e t else k.setWait e.seqr (.sem n target)

/-- SEMWAIT of LDS or STS (R170). -/
def execXferSemwait (t : Tok) (sem : BitVec 4) (arg : XferSemArg) (s : State) : Out :=
  engWord s t noCheck (fun u => u.onHere (fun k => k.semwaitEng s.actEng t sem (u.xferTarget arg)))

/-- Whether a step has completed: reached the point at which its tokens are pushed (R166). -/
def Op.completed (o : Op) : Bool :=
  match o.kind with
  | .copy _ => false
  | .coll _ srcFree => srcFree
  | .mdec => false

/-- Whether every earlier step of a sequencer has completed (R170). -/
def Xfer.settled (x : Xfer) : Bool := x.ops.all Op.completed

/-- An add of an engine word to a semaphore (R27): a sum outside the range faults with the value, and the word has
performed nothing (R26). -/
def semaddCheck (n : BitVec 4) (v : DWord) (s : State) : Issue :=
  match semSum ((s.here).sem n) v.toInt with
  | some _ => .go
  | none => .fault .semOverflow v

/-- The add itself (R27). -/
def Core.semaddEng (k : Core) (n : BitVec 4) (v : DWord) : Core := k.setSem n ((semSum (k.sem n) v.toInt).getD (k.sem n))

/-- A word that waits until every earlier step of its sequencer has completed (R170, R177): it has not issued. -/
def settledCheck (check : State → Issue) (s : State) : Issue :=
  if ((s.here).xfer s.actSts).settled then check s else .hold .deferred

/-- SEMADD of LDS or STS (R170). -/
def execXferSemadd (t : Tok) (sem : BitVec 4) (arg : XferSemArg) (s : State) : Out :=
  engSimple s t (settledCheck (fun u => semaddCheck sem (u.xferAddend arg) u))
    (fun u => u.onHere (fun k => k.semaddEng sem (u.xferAddend arg)))

/-- TUSE (R177). -/
def execTuse (t : Tok) (x : BitVec 4) (s : State) : Out :=
  engSimple s t (settledCheck noCheck) (fun u => (u.useTlt u.myCtx (u.areg x).toNat).1)

/-! ### Boxes (R171, R172) -/

/-- A field of a box record: n bytes at byte lo. -/
def bxField (b : BitVec 1024) (lo n : Nat) : Nat := b.toNat / 256 ^ lo % 256 ^ n

def bxE0 (b : BitVec 1024) : Nat := bxField b 0 4
def bxNd (b : BitVec 1024) : Nat := bxField b 20 1
def bxIdx (b : BitVec 1024) : Nat := bxField b 88 8

/-- Extent of dimension k (R171). -/
def bxExt (b : BitVec 1024) (k : Nat) : Nat := if 1 ≤ k && decide (k < bxNd b) then bxField b (4 * k) 4 else 1

/-- Source stride of dimension k, signed (R171). -/
def bxSs (b : BitVec 1024) (k : Nat) : Int :=
  if 1 ≤ k && decide (k < bxNd b) then (BitVec.ofNat 64 (bxField b (16 + 8 * k) 8)).toInt else 0

/-- Destination stride of dimension k, signed (R171). -/
def bxDs (b : BitVec 1024) (k : Nat) : Int :=
  if 1 ≤ k && decide (k < bxNd b) then (BitVec.ofNat 64 (bxField b (48 + 8 * k) 8)).toInt else 0

/-- The empty box (R171). -/
def bxEmpty (b : BitVec 1024) : Bool :=
  bxNd b == 0 || bxE0 b == 0 || bxExt b 1 == 0 || bxExt b 2 == 0 || bxExt b 3 == 0 || bxExt b 4 == 0

/-- Reads a record for an engine word: the bytes, or what the failing check makes of the word; TVAL is `tval` (R172
checks 2 to 4). -/
def State.readRecord (s : State) (va : DWord) (n : Nat) : Except Issue (List Byte) :=
  match s.firstFault s.engWho [{ kind := .load, group := 0, va := va.toNat, n := n }] with
  | some (f, _) => .error (f.issue va)
  | none =>
    match s.load s.engWho .load va.toNat n with
    | .error (f, _) => .error (f.issue va)
    | .ok (bs, _) => .ok bs

/-- What BOXLD finds (R172): the record, or the failing check. -/
def boxldRead (va : DWord) (s : State) : Except Issue (List Byte) :=
  if va.toNat % 128 != 0 then .error (.fault .misaligned va)
  else
    match s.readRecord va 128 with
    | .error i => .error i
    | .ok bs =>
      if 5 < fieldAt bs 20 1 || 0x01000000 < fieldAt bs 0 4 || !zeroAt bs 21 3 || !zeroAt bs 96 32 then
        .error (.fault .reservedField 0)
      else if fieldAt bs 88 8 % 4 != 0 then .error (.fault .misaligned (BitVec.ofNat 64 (fieldAt bs 88 8)))
      else .ok bs

/-- The finding of a read as a check. -/
def issueOf {α : Type} : Except Issue α → Issue
  | .ok _ => .go
  | .error i => i

/-- BOXLD (R171, R172). -/
def execBoxld (t : Tok) (x : BitVec 3) (y : BitVec 4) (s : State) : Out :=
  engSimple s t (fun u => issueOf (boxldRead (u.areg y) u)) (fun u =>
    match boxldRead (u.areg y) u with
    | .error _ => u
    | .ok bs =>
      u.onHere (fun k => k.onXfer s.actSts (fun r => { r with bx := r.bx.set x.toNat (BitVec.ofNat 1024 (leNat bs)) x.isLt })))

/-- A box register. -/
def State.bxreg (s : State) (z : BitVec 3) : BitVec 1024 := ((s.here).xfer s.actSts).bx[z.toNat]'(z.isLt)

/-! ### Issue of a copy step (R173, R166) -/

/-- Spaces that a sequencer may name (R173). -/
def spacesOk (sts : Bool) (kind : CopyKind) (ssp dsp : Space) : Bool :=
  if sts then dsp == .glob
  else (dsp == .glob || dsp == .abuf || dsp == .wbuf) && (kind == .zero || ssp == .glob)

/-- Whether a step's rows are indexed. -/
def CopyKind.indexed : CopyKind → Bool
  | .copy => false
  | .gath => true
  | .scat => true
  | .zero => false

/-- The bounding range of the rows of a box from a base, with one side's strides (R166). -/
def bound (base : DWord) (b : BitVec 1024) (st : BitVec 1024 → Nat → Int) : Int × Int :=
  let span (k : Nat) : Int := ((bxExt b k : Int) - 1) * st b k
  let lo := min 0 (span 1) + min 0 (span 2) + min 0 (span 3) + min 0 (span 4)
  let hi := max 0 (span 1) + max 0 (span 2) + max 0 (span 3) + max 0 (span 4)
  ((base.toNat : Int) + lo, (base.toNat : Int) + hi + bxE0 b)

/-- A range of a space. -/
abbrev Range := Space × Int × Int

/-- Ranges a step reads (R166): its source rows and its index list; a GATH's rows are left out. -/
def CopyOp.reads (c : CopyOp) : List Range :=
  if bxEmpty c.box then []
  else
    (match c.kind with
     | .copy => [(c.ssp, bound c.src c.box bxSs)]
     | .scat => [(c.ssp, bound c.src c.box bxSs)]
     | .gath => []
     | .zero => []) ++
    (if c.kind.indexed then
      [(Space.glob, ((bxIdx c.box : Int), (bxIdx c.box : Int) + 4 * bxExt c.box 1))] else [])

/-- Ranges a step writes (R166): its destination rows; a SCAT's are left out. -/
def CopyOp.writes (c : CopyOp) : List Range :=
  if bxEmpty c.box then []
  else
    match c.kind with
    | .scat => []
    | .copy => [(c.dsp, bound c.dst c.box bxDs)]
    | .gath => [(c.dsp, bound c.dst c.box bxDs)]
    | .zero => [(c.dsp, bound c.dst c.box bxDs)]

def overlap (p q : Range) : Bool := p.1 == q.1 && decide (p.2.1 < q.2.2) && decide (q.2.1 < p.2.2)

def anyOverlap (ps qs : List Range) : Bool := ps.any (fun p => qs.any (fun q => overlap p q))

/-- Whether a new step must wait for one in flight (R166). -/
def CopyOp.mustWait (c d : CopyOp) : Bool :=
  anyOverlap (c.reads ++ c.writes) d.writes || anyOverlap c.writes d.reads

/-- Whether a new step must wait for any in flight. -/
def Xfer.delays (x : Xfer) (c : CopyOp) : Bool :=
  x.ops.any (fun o => match o.kind with
    | .copy d => c.mustWait d
    | .coll _ _ => false
    | .mdec => false)

/-- Multiples of 8 that a source in space 3 needs (R173). -/
def cAligned (src : DWord) (b : BitVec 1024) : Bool :=
  src.toNat % 8 == 0 && bxE0 b % 8 == 0 && (List.range 5).all (fun k => bxSs b k % 8 == 0)

/-- The checks of a copy step at issue (R173), and R166's delay. DESIGN CHOICE (log 76): they are made in the order
ENGINE_DENIED, whose TVAL is 0, RESERVED_FIELD, MISALIGNED. -/
def copyCheck (c : CopyOp) (s : State) : Issue :=
  if !spacesOk s.actSts c.kind c.ssp c.dsp then .fault .engineDenied 0
  else if c.kind.indexed && bxNd c.box < 2 then .fault .reservedField s.engWordBits
  else if c.kind != .zero && c.ssp == .cbuf && !cAligned c.src c.box then .fault .misaligned c.src
  else if ((s.here).xfer s.actSts).delays c then .hold .overlap
  else .go

/-- The step that a word starts, with what a fault report of it needs. -/
def Core.newOp (k : Core) (e : Engine) (t : Tok) (kind : OpKind) : Op :=
  let g := k.eng e
  let r := g.cur.getD default
  { id := g.nextOp, kind := kind, hyp := r.cmd.hyp, tag := r.cmd.tag, frag := r.cmd.frag, waddr := g.pc, serial := r.serial,
    sig := t.sp || t.sn }

/-- A step joins those in flight, owing its pushes, and its word retires (R166). -/
def Core.startOp (k : Core) (e : Engine) (sts : Bool) (t : Tok) (kind : OpKind) : Core :=
  let o := k.newOp e t kind
  let k := k.onXfer sts (fun x => { x with ops := x.ops ++ [o] })
  let k := k.onEng e (fun g => { g with nextOp := g.nextOp + 1 })
  (k.owe e t .step o.id false).engAdvance e

/-- A step leaves those in flight, its pushes made poisoned or not; a step that waits on overlap looks again. The
pushes of a refuted command are not made (R277). -/
def Core.endOp (k : Core) (e : Engine) (sts : Bool) (op : Nat) (poison refuted : Bool) : Core :=
  let k := k.onXfer sts (fun x => { x with ops := x.ops.filter (fun o => o.id != op) })
  let k := if refuted then k.dropPushes e op else k.settle e op poison
  if (k.eng e).wait = .overlap then k.setWait e.seqr .none else k

/-- The engine that a transfer sequencer is. -/
def xferEng (sts : Bool) : Engine := if sts then .sts else .lds

/-- An empty box completes at once (R175). -/
def Core.startCopy (k : Core) (sts : Bool) (t : Tok) (c : CopyOp) : Core :=
  let e := xferEng sts
  let id := (k.eng e).nextOp
  let k := k.startOp e sts t (.copy c)
  if bxEmpty c.box then k.endOp e sts id false false else k

/-- A copy step (R173, R174, R177). -/
def copyStep (t : Tok) (kind : CopyKind) (x y : BitVec 4) (z : BitVec 3) (src dst : Space) (use : Bool) (s : State) : Out :=
  let make (u : State) : CopyOp :=
    { kind := kind, dst := u.areg x, src := u.areg y, dsp := dst, ssp := src, box := u.bxreg z, unit := 0, held := false,
      tlt := none }
  engWord s t (fun u => copyCheck (make u) u) (fun u =>
    let va := if src = .glob then u.areg y else u.areg x
    let r := if use then u.useTlt u.myCtx va.toNat else (u, none)
    r.1.onHere (fun k => k.startCopy s.actSts t { make u with tlt := r.2 }))

/-- COPY (R174). -/
def execCopy (t : Tok) (x y : BitVec 4) (z : BitVec 3) (src dst : Space) (use : Bool) (s : State) : Out :=
  copyStep t .copy x y z src dst use s

/-- GATH (R174). -/
def execGath (t : Tok) (x y : BitVec 4) (z : BitVec 3) (src dst : Space) (use : Bool) (s : State) : Out :=
  copyStep t .gath x y z src dst use s

/-- SCAT (R174). -/
def execScat (t : Tok) (x y : BitVec 4) (z : BitVec 3) (src dst : Space) (use : Bool) (s : State) : Out :=
  copyStep t .scat x y z src dst use s

/-- ZERO (R174): it has no source. -/
def execZero (t : Tok) (x : BitVec 4) (z : BitVec 3) (dst : Space) (s : State) : Out :=
  copyStep t .zero x 0 z .glob dst false s

/-- PREF (R176): it changes no value, and lines that do not translate are skipped (log 9). -/
def execPref (t : Tok) (_x : BitVec 4) (_z : BitVec 3) (_src : Space) (s : State) : Out := engSimple s t noCheck id

/-! ### Units (R174) -/

/-- Units of a row. -/
def bxRowUnits (b : BitVec 1024) : Nat := (bxE0 b + 127) / 128

/-- Rows of a box. -/
def bxRows (b : BitVec 1024) : Nat := bxExt b 1 * bxExt b 2 * bxExt b 3 * bxExt b 4

/-- Units of a box. -/
def bxUnits (b : BitVec 1024) : Nat := if bxEmpty b then 0 else bxRows b * bxRowUnits b

/-- Index of dimension k in row r: i[1] runs fastest. -/
def bxIndex (b : BitVec 1024) (r k : Nat) : Nat :=
  match k with
  | 1 => r % bxExt b 1
  | 2 => r / bxExt b 1 % bxExt b 2
  | 3 => r / (bxExt b 1 * bxExt b 2) % bxExt b 3
  | _ => r / (bxExt b 1 * bxExt b 2 * bxExt b 3) % bxExt b 4

/-- A row's address: dimension 1 counted by `i1` (R174). -/
def rowAddr (base : DWord) (b : BitVec 1024) (st : BitVec 1024 → Nat → Int) (i1 r : Nat) : DWord :=
  base + BitVec.ofInt 64 ((i1 : Int) * st b 1 + (bxIndex b r 2 : Int) * st b 2 + (bxIndex b r 3 : Int) * st b 3
    + (bxIndex b r 4 : Int) * st b 4)

/-- What a unit does, its index read: source and destination, none for a hole's side that makes no access. -/
structure UnitPlan where
  src : Option DWord
  dst : Option DWord
  n   : Nat
  deriving DecidableEq, Repr, Inhabited

/-- The row that a step has come to. -/
def CopyOp.rowNo (c : CopyOp) : Nat := c.unit / bxRowUnits c.box

/-- The address of a row's index. -/
def CopyOp.idxAddr (c : CopyOp) : Nat := (bxIdx c.box + 4 * bxIndex c.box c.rowNo 1) % 2 ^ 64

/-- The unit that a step comes to, with its index `j` (R174). -/
def CopyOp.plan (c : CopyOp) (j : Nat) : UnitPlan :=
  let b := c.box
  let r := c.unit / bxRowUnits b
  let u := c.unit % bxRowUnits b
  let off := BitVec.ofNat 64 (128 * u)
  let n := min 128 (bxE0 b - 128 * u)
  let i1 := bxIndex b r 1
  let hole := j == 0xFFFFFFFF
  let s (i : Nat) := rowAddr c.src b bxSs i r + off
  let d (i : Nat) := rowAddr c.dst b bxDs i r + off
  match c.kind with
  | .copy => { src := some (s i1), dst := some (d i1), n := n }
  | .gath => { src := if hole then none else some (s j), dst := some (d i1), n := n }
  | .scat => if hole then { src := none, dst := none, n := n } else { src := some (s i1), dst := some (d j), n := n }
  | .zero => { src := none, dst := some (d i1), n := n }

/-- Whether a local range lies in its buffer; the first offset outside otherwise (R41). -/
def bufFault (b : Space) (off : DWord) (n : Nat) : Option Nat :=
  if b = .glob then none
  else if off.toNat + n ≤ bufSize b then none
  else some (max off.toNat (bufSize b))

/-- The tile that a matrix word uses is in flight until the word completes (R204). -/
def Core.tileBusy (k : Core) (t : Nat) : Bool := k.cmp.mq.any (fun m => m.acc.toNat == t)

/-- Whether a range of a buffer touches a C-buffer tile in flight. -/
def Core.cBusy (k : Core) (b : Space) (off n : Nat) : Bool :=
  b == .cbuf && n != 0 && (List.range ((off + n - 1) / 32768 - off / 32768 + 1)).any (fun i => k.tileBusy (off / 32768 + i))

/-- What stands in the way of a unit. -/
inductive UnitBar where
  | fault (c : Cause) (tval : Nat)
  | shadow (va : Nat) (ats : Bool)
  | tag (w : BitVec 4) (va : Nat)
  /-- A C-buffer tile in flight (R174). -/
  | wait
  deriving DecidableEq, Repr, Inhabited

def AccFault.bar (f : AccFault) (va : Nat) : UnitBar :=
  match f with
  | .trap c => .fault c va
  | .shadow a => .shadow va a
  | .tag w => .tag w va

/-- The accesses of a unit in space 0, reads before writes. -/
def UnitPlan.reqs (p : UnitPlan) (c : CopyOp) : List Req :=
  (match p.src with
   | some a => if c.ssp = .glob then [{ kind := .load, group := 0, va := a.toNat, n := p.n }] else []
   | none => []) ++
  (match p.dst with
   | some a => if c.dsp = .glob then [{ kind := .store, group := 1, va := a.toNat, n := p.n }] else []
   | none => [])

/-- The buffer fault of a unit, source first. -/
def UnitPlan.bufBar (p : UnitPlan) (c : CopyOp) : Option Nat :=
  match p.src.bind (fun a => bufFault c.ssp a p.n) with
  | some o => some o
  | none => p.dst.bind (fun a => bufFault c.dsp a p.n)

/-- The first uncorrectable byte that a unit reads of a buffer (R312). -/
def UnitPlan.badBar (p : UnitPlan) (k : Core) (c : CopyOp) : Option Nat := p.src.bind (fun a => k.badAt c.ssp a.toNat p.n)

/-- The checks of a unit whose index is read (R179). DESIGN CHOICE (log 74): a side that leaves its buffer (R41) decides before
the other side's access checks (R146). -/
def State.planBar (s : State) (k : Core) (who : Who) (c : CopyOp) (p : UnitPlan) : Option UnitBar :=
  match p.bufBar c with
  | some o => some (.fault .bufRange o)
  | none =>
    match s.firstFault who (p.reqs c) with
    | some (f, a) => some (f.bar a)
    | none =>
      match p.badBar k c with
      | some o => some (.fault .eccUncorr o)
      | none =>
        match p.src with
        | some a => if k.cBusy c.ssp a.toNat p.n then some .wait else none
        | none => none

/-- The index of the row that a step has come to: read once a row, as the walk reaches it (R174). -/
def State.rowIndex (s : State) (who : Who) (c : CopyOp) : Except UnitBar Nat :=
  if !c.kind.indexed then .ok 0
  else
    match c.row with
    | some (r, j) => if r = c.rowNo then .ok j else readIndex s who c
    | none => readIndex s who c
where
  readIndex (s : State) (who : Who) (c : CopyOp) : Except UnitBar Nat :=
    match s.load who .load c.idxAddr 4 with
    | .error (f, a) => .error (f.bar a)
    | .ok (bs, _) => .ok (leNat bs)

/-- The unit that a step comes to with its row's index, or what stands in its way: the index first (R174, R179). -/
def State.unitOf (s : State) (k : Core) (who : Who) (c : CopyOp) : Except UnitBar (Nat × UnitPlan) :=
  match s.rowIndex who c with
  | .error b => .error b
  | .ok j =>
    match s.planBar k who c (c.plan j) with
    | some b => .error b
    | none => .ok (j, c.plan j)

/-- The bytes a unit reads: zeros without a source (R174). -/
def State.unitBytes (s : State) (k : Core) (who : Who) (c : CopyOp) (p : UnitPlan) : List Byte :=
  match p.src with
  | none => List.replicate p.n 0
  | some a =>
    if c.ssp = .glob then
      match s.load who .load a.toNat p.n with
      | .ok (bs, _) => bs
      | .error _ => List.replicate p.n 0
    else s.bufSeen k who c.ssp a.toNat p.n

/-- Bytes of a step are written from an address on; a write into the W- or A-buffer fills its granules (R46). -/
def State.putUnit (s : State) (c : CoreId) (who : Who) (o : CopyOp) (a : Nat) (bs : List Byte) : State :=
  if o.dsp = .glob then
    match s.engineStore who a bs with
    | .ok t => t
    | .error _ => s
  else s.onCore c (fun k => (k.putBuf o.dsp a bs).fill o.dsp (granules a bs.length))

/-- The part of a unit's bytes that lies in one 16-byte granule of the destination, with its address. -/
def UnitPlan.part (p : UnitPlan) (a : DWord) (bs : List Byte) (g : Nat) : Nat × List Byte :=
  let lo := max a.toNat (16 * g)
  (lo, (bs.drop (lo - a.toNat)).take (min (a.toNat + p.n) (16 * g + 16) - lo))

/-- A checked unit moves its bytes (R174), but for the granules that it has moved ahead of the rest. -/
def State.doUnit (s : State) (c : CoreId) (who : Who) (o : CopyOp) (p : UnitPlan) : State :=
  let bs := s.unitBytes (s.core c) who o p
  match p.dst with
  | none => s
  | some a =>
    if o.done.isEmpty then s.putUnit c who o a.toNat bs
    else
      ((granules a.toNat p.n).filter (fun g => !o.done.contains g)).foldl (fun t g =>
        t.putUnit c who o (p.part a bs g).1 (p.part a bs g).2) s

/-! ### Progress of a step -/

/-- A copy step in flight. -/
def Xfer.op (x : Xfer) (id : Nat) : Option Op := x.ops.find? (fun o => o.id == id)

/-- Replaces a step in flight. -/
def Xfer.setOp (x : Xfer) (o : Op) : Xfer := { x with ops := x.ops.map (fun p => if p.id == o.id then o else p) }

/-- The source of an access by a step (R178). -/
def State.opWho (s : State) (c : CoreId) (sts : Bool) (o : Op) : Who :=
  { s.whoOf c o.hyp with agent := .op (s.core c).theTask.uid sts o.id }

/-- The fault report of a step (R160). -/
def Op.report (o : Op) (e : Engine) (c : Cause) (tval : Nat) : EngFault :=
  { eng := some e, serial := o.serial, cause := c, tval := BitVec.ofNat 64 tval, waddr := o.waddr, frag := o.frag,
    tag := o.tag, hyp := o.hyp }

/-- Whether a step's hypothesis is refuted. -/
def State.opRefuted (s : State) (c : CoreId) (o : Op) : Bool :=
  o.hyp != 0 && (s.ctx (s.core c).theTask.ctx).isRefuted o.hyp

/-- The end of a step by a fault (R179): poisoned tokens, or an engine fault when the step signals none. -/
def State.opFault (s : State) (c : CoreId) (e : Engine) (sts : Bool) (o : Op) (cause : Cause) (tval : Nat) : State :=
  let refuted := s.opRefuted c o
  s.onCore c (fun k =>
    let k := k.endOp e sts o.id true refuted
    if o.sig then k else k.post (o.report e cause tval))

/-- A step whose every unit has been moved completes once its writes elsewhere have been performed (R261). -/
def State.endCopy (s : State) (c : CoreId) (e : Engine) (sts : Bool) (o : Op) : State :=
  if s.quiet (s.opWho c sts o).agent then
    let refuted := s.opRefuted c o
    s.onCore c (fun k => k.endOp e sts o.id false refuted)
  else s

/-- A step offers its V = 0 fault to the shadow control context (R179). -/
def State.holdOp (s : State) (c : CoreId) (e : Engine) (sts : Bool) (o : Op) (p : CopyOp) (va : Nat) (ats : Bool) : State :=
  s.onCore c (fun k =>
    (k.onXfer sts (fun x => x.setOp { o with kind := .copy { p with held := true } })).offer
      { who := .step e o.id, va := BitVec.ofNat 64 va, ats := ats, arr := s.clock })

/-- A step after one of its units, whose row had the index j. -/
def CopyOp.next (p : CopyOp) (j : Nat) : CopyOp := { p with unit := p.unit + 1, row := some (p.rowNo, j), done := [] }

/-- The units of a step, at most `n` of them: it stops before a unit with a bar, and is complete after its last. -/
def State.runUnits (s : State) (c : CoreId) (e : Engine) (sts : Bool) (id : Nat) : Nat → State
  | 0 => s
  | n + 1 =>
    match ((s.core c).xfer sts).op id with
    | none => s
    | some o =>
      match o.kind with
      | .copy p =>
        if p.held then s
        else if bxUnits p.box ≤ p.unit then s.endCopy c e sts o
        else
          match s.unitOf (s.core c) (s.opWho c sts o) p with
          | .error (.shadow va ats) => if s.shlim = 0 then s else s.holdOp c e sts o p va ats
          | .error (.fault _ _) => s
          | .error (.tag _ _) => s
          | .error .wait => s
          | .ok (j, plan) =>
            let o' : Op := { o with kind := .copy (p.next j) }
            let t := (s.doUnit c (s.opWho c sts o) p plan).onCore c (fun k => k.onXfer sts (fun x => x.setOp o'))
            if p.unit + 1 < bxUnits p.box then t.runUnits c e sts id n else t.endCopy c e sts o'
      | .coll _ _ => s
      | .mdec => s

/-- Whether an engine is STS; CMP has no steps. -/
def stsOf : Engine → Option Bool
  | .lds => some false
  | .cmp => none
  | .sts => some true

/-- COPY_COMPLETE (R174): a copy, gather, scatter or zero makes up to `units` units of progress; with its last unit it
completes and pushes its tokens. -/
def execCopyComplete (c : CoreId) (e : Engine) (op units : Nat) (s : State) : Out :=
  match stsOf e with
  | none => .next s
  | some sts => if s.halts c then .next s else .next (s.runUnits c e sts op units)

/-- COPY_UNIT_FAULT (R179): the unit that a step has come to meets a fault that no service resolves. -/
def execCopyUnitFault (c : CoreId) (e : Engine) (op : Nat) (s : State) : Out :=
  match stsOf e with
  | none => .next s
  | some sts =>
    match ((s.core c).xfer sts).op op with
    | none => .next s
    | some o =>
      match o.kind with
      | .copy p =>
        if p.held || s.halts c || bxUnits p.box ≤ p.unit then .next s
        else
          match s.unitOf (s.core c) (s.opWho c sts o) p with
          | .error (.fault cause a) => .next (s.opFault c e sts o cause a)
          | .error (.tag w a) => .next ((s.tagError w).opFault c e sts o .eccUncorr a)
          | .error (.shadow a _) => if s.shlim = 0 then .next (s.opFault c e sts o .pageNotPresent a) else .next s
          | .error .wait => .next s
          | .ok _ => .next s
      | .coll _ _ => .next s
      | .mdec => .next s

end Sys2Proof.Machine
end

