-- ==== Sys2Proof/Machine/Lanes.lean ====
section
/-!
DEFINITION. Lanes of vector registers (R188), the shape register and enabled lanes (R189, R191, R38), and the shared
form of class 00 words (R192, R193).
-/

namespace Sys2Proof.Machine

/-- Lanes of a vector register at a type (R188). -/
def lanesOf (t : EType) : Nat := 2048 / t.bits

/-- Lane i of a register: K4's nibbles lie as R92 places them. -/
def laneOf (v : VReg) (t : EType) (i : Nat) : Nat := v.toNat / 2 ^ (t.bits * i) % 2 ^ t.bits

/-- A number from its digits of `w` bits, least significant first. -/
def ofDigits (w : Nat) : List Nat → Nat
  | [] => 0
  | x :: xs => x % 2 ^ w + 2 ^ w * ofDigits w xs

/-- A register with the lanes that `f` gives replaced. -/
def setLanes (v : VReg) (t : EType) (f : Nat → Option Nat) : VReg :=
  BitVec.ofNat 2048 (ofDigits t.bits ((List.range (lanesOf t)).map (fun i => (f i).getD (laneOf v t i))))

/-- The byte of a register that holds the start of lane i. -/
def laneByte (t : EType) (i : Nat) : Nat := i * t.bits / 8

/-- Whether a word's predicate enables the byte of lane i (R191). -/
def predOn (p : PReg) (neg : Bool) (t : EType) (i : Nat) : Bool := p.getLsbD (laneByte t i) != neg

/-- The shape of the running CMP (R189). -/
def State.shape (s : State) : Shape := (s.here).cmp.shape

/-- A word's predicate register, p0 to p3. -/
def State.predOf (s : State) (p : Pred) : PReg := s.preg (p.reg.setWidth 3)

/-- Whether lane i is enabled (R191). -/
def State.laneOn (s : State) (p : Pred) (i : Nat) : Bool :=
  decide (i < s.shape.vl.toNat) && predOn (s.predOf p) p.neg s.shape.ty i

/-- The enabled lanes, ascending. -/
def State.lanesOn (s : State) (p : Pred) : List Nat :=
  (List.range (min s.shape.vl.toNat (lanesOf s.shape.ty))).filter (fun i => predOn (s.predOf p) p.neg s.shape.ty i)

/-- A predicated-false word (R38). -/
def State.predFalse (s : State) (p : Pred) : Bool := (s.lanesOn p).isEmpty

/-- The group size (R189). -/
def Shape.group (h : Shape) : Nat := min (2 ^ h.glog.toNat) (lanesOf h.ty)

/-- Lane i of a second source (R193). -/
def State.srcLane (s : State) (b : VSrc) (t : EType) (i : Nat) : Nat :=
  match b with
  | .v r => laneOf (s.vreg r) t i
  | .k r => (s.kreg r).toNat % 2 ^ t.bits

/-! ### Type classes (R192) -/

def isInt (t : EType) : Bool := (EType.signed? t).isSome
def isFloat (t : EType) : Bool := t == .f16 || t == .bf16 || t == .f32
def isNum (t : EType) : Bool := isInt t || isFloat t
def anyType (_ : EType) : Bool := true
def isWord32 (t : EType) : Bool := t == .i32 || t == .u32
def isF32 (t : EType) : Bool := t == .f32
def isU32 (t : EType) : Bool := t == .u32

/-- R192's check of the type. -/
def typeCheck (ok : EType → Bool) (s : State) : Issue :=
  if ok s.shape.ty then .go else .fault .reservedField s.engWordBits

/-! ### Words on lanes -/

/-- Flags of several operations. -/
def orFlags (fs : List FFlags) : FFlags := fs.foldl FFlags.or { }

/-- A lane function (R193, R194): type, rounding mode, x, y and the old z, to a result and its flags. -/
abbrev LaneFn := EType → RMode → Nat → Nat → Nat → Nat × FFlags

/-- The effect of a class 00 word on its enabled lanes, with its flags (R76, R193). -/
def State.onLanes (s : State) (p : Pred) (d : BitVec 5) (f : Nat → Nat × FFlags) : State :=
  if s.predFalse p then s
  else
    let on := s.lanesOn p
    let t := s.shape.ty
    let s' := s.setVreg d (setLanes (s.vreg d) t (fun i => if on.contains i then some (f i).1 else none))
    s'.onHere (fun k => k.raiseV (orFlags (on.map (fun i => (f i).2))))

/-- A class 00 word: the type check, then one result per enabled lane. -/
def laneWord (t : Tok) (p : Pred) (ok : EType → Bool) (d : BitVec 5) (f : State → Nat → Nat × FFlags) (s : State) : Out :=
  engSimple s t (typeCheck ok) (fun u => u.onLanes p d (f u))

/-- A word of two vector operands and the old destination (R193, R194). -/
def binWord (t : Tok) (p : Pred) (d a : BitVec 5) (b : VSrc) (ok : EType → Bool) (f : LaneFn) (s : State) : Out :=
  laneWord t p ok d (fun u i =>
    let ty := u.shape.ty
    f ty u.shape.rm (laneOf (u.vreg a) ty i) (u.srcLane b ty i) (laneOf (u.vreg d) ty i)) s

/-- A word of one vector operand. -/
def unWord (t : Tok) (p : Pred) (d a : BitVec 5) (ok : EType → Bool) (f : LaneFn) (s : State) : Out :=
  laneWord t p ok d (fun u i => f u.shape.ty u.shape.rm (laneOf (u.vreg a) u.shape.ty i) 0 0) s

/-! ### Building lane functions -/

/-- An integer function of signedness, width and operands; a float function of format, mode and operand bits. -/
def byClass (fi : Bool → Nat → Nat → Nat → Nat → Nat) (ff : Fmt → RMode → Nat → Nat → Nat → Nat × FFlags) : LaneFn :=
  fun t rm x y z =>
    match EType.signed? t with
    | some sg => (fi sg t.bits x y z, { })
    | none =>
      match EType.fmt? t with
      | some f => ff f rm x y z
      | none => (x, { })

/-- A bitwise or integer function of the width alone. -/
def byBits (f : Nat → Nat → Nat → Nat → Nat) : LaneFn := fun t _ x y z => (f t.bits x y z, { })

/-- A float function given on exact values. -/
def byValue (g : Fmt → RMode → XVal → XVal → XVal → Nat × FFlags) : Fmt → RMode → Nat → Nat → Nat → Nat × FFlags :=
  fun f rm x y z => g f rm (f.value x) (f.value y) (f.value z)

/-- No float result: the type check bars it. -/
def noFloat : Fmt → RMode → Nat → Nat → Nat → Nat × FFlags := fun _ _ x _ _ => (x, { })

/-- A two-operand integer function on the operands' values, its result mod 2^w. -/
def onInts (f : Int → Int → Int) : Bool → Nat → Nat → Nat → Nat → Nat :=
  fun sg w x y _ => intBits w (f (intValue sg w x) (intValue sg w y))

/-- Whether a float value comes before another with -0 below +0 (R193). -/
def zLess (a b : XVal) : Bool :=
  if a.isZero && b.isZero then a.isNegZero && !b.isNegZero else a.cmp b == .lt

/-- VMIN and VMAX of floats: the canonical NaN for a NaN, VNV for a signalling one (R193). -/
def minMaxF (max : Bool) (f : Fmt) (x y : Nat) : Nat × FFlags :=
  let a := f.value x
  let b := f.value y
  if a.isNan || b.isNan then (f.qnan, { nv := a.isSig || b.isSig })
  else (if zLess b a != max then y else x, { })

/-- A sign operation on a float: the canonical NaN for a NaN. -/
def signF (f : Fmt) (x r : Nat) : Nat × FFlags :=
  let a := f.value x
  if a.isNan then (f.qnan, { nv := a.isSig }) else (r, { })

end Sys2Proof.Machine
end

