-- ==== Sys2Proof/Machine/VecMem.lean ====
section
/-!
DEFINITION. Class 01 words of CMP: vector loads and stores, VSTU, VGATH, VSCAT (R200 to R206), VPART and VPERM (R207,
R208), and the step that ends a full-empty wait (R46).
-/

namespace Sys2Proof.Machine

/-! ### Elements and runs -/

/-- An element of a vector access: its lane, byte address and, for K4, its nibble. -/
structure Elem where
  lane : Nat
  addr : Nat
  hi   : Bool
  deriving DecidableEq, Repr, Inhabited

/-- Element number `e` of an access at ea, for lane i (R200, R203). DESIGN CHOICE (log 71): element addresses, like the byte
addresses of VSTU (R202), are taken mod 2^64. -/
def elemAt (t : EType) (ea : DWord) (i e : Nat) : Elem :=
  if t = .k4 then { lane := i, addr := (ea.toNat + e / 2) % 2 ^ 64, hi := e % 2 == 1 }
  else { lane := i, addr := (ea.toNat + t.bits / 8 * e) % 2 ^ 64, hi := false }

/-- Joins runs that follow one another; bytes of one address are named once. -/
def joinRuns : List (Nat × Nat) → List (Nat × Nat)
  | [] => []
  | (a, n) :: rs =>
    match joinRuns rs with
    | (b, m) :: qs => if a = b && n ≤ m then (b, m) :: qs else if a + n = b then (a, n + m) :: qs else (a, n) :: (b, m) :: qs
    | [] => [(a, n)]

/-- The runs of bytes that elements occupy. -/
def runsOf (t : EType) (es : List Elem) : List (Nat × Nat) := joinRuns (es.map (fun e => (e.addr, elemBytes t)))

/-! ### Checks (R204) -/

/-- The lowest of some addresses. -/
def lowest : List Nat → Option Nat
  | [] => none
  | a :: as =>
    match lowest as with
    | some b => some (min a b)
    | none => some a

/-- The first byte of a local run beyond its buffer. -/
def runBeyond (sp : Space) (r : Nat × Nat) : List Nat := if r.1 + r.2 ≤ bufSize sp then [] else [max r.1 (bufSize sp)]

/-- The first byte of a local run in a tile in flight. -/
def Core.runBusy (k : Core) (r : Nat × Nat) : List Nat :=
  match (List.range r.2).find? (fun i => k.tileBusy ((r.1 + i) / 32768)) with
  | some i => [r.1 + i]
  | none => []

/-- R204's checks on runs of bytes. -/
def vecCheck (sp : Space) (kind : AccKind) (rs : List (Nat × Nat)) (s : State) : Issue :=
  if sp = .glob then
    match s.firstFault s.engWho (rs.map (fun r => { kind := kind, group := 0, va := r.1, n := r.2 })) with
    | some (f, a) => f.issue (BitVec.ofNat 64 a)
    | none => .go
  else
    match lowest (rs.flatMap (runBeyond sp)) with
    | some a => .fault .bufRange (BitVec.ofNat 64 a)
    | none =>
      match (if sp = .cbuf then lowest (rs.flatMap (s.here).runBusy) else none) with
      | some a => .fault .accBusy (BitVec.ofNat 64 a)
      | none =>
        match (if kind = .load then lowest (rs.filterMap (fun r => (s.here).badAt sp r.1 r.2)) else none) with
        | some a => .fault .eccUncorr (BitVec.ofNat 64 a)
        | none => .go

/-! ### Reading and writing -/

/-- A byte of which a store keeps a nibble, as CMP reads it: of a buffer, or of memory under the command's hypothesis, its
own earlier write to a home elsewhere before what stands there (R254, R260). -/
def State.byteAt (s : State) (sp : Space) (a : Nat) : Byte :=
  if sp = .glob then
    match s.translate s.engWho a with
    | .ok l => s.readOwn s.engWho l a l.pa
    | .error _ => 0
  else (s.here).bufByte sp a

/-- Bytes of a checked read. -/
def State.bytesAt (s : State) (sp : Space) (a n : Nat) : List Byte :=
  if sp = .glob then
    match s.load s.engWho .load a n with
    | .ok (bs, _) => bs
    | .error _ => []
  else s.bufSeen s.here s.engWho sp a n

/-- An element's bits. -/
def State.elemBits (s : State) (sp : Space) (t : EType) (e : Elem) : Nat :=
  let v := leNat (s.bytesAt sp e.addr (elemBytes t))
  if t = .k4 then v / 16 ^ bit e.hi % 16 else v

/-- Bytes of a checked write. -/
def State.putAt (s : State) (sp : Space) (a : Nat) (bs : List Byte) : State :=
  if sp = .glob then
    match s.store s.engWho a bs with
    | .ok t => t
    | .error _ => s
  else s.onHere (fun k => k.putBuf sp a bs)

/-- A nibble of a byte replaced. -/
def setNibble (b : Byte) (hi : Bool) (v : Nat) : Byte :=
  if hi then BitVec.ofNat 8 (b.toNat % 16 + 16 * (v % 16)) else BitVec.ofNat 8 (b.toNat / 16 * 16 + v % 16)

/-- The bytes that an element's lane writes, given the byte a nibble leaves. -/
def elemOut (t : EType) (old : Byte) (hi : Bool) (v : Nat) : List Byte :=
  if t = .k4 then [setNibble old hi v] else leBytes (elemBytes t) v

/-- The bytes of contiguous elements with their addresses: the two nibbles of one byte together (R201). -/
def State.outBytes (s : State) (sp : Space) (t : EType) (v : VReg) : List Elem → List (Nat × Byte)
  | [] => []
  | e :: es =>
    let rest := s.outBytes sp t v es
    if t = .k4 then
      match rest with
      | (a, b) :: more =>
        if a = e.addr then (a, setNibble b e.hi (laneOf v t e.lane)) :: more
        else (e.addr, setNibble (s.byteAt sp e.addr) e.hi (laneOf v t e.lane)) :: rest
      | [] => [(e.addr, setNibble (s.byteAt sp e.addr) e.hi (laneOf v t e.lane))]
    else
      (List.range (elemBytes t)).map (fun i => (e.addr + i, BitVec.ofNat 8 (laneOf v t e.lane / 256 ^ i))) ++ rest

/-- Addressed bytes as runs. -/
def byteRuns : List (Nat × Byte) → List (Nat × List Byte)
  | [] => []
  | (a, b) :: ps =>
    match byteRuns ps with
    | (c, bs) :: rs => if a + 1 = c then (a, b :: bs) :: rs else (a, [b]) :: (c, bs) :: rs
    | [] => [(a, [b])]

/-- Writes runs of bytes. -/
def State.putRuns (s : State) (sp : Space) (rs : List (Nat × List Byte)) : State :=
  rs.foldl (fun t r => t.putAt sp r.1 r.2) s

/-- The granules of runs of bytes. -/
def runGranules (rs : List (Nat × Nat)) : List Nat := rs.flatMap (fun r => granules r.1 r.2)

/-! ### Loads (R201, R206) -/

/-- The elements of the enabled lanes of a contiguous access. -/
def State.contig (s : State) (p : Pred) (k : BitVec 4) : List Elem :=
  (s.lanesOn p).map (fun i => elemAt s.shape.ty (s.kreg k) i i)

/-- The element that VLDB reads. -/
def State.oneElem (s : State) (k : BitVec 4) : Elem := elemAt s.shape.ty (s.kreg k) 0 0

/-- R204's checks on elements; none for a predicated-false word (R38). -/
def elemCheck (p : Pred) (sp : Space) (kind : AccKind) (es : State → List Elem) (s : State) : Issue :=
  if s.predFalse p then .go else vecCheck sp kind (runsOf s.shape.ty (es s)) s

/-- Whether a byte lies at a home elsewhere, where a load of the running CMP is performed later (R261). -/
def State.lateAt (s : State) (a : Nat) : Bool :=
  match s.translate s.engWho a with
  | .ok l => s.postsTo s.engWho l
  | .error _ => false

/-- Whether a byte of an element lies at a home elsewhere: an element lies in at most two pages. -/
def State.lateElemAt (s : State) (t : EType) (e : Elem) : Bool :=
  s.lateAt e.addr || s.lateAt ((e.addr + elemBytes t - 1) % 2 ^ 64)

/-- A byte of a load that is to be performed later: what of it lies here is read now. -/
def State.lateByte (s : State) (a : Nat) : LateByte :=
  match s.translate s.engWho a with
  | .ok l => if s.postsTo s.engWho l then .away a l else .here ((s.readSeen s.engWho l a 1).headD 0)
  | .error _ => .here 0

/-- A lane of a load that is to be performed later. -/
def State.lateLane (s : State) (t : EType) (p : Nat × Elem) : Nat × Bool × List LateByte :=
  (p.1, p.2.hi, (List.range (elemBytes t)).map (fun j => s.lateByte ((p.2.addr + j) % 2 ^ 64)))

/-- The first byte of a lane that lies elsewhere. -/
def laneHome (x : Nat × Bool × List LateByte) : Option (Nat × Leaf) :=
  x.2.2.findSome? (fun b => match b with
    | .here _ => none
    | .away a l => some (a, l))

/-- Lanes gathered by the frame in which they lie. -/
def addLane (x : Nat × Bool × List LateByte) : List (List (Nat × Bool × List LateByte)) → List (List (Nat × Bool × List LateByte))
  | [] => [[x]]
  | g :: gs =>
    if (g.head?.bind laneHome).map (fun h => (h.2.dev, h.2.pa / 2 ^ 16)) = (laneHome x).map (fun h => (h.2.dev, h.2.pa / 2 ^ 16))
    then (x :: g) :: gs
    else g :: addLane x gs

/-- A load of lanes of v that lie in one frame elsewhere is under way (R261). -/
def State.postLanes (s : State) (v : BitVec 5) (t : EType) (g : List (Nat × Bool × List LateByte)) : State :=
  match g.head?.bind laneHome with
  | some (a, l) => s.post s.engWho l a (.vload v t g)
  | none => s

/-- What a load of lanes comes to: v with the elements that lie here, read at one point (R253), and, for each frame elsewhere,
a load under way (R261). -/
def State.loadLanes (s : State) (v : BitVec 5) (sp : Space) (es : List (Nat × Elem)) : State :=
  let ty := s.shape.ty
  let away (p : Nat × Elem) : Bool := sp == .glob && s.lateElemAt ty p.2
  let u := s.setVreg v (setLanes (s.vreg v) ty (fun i =>
    (es.find? (fun p => p.1 == i && !away p)).map (fun p => s.elemBits sp ty p.2)))
  let late := ((es.filter away).map (s.lateLane ty)).foldr addLane []
  late.foldl (fun t g => t.postLanes v ty g) (if sp = .glob then u.dropAhead else u)

/-- Granules that a load has read already, ahead of the rest (R46). -/
def State.seenGranule (s : State) (sp : Space) (g : Nat) : Bool := (s.peekByte s.engWho.agent (s.peekTag s.engWho) sp none (16 * g)).isSome

/-- A load's word, its tokens taken: it waits while a granule it needs is EMPTY and has not been read, then reads, empties
what it clears, and retires. `one` reads a single element for every lane. -/
def vecLoad (t : Tok) (p : Pred) (v : BitVec 5) (k : BitVec 4) (sp : Space) (q : LoadQual) (inc one : Bool) (u : State) :
    State :=
  if u.predFalse p then (u.bumpK inc k).onHere (fun c => c.engRetire .cmp t)
  else
    let ty := u.shape.ty
    let es := if one then [u.oneElem k] else u.contig p k
    let gs := runGranules (runsOf ty es)
    if q != .plain && !(u.here).allFull sp (gs.filter (fun g => !u.seenGranule sp g)) then
      u.onHere (fun c => c.setWait .cmp .fullEmpty)
    else
      let u' := u.loadLanes v sp ((u.lanesOn p).map (fun i => (i, if one then u.oneElem k else elemAt ty (u.kreg k) i i)))
      let u' := if q == .clearOnRead then u'.onHere (fun c => c.drain sp gs) else u'
      (u'.bumpK inc k).onHere (fun c => c.engRetire .cmp t)

/-- VLD (R201). -/
def execVld (t : Tok) (p : Pred) (v : BitVec 5) (k : BitVec 4) (sp : Space) (q : LoadQual) (s : State) : Out :=
  engWord s t (elemCheck p sp .load (fun u => u.contig p k)) (vecLoad t p v k sp q false false)

/-- VLDI (R201). -/
def execVldi (t : Tok) (p : Pred) (v : BitVec 5) (k : BitVec 4) (sp : Space) (q : LoadQual) (s : State) : Out :=
  engWord s t (elemCheck p sp .load (fun u => u.contig p k)) (vecLoad t p v k sp q true false)

/-- VLDB (R201). -/
def execVldb (t : Tok) (p : Pred) (v : BitVec 5) (k : BitVec 4) (sp : Space) (q : LoadQual) (s : State) : Out :=
  engWord s t (elemCheck p sp .load (fun u => [u.oneElem k])) (vecLoad t p v k sp q false true)

/-- FULL_EMPTY_WAIT_DONE (R46): a load that waits on granules goes on once they are FULL. -/
def execFullEmptyWaitDone (c : CoreId) (s : State) : Out :=
  let k := s.core c
  if k.cmp.eng.wait = .fullEmpty && s.engGoes c .cmp then
    let u := { s.onCore c (fun k => k.setWait .cmp .none) with actCore := c, actSeq := .cmp }
    match k.instrAt .cmp .cmp 32768 k.cmp.eng.pc with
    | .vld t p v r sp q => .next (vecLoad t p v r sp q false false u)
    | .vldi t p v r sp q => .next (vecLoad t p v r sp q true false u)
    | .vldb t p v r sp q => .next (vecLoad t p v r sp q false true u)
    | _ => .next s
  else .next s

/-! ### Stores (R201, R202) -/

/-- Writes runs and, with set-full, fills the granules that hold them. -/
def State.storeRuns (s : State) (sp : Space) (q : StoreQual) (rs : List (Nat × List Byte)) : State :=
  let u := s.putRuns sp rs
  if q == .setFull then u.onHere (fun c => c.fill sp (runGranules (rs.map (fun r => (r.1, r.2.length))))) else u

/-- The bytes of which a store of K4 elements keeps a nibble (R201, R260). -/
def keptBytes (t : EType) (es : List Elem) : List Nat :=
  if t = .k4 then (es.filter (fun e => !es.any (fun f => f.addr == e.addr && f.hi != e.hi))).map (·.addr) else []

/-- Whether some element of a store is a K4 element whose byte partner is not stored (R201, R260). -/
def keepsNibble (t : EType) (es : List Elem) : Bool := !(keptBytes t es).isEmpty

/-- Why a byte of which a nibble is kept cannot be read through its leaf (R312, R324). -/
def State.keepBar (s : State) (who : Who) (l : Leaf) : Option AccFault :=
  match (if l.dev.isSome then none else s.windowAt l.pa) with
  | some (w, off) => if ((s.core w.core).badAt w.buf off 1).isSome then some (.trap .eccUncorr) else none
  | none =>
    if s.badData l .load 1 then some (.trap .eccUncorr)
    else if !s.tagsOk who l .load 1 then some (.tag (BitVec.ofNat 4 l.enc))
    else none

/-- The same of a byte of a core's space, with its address. -/
def State.keepFault (s : State) (k : Core) (who : Who) (sp : Space) (a : Nat) : Option (AccFault × Nat) :=
  if sp = .glob then
    match s.translate who a with
    | .ok l => (s.keepBar who l).map (fun f => (f, a))
    | .error _ => none
  else (k.badAt sp a 1).map (fun b => (.trap .eccUncorr, b))

/-- The first of some bytes that cannot be read. -/
def State.keepsFault (s : State) (k : Core) (who : Who) (sp : Space) (as : List Nat) : Option (AccFault × Nat) :=
  (lowest (as.filter (fun a => (s.keepFault k who sp a).isSome))).bind (s.keepFault k who sp)

/-- R204's checks on the elements of a store, those of the bytes that it reads among them; none for a predicated-false word
(R38). -/
def storeCheck (p : Pred) (sp : Space) (es : State → List Elem) (s : State) : Issue :=
  match elemCheck p sp .store es s with
  | .go =>
    if s.predFalse p then .go
    else
      match s.keepsFault s.here s.engWho sp (keptBytes s.shape.ty (es s)) with
      | some (f, a) => f.issue (BitVec.ofNat 64 a)
      | none => .go
  | r => r

/-- Runs of bytes with the leaves of those in memory. -/
def State.leafRuns (s : State) (sp : Space) (rs : List (Nat × List Byte)) : List (Nat × Option Leaf × List Byte) :=
  rs.flatMap (fun r =>
    if sp = .glob then
      match s.accessAll s.engWho .store (pagesOf r.1 r.2.length) with
      | .ok ls => ls.map (fun p => (p.1, some p.2.2, (r.2.drop (p.1 - r.1)).take p.2.1))
      | .error _ => []
    else [(r.1, none, r.2)])

/-- The first access of a store that keeps nibbles: the bytes are read, and what will be written is settled; the writes
follow at CMP's next turn (R260). -/
def State.beginNib (s : State) (t : Tok) (sp : Space) (fill : Bool) (rs : List (Nat × List Byte)) (inc : Bool) (k : BitVec 4) :
    State :=
  let n : NibStore := { sp := sp, fill := fill, runs := s.leafRuns sp rs, inc := inc, k := k, tok := t }
  (if sp = .glob then s.dropAhead else s).onHere (fun c => (c.onCmp (fun x => { x with nib := some n })).setWait .cmp .nibble)

/-- A store of elements: its runs are written and the word retires, or it makes the first of its two accesses. -/
def State.storeElems (s : State) (t : Tok) (sp : Space) (q : StoreQual) (es : List Elem) (rs : List (Nat × List Byte))
    (inc : Bool) (k : BitVec 4) : State :=
  if keepsNibble s.shape.ty es then s.beginNib t sp (q == .setFull) rs inc k
  else ((s.storeRuns sp q rs).bumpK inc k).onHere (fun c => c.engRetire .cmp t)

/-- A contiguous store. -/
def vecStore (t : Tok) (p : Pred) (v : BitVec 5) (k : BitVec 4) (sp : Space) (q : StoreQual) (inc : Bool) (s : State) :
    Out :=
  engWord s t (storeCheck p sp (fun u => u.contig p k)) (fun u =>
    if u.predFalse p then (u.bumpK inc k).onHere (fun c => c.engRetire .cmp t)
    else u.storeElems t sp q (u.contig p k) (byteRuns (u.outBytes sp u.shape.ty (u.vreg v) (u.contig p k))) inc k)

/-- VST (R201). -/
def execVst (t : Tok) (p : Pred) (v : BitVec 5) (k : BitVec 4) (sp : Space) (q : StoreQual) (s : State) : Out :=
  vecStore t p v k sp q false s

/-- VSTI (R201). -/
def execVsti (t : Tok) (p : Pred) (v : BitVec 5) (k : BitVec 4) (sp : Space) (q : StoreQual) (s : State) : Out :=
  vecStore t p v k sp q true s

/-- The bytes that VSTU writes, with their addresses (R202). -/
def State.vstuBytes (s : State) (p : Pred) (v : BitVec 5) (k : BitVec 4) : List (Nat × Byte) :=
  ((List.range 256).filter (fun j => (s.predOf p).getLsbD j != p.neg)).map (fun j =>
    (((s.kreg k).toNat + j) % 2 ^ 64, BitVec.ofNat 8 ((s.vreg v).toNat / 256 ^ j)))

/-- VSTU (R202). -/
def execVstu (t : Tok) (p : Pred) (v : BitVec 5) (k : BitVec 4) (sp : Space) (q : StoreQual) (s : State) : Out :=
  engSimple s t
    (fun u =>
      let rs := byteRuns (u.vstuBytes p v k)
      if rs.isEmpty then .go else vecCheck sp .store (rs.map (fun r => (r.1, r.2.length))) u)
    (fun u => u.storeRuns sp q (byteRuns (u.vstuBytes p v k)))

/-! ### Indexed forms (R203) -/

/-- Lanes that VGATH and VSCAT process. -/
def State.indexedOn (s : State) (p : Pred) : List Nat := (s.lanesOn p).filter (fun i => decide (i < 64))

/-- Lane i's index: the u32 at bytes 4i to 4i + 3. -/
def indexOf (v : VReg) (i : Nat) : Nat := v.toNat / 2 ^ (32 * i) % 2 ^ 32

/-- An index that marks a hole. -/
def holeIndex : Nat := 0xFFFFFFFF

/-- The elements of the processed lanes that are no holes. -/
def State.indexed (s : State) (p : Pred) (vi : BitVec 5) (k : BitVec 4) : List Elem :=
  ((s.indexedOn p).filter (fun i => indexOf (s.vreg vi) i != holeIndex)).map (fun i =>
    elemAt s.shape.ty (s.kreg k) i (indexOf (s.vreg vi) i))

/-- VGATH (R203). -/
def execVgath (t : Tok) (p : Pred) (v vi : BitVec 5) (k : BitVec 4) (sp : Space) (s : State) : Out :=
  engSimple s t (elemCheck p sp .load (fun u => u.indexed p vi k)) (fun u =>
    let holes := (u.indexedOn p).filter (fun i => indexOf (u.vreg vi) i == holeIndex)
    let es := u.indexed p vi k
    let u' := u.setVreg v (setLanes (u.vreg v) u.shape.ty (fun i => if holes.contains i then some 0 else none))
    if es.isEmpty then u' else u'.loadLanes v sp (es.map (fun e => (e.lane, e))))

/-- The latest byte that a list of runs holds for an address. -/
def lastByte (rs : List (Nat × List Byte)) (a : Nat) : Option Byte :=
  rs.foldl (fun b r => if r.1 ≤ a then (r.2[a - r.1]?).orElse (fun _ => b) else b) none

/-- The bytes that VSCAT writes, lane by lane in ascending order, so that the higher lane's remain (R203). -/
def State.scatRuns (s : State) (sp : Space) (v : VReg) (es : List Elem) : List (Nat × List Byte) :=
  let ty := s.shape.ty
  es.foldl (fun rs e =>
    rs ++ [(e.addr, elemOut ty ((lastByte rs e.addr).getD (s.byteAt sp e.addr)) e.hi (laneOf v ty e.lane))]) []

/-- VSCAT (R203). -/
def execVscat (t : Tok) (p : Pred) (v vi : BitVec 5) (k : BitVec 4) (sp : Space) (s : State) : Out :=
  engWord s t (storeCheck p sp (fun u => u.indexed p vi k)) (fun u =>
    u.storeElems t sp .plain (u.indexed p vi k) (u.scatRuns sp (u.vreg v) (u.indexed p vi k)) false k)

/-! ### VPART and VPERM (R207, R208) -/

/-- Lanes below VL from a list, zero beyond it; other lanes stay. -/
def packLanes (v : VReg) (t : EType) (vl : Nat) (xs : List Nat) : VReg :=
  setLanes v t (fun i => if i < vl then some ((xs[i]?).getD 0) else none)

/-- VPART (R207). Where one register is both operands, the specification gives no value for a lane on which the two
lists differ (log 25): it is free. -/
def vpartEffect (p : Pred) (v vi : BitVec 5) (m : BitVec 4) (u : State) : State :=
  if u.predFalse p then u
  else
    let ty := u.shape.ty
    let vl := u.shape.vl.toNat
    let on := u.lanesOn p
    let key (i : Nat) := laneOf (u.vreg vi) ty i != 0
    let ts := (on.filter key).map (fun i => laneOf (u.vreg v) ty i)
    let fs := (on.filter (fun i => !key i)).map (fun i => laneOf (u.vreg v) ty i)
    let u := u.setKreg m (BitVec.ofNat 64 ts.length)
    if v = vi then
      let d := u.drawFree
      d.2.setVreg v (setLanes (u.vreg v) ty (fun i =>
        if i < vl then
          let x := (ts[i]?).getD 0
          if x = (fs[i]?).getD 0 then some x
          else some (leNat ((List.range (elemBytes ty)).map (fun j => Config.freeByte d.1 (8 * i + j))))
        else none))
    else (u.setVreg v (packLanes (u.vreg v) ty vl ts)).setVreg vi (packLanes (u.vreg vi) ty vl fs)

/-- VPART (R207). -/
def execVpart (t : Tok) (p : Pred) (v vi : BitVec 5) (m : BitVec 4) (s : State) : Out :=
  engSimple s t noCheck (vpartEffect p v vi m)

/-- VPERM (R208). -/
def execVperm (t : Tok) (p : Pred) (v vi : BitVec 5) (s : State) : Out :=
  engSimple s t noCheck (fun u =>
    let ty := u.shape.ty
    let on := u.lanesOn p
    u.setVreg v (setLanes (u.vreg v) ty (fun i =>
      if on.contains i then
        let j := laneOf (u.vreg vi) ty i
        some (if j < u.shape.vl.toNat then laneOf (u.vreg v) ty j else 0)
      else none)))

end Sys2Proof.Machine
end

