-- ==== Sys2Proof/Machine/Vector.lean ====
section
/-!
DEFINITION. Class 00 words of CMP: arithmetic, logic, compares, conversion, group operations and indices (R193 to R198).
-/

namespace Sys2Proof.Machine

/-! ### Arithmetic (R193) -/

/-- VADD. -/
def execVadd (t : Tok) (p : Pred) (d a : BitVec 5) (b : VSrc) (s : State) : Out :=
  binWord t p d a b isNum (byClass (onInts (· + ·)) (byValue (fun f rm x y _ => addIn f rm x y))) s

/-- VSUB. -/
def execVsub (t : Tok) (p : Pred) (d a : BitVec 5) (b : VSrc) (s : State) : Out :=
  binWord t p d a b isNum (byClass (onInts (· - ·)) (byValue (fun f rm x y _ => addIn f rm x y.neg))) s

/-- VMUL. -/
def execVmul (t : Tok) (p : Pred) (d a : BitVec 5) (b : VSrc) (s : State) : Out :=
  binWord t p d a b isNum (byClass (onInts (· * ·)) (byValue (fun f rm x y _ => mulIn f rm x y))) s

/-- VMULH: bits [2w-1:w] of the exact product. -/
def execVmulh (t : Tok) (p : Pred) (d a : BitVec 5) (b : VSrc) (s : State) : Out :=
  binWord t p d a b isInt
    (byClass (fun sg w x y _ => intBits (2 * w) (intValue sg w x * intValue sg w y) / 2 ^ w) noFloat) s

/-- VFMA (R194): z + x × y, one rounding. -/
def execVfma (t : Tok) (p : Pred) (d a : BitVec 5) (b : VSrc) (s : State) : Out :=
  binWord t p d a b isNum
    (byClass (fun sg w x y z => intBits w (intValue sg w z + intValue sg w x * intValue sg w y))
      (byValue (fun f rm x y z => fmaIn f rm x y z))) s

/-- VFMS (R194): z - x × y, one rounding. -/
def execVfms (t : Tok) (p : Pred) (d a : BitVec 5) (b : VSrc) (s : State) : Out :=
  binWord t p d a b isNum
    (byClass (fun sg w x y z => intBits w (intValue sg w z - intValue sg w x * intValue sg w y))
      (byValue (fun f rm x y z => fmaIn f rm x.neg y z))) s

/-- VMIN. -/
def execVmin (t : Tok) (p : Pred) (d a : BitVec 5) (b : VSrc) (s : State) : Out :=
  binWord t p d a b isNum (byClass (onInts min) (fun f _ x y _ => minMaxF false f x y)) s

/-- VMAX. -/
def execVmax (t : Tok) (p : Pred) (d a : BitVec 5) (b : VSrc) (s : State) : Out :=
  binWord t p d a b isNum (byClass (onInts max) (fun f _ x y _ => minMaxF true f x y)) s

/-- VABS. -/
def execVabs (t : Tok) (p : Pred) (d a : BitVec 5) (s : State) : Out :=
  unWord t p d a isNum
    (byClass (fun sg w x _ _ => intBits w (intValue sg w x).natAbs) (fun f _ x _ _ => signF f x (x % f.signBit))) s

/-- VNEG. -/
def execVneg (t : Tok) (p : Pred) (d a : BitVec 5) (s : State) : Out :=
  unWord t p d a isNum
    (byClass (fun sg w x _ _ => intBits w (-intValue sg w x)) (fun f _ x _ _ => signF f x (x ^^^ f.signBit))) s

/-- VDIV: integers truncate toward zero, and a zero divisor gives 0. -/
def execVdiv (t : Tok) (p : Pred) (d a : BitVec 5) (b : VSrc) (s : State) : Out :=
  binWord t p d a b isNum
    (byClass (onInts (fun x y => if y = 0 then 0 else x.tdiv y)) (byValue (fun f rm x y _ => deliver f rm (x.div y)))) s

/-- A float function of one operand with R101's special cases. -/
def floatWord (t : Tok) (p : Pred) (d a : BitVec 5) (g : XVal → XVal × FFlags) (s : State) : Out :=
  unWord t p d a isFloat (byClass (fun _ _ x _ _ => x) (byValue (fun f rm x _ _ => deliver f rm (g x)))) s

/-- VSQRT. -/
def execVsqrt (t : Tok) (p : Pred) (d a : BitVec 5) (s : State) : Out := floatWord t p d a XVal.sqrt s

/-- VRCP. -/
def execVrcp (t : Tok) (p : Pred) (d a : BitVec 5) (s : State) : Out :=
  floatWord t p d a (fun x => (XVal.fin false 1 0).div x) s

/-- VRSQ. -/
def execVrsq (t : Tok) (p : Pred) (d a : BitVec 5) (s : State) : Out := floatWord t p d a XVal.rsqrt s

/-- VEXP2. -/
def execVexp2 (t : Tok) (p : Pred) (d a : BitVec 5) (s : State) : Out := floatWord t p d a XVal.exp2 s

/-- VLOG2. -/
def execVlog2 (t : Tok) (p : Pred) (d a : BitVec 5) (s : State) : Out := floatWord t p d a XVal.log2 s

/-! ### Logic and shifts (R193, R194) -/

/-- VAND. -/
def execVand (t : Tok) (p : Pred) (d a : BitVec 5) (b : VSrc) (s : State) : Out :=
  binWord t p d a b anyType (byBits (fun _ x y _ => x &&& y)) s

/-- VOR. -/
def execVor (t : Tok) (p : Pred) (d a : BitVec 5) (b : VSrc) (s : State) : Out :=
  binWord t p d a b anyType (byBits (fun _ x y _ => x ||| y)) s

/-- VXOR. -/
def execVxor (t : Tok) (p : Pred) (d a : BitVec 5) (b : VSrc) (s : State) : Out :=
  binWord t p d a b anyType (byBits (fun _ x y _ => x ^^^ y)) s

/-- VNOT. -/
def execVnot (t : Tok) (p : Pred) (d a : BitVec 5) (s : State) : Out :=
  unWord t p d a anyType (byBits (fun w x _ _ => 2 ^ w - 1 - x)) s

/-- VSHL: 0 when y ≥ w. -/
def execVshl (t : Tok) (p : Pred) (d a : BitVec 5) (b : VSrc) (s : State) : Out :=
  binWord t p d a b isInt (byBits (fun w x y _ => if w ≤ y then 0 else x * 2 ^ y % 2 ^ w)) s

/-- VSHR: 0 when y ≥ w. -/
def execVshr (t : Tok) (p : Pred) (d a : BitVec 5) (b : VSrc) (s : State) : Out :=
  binWord t p d a b isInt (byBits (fun w x y _ => if w ≤ y then 0 else x / 2 ^ y)) s

/-- VSRA: bit w - 1 of x fills the vacated bits. -/
def execVsra (t : Tok) (p : Pred) (d a : BitVec 5) (b : VSrc) (s : State) : Out :=
  binWord t p d a b isInt (byBits (fun w x y _ => intBits w (intValue true w x / 2 ^ min y w))) s

/-- VFSHL (R194). -/
def execVfshl (t : Tok) (p : Pred) (d a : BitVec 5) (b : VSrc) (s : State) : Out :=
  binWord t p d a b isInt (byBits (fun w x y z => (x * 2 ^ w + y) * 2 ^ (z % w) / 2 ^ w % 2 ^ w)) s

/-- VFSHR (R194). -/
def execVfshr (t : Tok) (p : Pred) (d a : BitVec 5) (b : VSrc) (s : State) : Out :=
  binWord t p d a b isInt (byBits (fun w x y z => (x * 2 ^ w + y) / 2 ^ (z % w) % 2 ^ w)) s

/-- VCLZ. -/
def execVclz (t : Tok) (p : Pred) (d a : BitVec 5) (s : State) : Out :=
  unWord t p d a isInt (byBits (fun w x _ _ => clzNat w x)) s

/-- VPOPC. -/
def execVpopc (t : Tok) (p : Pred) (d a : BitVec 5) (s : State) : Out :=
  unWord t p d a isInt (byBits (fun w x _ _ => popNat w x)) s

/-- VSEL (R194): x where vd's bit is 1, y where it is 0. -/
def execVsel (t : Tok) (p : Pred) (d a : BitVec 5) (b : VSrc) (s : State) : Out :=
  binWord t p d a b anyType (byBits (fun w x y z => (z &&& x) ||| ((2 ^ w - 1 - z) &&& y))) s

/-- VMOV. -/
def execVmov (t : Tok) (p : Pred) (d a : BitVec 5) (s : State) : Out :=
  unWord t p d a anyType (byBits (fun _ x _ _ => x)) s

/-- VADDS: clamped to the type's range. -/
def execVadds (t : Tok) (p : Pred) (d a : BitVec 5) (b : VSrc) (s : State) : Out :=
  binWord t p d a b isInt
    (byClass (fun sg w x y _ => intBits w (clampInt (intMin sg w) (intMax sg w) (intValue sg w x + intValue sg w y)))
      noFloat) s

/-- VSUBS: clamped to the type's range. -/
def execVsubs (t : Tok) (p : Pred) (d a : BitVec 5) (b : VSrc) (s : State) : Out :=
  binWord t p d a b isInt
    (byClass (fun sg w x y _ => intBits w (clampInt (intMin sg w) (intMax sg w) (intValue sg w x - intValue sg w y)))
      noFloat) s

/-- VHASH: hash32 of x xor y (R102). -/
def execVhash (t : Tok) (p : Pred) (d a : BitVec 5) (b : VSrc) (s : State) : Out :=
  binWord t p d a b isWord32 (byBits (fun _ x y _ => (hash32 (BitVec.ofNat 32 x ^^^ BitVec.ofNat 32 y)).toNat)) s

/-- VUNIF (R103). -/
def execVunif (t : Tok) (p : Pred) (d a : BitVec 5) (s : State) : Out :=
  unWord t p d a isF32 (byBits (fun _ x _ _ => (unifF32 (BitVec.ofNat 32 x)).toNat)) s

/-! ### Conversion (R196) -/

/-- Elements that VCVT processes below this number. -/
def cvtCount (src dst : EType) : Nat := 2048 / max src.bits dst.bits

/-- VCVT. -/
def execVcvt (t : Tok) (p : Pred) (d a : BitVec 5) (src : EType) (s : State) : Out :=
  engSimple s t (typeCheck anyType) (fun u =>
    let h := u.shape
    let on := (u.lanesOn p).filter (fun e => decide (e < cvtCount src h.ty))
    let f (e : Nat) := convert (isInt src) (EType.value src (laneOf (u.vreg a) src e)) h.ty h.rm h.sat
    let u' := u.setVreg d (setLanes (u.vreg d) h.ty (fun e => if on.contains e then some (f e).1 else none))
    u'.onHere (fun k => k.raiseV (orFlags (on.map (fun e => (f e).2)))))

/-! ### Compares (R195) -/

/-- The predicate register with the bits of the enabled lanes replaced. -/
def State.setLaneBits (s : State) (p : Pred) (d : BitVec 3) (f : Nat → Bool) : State :=
  let ty := s.shape.ty
  let on := s.lanesOn p
  let old := s.preg d
  s.setPreg d (BitVec.ofNat 256 (ofDigits 1 ((List.range 256).map (fun j =>
    let i := j * 8 / ty.bits
    if on.contains i then bit (f i) else bit (old.getLsbD j)))))

/-- A compare: on integers by value, on floats by order, with `nan` the result for a NaN and `quiet` whether only
signalling NaNs set VNV. -/
def cmpWord (t : Tok) (p : Pred) (d : BitVec 3) (a : BitVec 5) (b : VSrc) (test : Ordering → Bool) (nan quiet : Bool)
    (s : State) : Out :=
  engSimple s t (typeCheck isNum) (fun u =>
    if u.predFalse p then u
    else
      let ty := u.shape.ty
      let xv (i : Nat) := EType.value ty (laneOf (u.vreg a) ty i)
      let yv (i : Nat) := EType.value ty (u.srcLane b ty i)
      let bad (i : Nat) := (xv i).isNan || (yv i).isNan
      let nv (i : Nat) := if quiet then (xv i).isSig || (yv i).isSig else bad i
      let u' := u.setLaneBits p d (fun i => if bad i then nan else test ((xv i).cmp (yv i)))
      u'.onHere (fun k => k.raiseV { nv := (u.lanesOn p).any nv }))

/-- VCMPEQ. -/
def execVcmpeq (t : Tok) (p : Pred) (d : BitVec 3) (a : BitVec 5) (b : VSrc) (s : State) : Out :=
  cmpWord t p d a b (· == .eq) false true s

/-- VCMPLT. -/
def execVcmplt (t : Tok) (p : Pred) (d : BitVec 3) (a : BitVec 5) (b : VSrc) (s : State) : Out :=
  cmpWord t p d a b (· == .lt) false false s

/-- VCMPLE. -/
def execVcmple (t : Tok) (p : Pred) (d : BitVec 3) (a : BitVec 5) (b : VSrc) (s : State) : Out :=
  cmpWord t p d a b (· != .gt) false false s

/-- VCMPNE. -/
def execVcmpne (t : Tok) (p : Pred) (d : BitVec 3) (a : BitVec 5) (b : VSrc) (s : State) : Out :=
  cmpWord t p d a b (· != .eq) true true s

/-! ### Group operations (R197) -/

/-- The enabled lanes of lane i's group. -/
def State.groupOn (s : State) (p : Pred) (i : Nat) : List Nat :=
  (s.lanesOn p).filter (fun j => j / s.shape.group == i / s.shape.group)

/-- The sum of some lanes of a register, rounded once (R91, R197). -/
def State.sumLanes (s : State) (a : BitVec 5) (ls : List Nat) : Nat × FFlags :=
  let h := s.shape
  let v (j : Nat) := laneOf (s.vreg a) h.ty j
  match EType.fmt? h.ty with
  | none => ((ls.foldl (fun n j => n + v j) 0) % 2 ^ h.ty.bits, { })
  | some f =>
    let r := exactSum h.rm (ls.map (fun j => f.value (v j)))
    let q := roundTo f h.rm r.1
    (q.1, { q.2 with nv := q.2.nv || r.2 })

/-- VREDSUM. -/
def execVredsum (t : Tok) (p : Pred) (d a : BitVec 5) (s : State) : Out :=
  laneWord t p isNum d (fun u i => u.sumLanes a (u.groupOn p i)) s

/-- VSCAN: over the group's enabled lanes up to i. -/
def execVscan (t : Tok) (p : Pred) (d a : BitVec 5) (s : State) : Out :=
  laneWord t p isNum d (fun u i => u.sumLanes a ((u.groupOn p i).filter (fun j => decide (j ≤ i)))) s

/-- VSCANX: over the group's enabled lanes below i. -/
def execVscanx (t : Tok) (p : Pred) (d a : BitVec 5) (s : State) : Out :=
  laneWord t p isNum d (fun u i => u.sumLanes a ((u.groupOn p i).filter (fun j => decide (j < i)))) s

/-- The largest or smallest of some lanes. -/
def State.bestLane (s : State) (max : Bool) (a : BitVec 5) (ls : List Nat) : Nat × FFlags :=
  let ty := s.shape.ty
  let vs := ls.map (fun j => laneOf (s.vreg a) ty j)
  match vs with
  | [] => (0, { })
  | v :: rest =>
    match EType.signed? ty, EType.fmt? ty with
    | some sg, _ =>
      let better (x y : Nat) : Bool :=
        if max then decide (intValue sg ty.bits x < intValue sg ty.bits y)
        else decide (intValue sg ty.bits y < intValue sg ty.bits x)
      (rest.foldl (fun x y => if better x y then y else x) v, { })
    | none, some f =>
      if vs.any (fun x => (f.value x).isNan) then (f.qnan, { nv := vs.any (fun x => (f.value x).isSig) })
      else (rest.foldl (fun x y => (minMaxF max f x y).1) v, { })
    | none, none => (v, { })

/-- VREDMAX. -/
def execVredmax (t : Tok) (p : Pred) (d a : BitVec 5) (s : State) : Out :=
  laneWord t p isNum d (fun u i => u.bestLane true a (u.groupOn p i)) s

/-- VREDMIN. -/
def execVredmin (t : Tok) (p : Pred) (d a : BitVec 5) (s : State) : Out :=
  laneWord t p isNum d (fun u i => u.bestLane false a (u.groupOn p i)) s

/-! ### Indices (R198) -/

/-- The first lane of lane i's group. -/
def Shape.groupBase (h : Shape) (i : Nat) : Nat := i / h.group * h.group

/-- VBCAST. -/
def execVbcast (t : Tok) (p : Pred) (d a : BitVec 5) (b : VSrc) (s : State) : Out :=
  laneWord t p anyType d (fun u i =>
    let h := u.shape
    let j := match b with
      | .k r => (u.kreg r).toNat
      | .v r => laneOf (u.vreg r) h.ty (h.groupBase i)
    (laneOf (u.vreg a) h.ty (h.groupBase i + j % h.group), { })) s

/-- VIOTA. -/
def execViota (t : Tok) (p : Pred) (d : BitVec 5) (s : State) : Out :=
  laneWord t p isInt d (fun u i =>
    let h := u.shape
    let c := h.cols.toNat
    ((if c = 0 then i else i % c * h.rows.toNat + i / c) % 2 ^ h.ty.bits, { })) s

/-- VFIRST. -/
def execVfirst (t : Tok) (p : Pred) (d : BitVec 5) (a : BitVec 3) (s : State) : Out :=
  laneWord t p isInt d (fun u i =>
    let h := u.shape
    let base := h.groupBase i
    let hit := (List.range h.group).find? (fun f =>
      decide (base + f < h.vl.toNat) && (u.preg a).getLsbD (laneByte h.ty (base + f)))
    (hit.getD h.group % 2 ^ h.ty.bits, { })) s

end Sys2Proof.Machine
end

