-- ==== Sys2Proof/Machine/Accept.lean ====
section
/-!
DEFINITION. Sampling and acceptance: VACCEPT (R284 to R287).
-/

namespace Sys2Proof.Machine

/-- The sampling uniform's numerator over 2^24 (R103, R284). -/
def uniform (seed : DWord) (pos draw : Word) : Nat :=
  (hash32 (hash32 (seed.setWidth 32 ^^^ pos) ^^^ (seed >>> 32).setWidth 32 ^^^ draw)).toNat / 2 ^ 8

/-- A qualifying entry: its token and its weight in units of 2^-1074 (R284). -/
structure Draw where
  tok : Nat
  w   : Nat
  deriving DecidableEq, Repr, Inhabited

/-- The weight of a binary64 e. -/
def weightOf (e : Nat) : Nat :=
  match Fmt.a64.value e with
  | .fin neg m x => if neg then 0 else m * 2 ^ (x + 1074).toNat
  | .nan _ => 0
  | .inf _ => 0

/-- The qualifying entries of a record's entry bytes, in entry order. -/
def qualifying (entries : List Byte) : Nat → List Nat → List Draw
  | 0, _ => []
  | n + 1, seen =>
    let tok := fieldAt entries 0 4
    if tok < 2 ^ 21 && !seen.contains tok then
      { tok := tok, w := weightOf (fieldAt entries 8 8) } :: qualifying (entries.drop 16) n (tok :: seen)
    else qualifying (entries.drop 16) n seen

/-- The sum of weights. -/
def weightSum (ds : List Draw) : Nat := (ds.map (fun d => d.w)).sum

/-- The first entry whose running sum times 2^24 exceeds u times the whole. -/
def pick (u total : Nat) : Nat → List Draw → Option Nat
  | _, [] => none
  | run, d :: ds => if u * total < (run + d.w) * 2 ^ 24 then some d.tok else pick u total (run + d.w) ds

/-- The reference sample of a record with a qualifying entry (R284). -/
def refSample (u : Nat) (ds : List Draw) : Nat :=
  (pick u (weightSum ds) 0 ds).getD (match ds with
    | d :: _ => d.tok
    | [] => 0)

/-- The weight of a token in a record. -/
def weightIn (ds : List Draw) (tok : Nat) : Nat :=
  match ds.find? (fun d => d.tok == tok) with
  | some d => d.w
  | none => 0

/-- R286's resample. -/
def resample (u : Nat) (t d : List Draw) : Nat :=
  let et := weightSum t
  let ed := weightSum d
  let ws := t.map (fun x => ({ tok := x.tok, w := x.w * ed - weightIn d x.tok * et } : Draw))
  if weightSum ws = 0 then refSample u t else (pick u (weightSum ws) 0 ws).getD 0

/-- A lane's result (R286). -/
def acceptLane (mode1 : Bool) (u0 u1 : Nat) (jtEmpty : BitVec 8) (tok : Nat) (t d : List Draw) : Nat :=
  if t.isEmpty then 0xFFFFFF00 + jtEmpty.toNat
  else if mode1 then
    let r := refSample u0 t
    if tok = r then tok else 0x80000000 + r
  else if d.isEmpty || weightIn t tok == 0 then 0x80000000 + resample u1 t d
  else if u0 * weightIn d tok * weightSum t ≤ weightIn t tok * weightSum d * 2 ^ 24 then tok
  else 0x80000000 + resample u1 t d

/-- Bytes of a checked read of memory. -/
def State.memBytes (s : State) (a n : Nat) : List Byte :=
  match s.load s.engWho .load a n with
  | .ok (bs, _) => bs
  | .error _ => []

/-- Fields of the verify table (R285). -/
def vtReservedOk (b : List Byte) : Bool := fieldAt b 0 1 ≤ 1 && zeroAt b 1 7 && zeroAt b 20 4 && zeroAt b 48 16

/-- The target and draft record of lane i. -/
def vtTarget (b : List Byte) (i : Nat) : Nat := (fieldAt b 24 8 + i * fieldAt b 32 4) % 2 ^ 64
def vtDraft (b : List Byte) (i : Nat) : Nat := (fieldAt b 40 8 + i * fieldAt b 36 4) % 2 ^ 64

/-- Both records of each enabled lane. -/
def vtRecords (b : List Byte) (on : List Nat) : List Nat := on.flatMap (fun i => [vtTarget b i, vtDraft b i])

/-- COUNT of a record, at most 64. -/
def State.recordCount (s : State) (a : Nat) : Nat := min 64 (fieldAt (s.memBytes a 64) 4 4)

/-- Checks of reads: the deciding fault with the lowest failing address (R287). -/
def readCheck (s : State) (rs : List (Nat × Nat)) : Issue :=
  match s.firstFault s.engWho (rs.map (fun r => { kind := .load, group := 0, va := r.1, n := r.2 })) with
  | some (f, a) => f.issue (BitVec.ofNat 64 a)
  | none => .go

/-- The first finding that is no pass. -/
def Issue.andThen (a : Issue) (b : Issue) : Issue :=
  match a with
  | .go => b
  | .fault c v => .fault c v
  | .shadow va ats => .shadow va ats
  | .tag w va => .tag w va
  | .hold w => .hold w

/-- Stages 3 to 6 of R287, the table read. -/
def acceptStages (va : DWord) (b : List Byte) (on : List Nat) (s : State) : Issue :=
  let rs := vtRecords b on
  if !vtReservedOk b then .fault .reservedField va
  else
    match lowest (rs.filter (fun a => a % 64 != 0)) with
    | some a => .fault .misaligned (BitVec.ofNat 64 a)
    | none =>
      (readCheck s (rs.map (fun a => (a, 64)))).andThen
        (readCheck s ((rs.map (fun a => ((a + 64) % 2 ^ 64, 16 * s.recordCount a))).filter (fun r => r.2 != 0)))

/-- The checks of VACCEPT (R285, R287). -/
def acceptCheck (p : Pred) (b : VSrc) (s : State) : Issue :=
  match b with
  | .v _ => .fault .reservedField s.engWordBits
  | .k r =>
    match typeCheck isU32 s with
    | .go =>
      let va := s.kreg r
      if s.predFalse p then .go
      else if va.toNat % 64 != 0 then .fault .misaligned va
      else (readCheck s [(va.toNat, 64)]).andThen (acceptStages va (s.memBytes va.toNat 64) (s.lanesOn p) s)
    | x => x

/-- The qualifying entries of the record at an address. -/
def State.recordDraws (s : State) (a : Nat) : List Draw :=
  let n := s.recordCount a
  qualifying (s.memBytes ((a + 64) % 2 ^ 64) (16 * n)) n []

/-- VACCEPT's lanes (R286). -/
def acceptEffect (p : Pred) (d a : BitVec 5) (r : BitVec 4) (u : State) : State :=
  if u.predFalse p then u
  else
    let b := u.memBytes (u.kreg r).toNat 64
    let seed := BitVec.ofNat 64 (fieldAt b 8 8)
    let on := u.lanesOn p
    let one (i : Nat) : Nat :=
      let pos := BitVec.ofNat 32 (fieldAt b 16 4 + i)
      acceptLane (fieldAt b 0 1 == 1) (uniform seed pos 0) (uniform seed pos 1) (u.here).theTask.jtEmpty
        (laneOf (u.vreg a) .u32 i) (u.recordDraws (vtTarget b i)) (u.recordDraws (vtDraft b i))
    u.setVreg d (setLanes (u.vreg d) .u32 (fun i => if on.contains i then some (one i) else none))

/-- VACCEPT (R285 to R287). -/
def execVaccept (t : Tok) (p : Pred) (d a : BitVec 5) (b : VSrc) (s : State) : Out :=
  engSimple s t (acceptCheck p b) (fun u =>
    match b with
    | .k r => acceptEffect p d a r u
    | .v _ => u)

end Sys2Proof.Machine
end

