-- ==== Sys2Proof/Machine/Firefly.lean ====
section
/-!
DEFINITION. Firefly: the arming of a region and the round it computes (R281 to R283).
-/

namespace Sys2Proof.Machine

/-! ### The descriptor (R281) -/

def fdVocab (d : List Byte) : Nat := fieldAt d 0 4
def fdBf16 (d : List Byte) : Bool := fieldAt d 4 1 == 1
def fdTopk (d : List Byte) : Nat := fieldAt d 5 1
def fdMaskOn (d : List Byte) : Bool := (fieldAt d 6 1).testBit 0
def fdToppOn (d : List Byte) : Bool := (fieldAt d 6 1).testBit 1
def fdMinpOn (d : List Byte) : Bool := (fieldAt d 6 1).testBit 2
def fdInvt (d : List Byte) : XVal := Fmt.f32.value (fieldAt d 8 4)
def fdTopp (d : List Byte) : XVal := Fmt.f32.value (fieldAt d 12 4)
def fdMinp (d : List Byte) : XVal := Fmt.f32.value (fieldAt d 16 4)
def fdMask (d : List Byte) : Nat := fieldAt d 24 8
def fdResult (d : List Byte) : Nat := fieldAt d 32 8
def fdEvent (d : List Byte) : Nat := fieldAt d 40 8

/-- Bytes of a logit. -/
def fdWidth (d : List Byte) : Nat := if fdBf16 d then 2 else 4

/-- A finite value above zero. -/
def isPositive : XVal → Bool
  | .fin neg m _ => !neg && m != 0
  | .nan _ => false
  | .inf _ => false

/-- A finite value of at least zero. -/
def isNonNeg (x : XVal) : Bool := isPositive x || x.isZero

/-- The exact value 1. -/
def one : XVal := .fin false 1 0

/-- Whether a captured descriptor keeps to R281's table. -/
def fdOk (d : List Byte) : Bool :=
  decide (1 ≤ fdVocab d) && decide (fdVocab d ≤ 2 ^ 21) && decide (fieldAt d 4 1 ≤ 1) && decide (1 ≤ fdTopk d) &&
  decide (fdTopk d ≤ 64) && decide (fieldAt d 6 1 < 8) && isPositive (fdInvt d) &&
  (!fdToppOn d || (isPositive (fdTopp d) && (fdTopp d).cmp one != .gt)) &&
  (!fdMinpOn d || (isNonNeg (fdMinp d) && (fdMinp d).cmp one == .lt)) &&
  zeroAt d 20 4 && fdResult d % 64 == 0 && fdEvent d % 8 == 0 && zeroAt d 48 80

/-! ### Publishing -/

/-- Firefly as a source of accesses: the storing task's context (R282). -/
def FireflyRegion.who (f : FireflyRegion) : Who := { die := f.die, ctx := f.ctx, world := f.world, hyp := 0 }

/-- Rounds published for a region, by its first page. -/
def State.roundsOf (s : State) (f : FireflyRegion) : Word :=
  match s.rounds.find? (fun r => r.1 == f.pas.head?.getD 0) with
  | some r => r.2
  | none => 0

/-- ARM reads 0 (R282). -/
def State.disarm (s : State) (f : FireflyRegion) : State :=
  match f.pas with
  | p :: _ => s.commit (p + 7) [0]
  | [] => s

/-- EVENT receives +1 as by SIGEV (R283); an increment that faults is lost (log 27). -/
def State.fireflyEvent (s : State) (f : FireflyRegion) : State :=
  match s.access f.who .atomic (fdEvent f.desc) 8 with
  | .ok l => s.bumpEvent f.who l (fdEvent f.desc) 1
  | .error _ => s

/-- A round's record is written, ARM cleared and EVENT incremented; a write that faults publishes nothing and ARM
reads 0 (R282, R283). -/
def State.publish (s : State) (f : FireflyRegion) (record : Word → List Byte) : State :=
  let n := s.roundsOf f + 1
  match s.store f.who (fdResult f.desc) (record n) with
  | .error _ => s.disarm f
  | .ok t =>
    let t := { t with rounds := t.rounds.filter (fun (r : Nat × Word) => r.1 != f.pas.head?.getD 0) ++ [(f.pas.head?.getD 0, n)] }
    (t.disarm f).fireflyEvent f

/-- A member of S: token, y in f32 and e in binary64. -/
structure Member where
  tok : Nat
  y   : Nat
  e   : Nat
  deriving DecidableEq, Repr, Inhabited

/-- The result record (R283). -/
def resultRecord (status : Nat) (max : List Byte) (sums : List Byte) (ms : List Member) (n : Word) : List Byte :=
  leBytes 4 status ++ leBytes 4 ms.length ++ max ++ leBytes 4 n.toNat ++ sums ++ List.replicate 32 0 ++
    ms.flatMap (fun m => leBytes 4 m.tok ++ leBytes 4 m.y ++ leBytes 8 m.e) ++ List.replicate (16 * (64 - ms.length)) 0

/-! ### Arming (R282) -/

/-- Regions that one stack may have armed. -/
def fireflyRegions : Nat := 32

/-- A round that fails its checks publishes BAD_CONFIG; what MAX and the sums then hold is open (log 27). -/
def State.badRound (s : State) (f : FireflyRegion) : State :=
  let (n, s) := s.drawFree
  let free (lo k : Nat) : List Byte := (List.range k).map (fun i => Config.freeByte n (lo + i))
  s.publish f (resultRecord 3 (free 8 4) (free 16 16) [])

/-- FIREFLY_ARM (R282): Firefly takes the oldest store of 1 to ARM, with the descriptor and frames it captured. -/
def execFireflyArm (s : State) : Out :=
  match s.armReqs with
  | [] => .next s
  | f :: fs =>
    let s := { s with armReqs := fs }
    let full := decide (fireflyRegions ≤ (s.armed.filter (fun g => g.stack == f.stack)).length)
    if f.bad || !fdOk f.desc || full then .next (s.badRound f) else .next { s with armed := s.armed ++ [f] }

/-! ### The round (R283) -/

/-- Every byte of every logit has been stored since arming. -/
def FireflyRegion.complete (f : FireflyRegion) : Bool :=
  let n := fdVocab f.desc * fdWidth f.desc
  (f.seen.filter (fun o => decide (o < 128 + n))).length == n

/-- Logit t's bits as stored. -/
def State.logit (s : State) (f : FireflyRegion) (t : Nat) : Nat :=
  leNat ((List.range (fdWidth f.desc)).map (fun i =>
    let o := 128 + t * fdWidth f.desc + i
    s.phys ((f.pas[o / 2 ^ 16]?).getD 0 + o % 2 ^ 16)))

/-- y(t). -/
def State.logitY (s : State) (f : FireflyRegion) (t : Nat) : Nat :=
  (mulIn .f32 .rne ((if fdBf16 f.desc then Fmt.bf16 else Fmt.f32).value (s.logit f t)) (fdInvt f.desc)).1

/-- y as an exact value. -/
def yVal (y : Nat) : XVal := Fmt.f32.value y

def isFinite : XVal → Bool
  | .fin _ _ _ => true
  | .nan _ => false
  | .inf _ => false

/-- The largest y of a list, by bits. -/
def maxY : List Nat → Nat
  | [] => 0xFF800000
  | y :: ys => if (yVal y).cmp (yVal (maxY ys)) == .lt then maxY ys else y

/-- e(t) := exp(y - MAX) in binary64. -/
def expOf (y mx : Nat) : Nat :=
  match (exactSum .rne [yVal y, (yVal mx).neg]).1 with
  | .fin _ m e => (roundTo .a64 .rne (expNeg m e)).1
  | .nan _ => 0
  | .inf _ => 0

/-- binary64 addition under RNE. -/
def add64 (a b : Nat) : Nat := (addIn .a64 .rne (Fmt.a64.value a) (Fmt.a64.value b)).1

/-- The tree sum of height h over leaves by token (R283); a subtree without leaves is +0. -/
def treeSum : Nat → List (Nat × Nat) → Nat
  | 0, l => match l with
    | p :: _ => p.2
    | [] => 0
  | h + 1, l =>
    if l.isEmpty then 0
    else
      add64 (treeSum h (l.filter (fun p => !p.1.testBit h))) (treeSum h (l.filter (fun p => p.1.testBit h)))

/-- One more candidate among the k largest by y, ties by lower token. -/
def insertTop (k : Nat) (m : Member) : List Member → List Member
  | [] => if k = 0 then [] else [m]
  | x :: xs =>
    match k with
    | 0 => []
    | k + 1 => if (yVal x.y).cmp (yVal m.y) == .lt then m :: (x :: xs).take k else x :: insertTop k m xs

/-- Sequential sum of e. -/
def seqSum (ms : List Member) : Nat := ms.foldl (fun a m => add64 a m.e) 0

/-- The shortest prefix of at least one member whose sequential sum reaches a threshold. -/
def prefixTo (thr : Nat) : Nat → List Member → List Member
  | _, [] => []
  | acc, m :: ms =>
    let acc := add64 acc m.e
    if (Fmt.a64.value acc).cmp (Fmt.a64.value thr) != .lt then [m] else m :: prefixTo thr acc ms

/-- Top-p. -/
def topP (d : List Byte) (ms : List Member) : List Member :=
  if fdToppOn d then prefixTo (mulIn .a64 .rne (fdTopp d) (Fmt.a64.value (seqSum ms))).1 0 ms else ms

/-- Min-p. -/
def minP (d : List Byte) (ms : List Member) : List Member :=
  match fdMinpOn d, ms with
  | true, m :: _ =>
    let thr := (mulIn .a64 .rne (fdMinp d) (Fmt.a64.value m.e)).1
    ms.filter (fun x => (Fmt.a64.value x.e).cmp (Fmt.a64.value thr) != .lt)
  | _, _ => ms

/-- The mask's bytes, none when it is off; the fault of a read is none of the caller's (R282). -/
def State.maskBytes (s : State) (f : FireflyRegion) : Option (List Byte) :=
  if fdMaskOn f.desc then
    match s.load f.who .load (fdMask f.desc) ((fdVocab f.desc + 7) / 8) with
    | .ok (bs, _) => some bs
    | .error _ => none
  else some []

/-- Whether the mask allows a token. -/
def maskAllows (d : List Byte) (mask : List Byte) (t : Nat) : Bool :=
  !fdMaskOn d || ((mask[t / 8]?).getD 0).getLsbD (t % 8)

/-- A round over the tokens' y: the record but for ROUND. -/
def roundRecord (d : List Byte) (mask : List Byte) (ys : List (Nat × Nat)) : Word → List Byte :=
  let fin := ys.filter (fun p => isFinite (yVal p.2))
  let mx := maxY (fin.map (·.2))
  let all : List Member := fin.map (fun p => { tok := p.1, y := p.2, e := expOf p.2 mx })
  let top := (all.filter (fun m => maskAllows d mask m.tok)).foldl (fun l m => insertTop (fdTopk d) m l) []
  let ms := minP d (topP d top)
  let odd := ys.any (fun p => (yVal p.2).isNan || (yVal p.2).isInf false)
  let status := if ms.isEmpty then 1 else if odd then 2 else 0
  let sum (l : List Member) : Nat := treeSum 21 (l.map (fun m => (m.tok, m.e)))
  resultRecord status (leBytes 4 mx) (leBytes 8 (sum ms) ++ leBytes 8 (sum all)) ms

/-- FIREFLY_ROUND (R282, R283): the i-th armed region, all its logits written, computes its round. -/
def execFireflyRound (i : Nat) (s : State) : Out :=
  match s.armed[i]? with
  | none => .next s
  | some f =>
    if f.complete then
      let t := { s with armed := s.armed.filter (fun g => g.pas.head? != f.pas.head?) }
      match s.maskBytes f with
      | none => .next (t.disarm f)
      | some mask =>
        let ys := (List.range (fdVocab f.desc)).map (fun n => (n, s.logitY f n))
        .next (t.publish f (roundRecord f.desc mask ys))
    else .next s

end Sys2Proof.Machine
end

