-- ==== Sys2Proof/Machine/Perform.lean ====
section
/-!
DEFINITION. Accesses performed after they have issued (R261), what units read and write ahead of the rest, granule by
granule (R45, R174, R226, R257), and how a task is brought to the points at which it stops (R163, R180, R233, R309).
-/

namespace Sys2Proof.Machine

/-! ### Accesses performed at homes elsewhere (R261) -/

/-- A byte of a load as it is performed. -/
def State.landByte (s : State) (who : Who) (b : LateByte) : Byte :=
  match b with
  | .here b => b
  | .away va l => s.readByte who l va l.pa

/-- The element that a lane of a vector load has read. -/
def State.lateElem (s : State) (who : Who) (t : EType) (hi : Bool) (bs : List LateByte) : Nat :=
  let v := leNat (bs.map (s.landByte who))
  if t = .k4 then v / 16 ^ bit hi % 16 else v

/-- The vector register of a load whose bytes have been read. -/
def State.lateVec (s : State) (who : Who) (old : VReg) (t : EType) (lanes : List (Nat × Bool × List LateByte)) : VReg :=
  setLanes old t (fun i => (lanes.find? (fun p => p.1 == i)).map (fun p => s.lateElem who t p.2.1 p.2.2))

/-- The uid of the task whose agent makes an access. -/
def Agent.task (a : Agent) : Option Nat :=
  match a with
  | .direct => none
  | .seq u _ => some u
  | .op u _ _ => some u
  | .mat u _ => some u
  | .job u _ _ => some u
  | .coll _ => none

/-- The core of an access's task. -/
def State.postCore (s : State) (p : Post) : Option CoreId := p.who.agent.task.bind s.whereIs

/-- A load that has been performed reaches a core: its register takes the value. -/
def State.finishLoad (s : State) (c : CoreId) (p : Post) : State :=
  match p.kind with
  | .write _ => s
  | .load d n sg => s.onCore c (fun k => k.onCtl (fun x => x.setReg d (extendLoad sg (s.readLeaf p.who p.leaf p.va n))))
  | .vload v ty lanes =>
    s.onCore c (fun k => k.onCmp (fun x =>
      { x with v := x.v.set v.toNat (s.lateVec p.who (x.v[v.toNat]'(v.isLt)) ty lanes) v.isLt }))

/-- What an access does as it is performed: a write at its home; a load for its task's register, if the task still runs. -/
def State.effectPost (s : State) (p : Post) : State :=
  match p.kind with
  | .write bs => s.performLeaf p.who p.leaf p.va bs
  | .load _ _ _ =>
    match s.postCore p with
    | some c => s.finishLoad c p
    | none => s
  | .vload _ _ _ =>
    match s.postCore p with
    | some c => s.finishLoad c p
    | none => s

/-- An engine's sequencer hears that an access of its own has been performed. -/
def EngCtl.landed (g : EngCtl) (n : Nat) : EngCtl :=
  { g with away := g.away.filter (fun m => m != n)
           pushq := g.pushq.map (fun p => { p with after := p.after.filter (fun m => m != n) }) }

/-- An access of a core's engine has been performed: the pushes that waited for it alone are made, unless nothing of the core
goes on (R26, R66, R256, R261). -/
def Core.landed (k : Core) (n : Nat) : Core :=
  let one (e : Engine) (k : Core) : Core :=
    if (k.eng e).away.contains n then
      let k := k.onEng e (fun g => g.landed n)
      if k.stopped then k else k.drainPushes e
    else k
  one .sts (one .cmp (one .lds k))

/-- Whether the accesses of an agent are those of an engine's sequencer. -/
def Agent.isEngSeq : Agent → Bool
  | .direct => false
  | .seq _ .ctl => false
  | .seq _ .lds => true
  | .seq _ .cmp => true
  | .seq _ .sts => true
  | .op _ _ _ => false
  | .mat _ _ => false
  | .job _ _ _ => false
  | .coll _ => false

/-- An access is performed. -/
def State.performPost (s : State) (p : Post) : State :=
  let t := s.effectPost p
  if p.who.agent.isEngSeq then t.onEvery (fun k => k.landed p.num) else t

/-- Whether an access is a load. -/
def Post.isLoad (p : Post) : Bool :=
  match p.kind with
  | .write _ => false
  | .load _ _ _ => true
  | .vload _ _ _ => true

/-- Whether a load may now reach its core: nothing of a core changes while its clocks are held or its world is sealed
(R66, R327). -/
def State.mayReach (s : State) (p : Post) : Bool :=
  !p.isLoad ||
    (match s.postCore p with
     | some c => !(s.core c).hold && !(s.core c).still
     | none => true)

/-- An access under way, by its number, is performed if none that must come first is still under way. -/
def State.perform (s : State) (n : Nat) : State :=
  match s.posted.find? (fun p => p.num == n) with
  | none => s
  | some p =>
    if s.mayPerform p && s.mayReach p then { s with posted := s.posted.filter (fun q => q.num != n) }.performPost p else s

/-- Every access under way of the agents of a task that have a load under way is performed, in the order of issue: the
registers that a save takes are complete. -/
def State.flushLoads (s : State) (uid : Nat) : State :=
  let loading (p : Post) : Bool := p.who.agent.ofTask uid && s.posted.any (fun q => q.isLoad && q.who.agent == p.who.agent)
  (s.posted.filter loading).foldl (fun t p => t.performPost p) { s with posted := s.posted.filter (fun p => !loading p) }

/-! ### Granules read ahead (R45, R174, R226, R257) -/

/-- A granule of 16 bytes as a unit would now read it, with the device and the number under which it is kept; none where
the read would fault or would meet a tile in flight, and for an ordinary access of a home elsewhere, which is one of its
own (R261). -/
def State.aheadBytes (s : State) (k : Core) (who : Who) (sp : Space) (g : Nat) : Option (Option Nat × Nat × List Byte) :=
  if sp = .glob then
    match s.access who .load (16 * g) 16 with
    | .ok l =>
      if s.away l && who.agent.ordinary then none
      else some (l.dev, l.pa / 16, (List.range 16).map (fun i => s.readOwn who l (16 * g + i) (l.pa + i)))
    | .error _ => none
  else if decide (16 * g + 16 ≤ bufSize sp) && !k.cBusy sp (16 * g) 16 && (k.badAt sp (16 * g) 16).isNone then
    some (none, g, k.bufBytes sp (16 * g) 16)
  else none

/-- A unit reads a granule ahead; what it read for an earlier word is forgotten. -/
def State.ahead (s : State) (k : Core) (who : Who) (sp : Space) (g : Nat) : State :=
  let tag := s.peekTag who
  match s.aheadBytes k who sp g with
  | none => s
  | some (dev, n, bs) =>
    { s with peeks := s.peeks.filter (fun p =>
        !(p.agent == who.agent && (p.tag != tag || (p.sp == sp && p.dev == dev && p.g == n)))) ++
        [{ agent := who.agent, tag := tag, sp := sp, dev := dev, g := n, bytes := bs }] }

/-- The space of a vector load or of an SLD from memory, and whether it takes FULL granules only. -/
def loadSpace (i : Instr) : Option (Tok × Space × Bool) :=
  match i with
  | .vld t _ _ _ sp q => some (t, sp, q != .plain)
  | .vldi t _ _ _ sp q => some (t, sp, q != .plain)
  | .vldb t _ _ _ sp q => some (t, sp, q != .plain)
  | .vgath t _ _ _ _ sp => some (t, sp, false)
  | .sld t _ _ .glob => some (t, .glob, false)
  | _ => none

/-- Whether CMP's vector load may read: it issues, its tokens present, or waits on granules. -/
def Core.mayPeek (k : Core) (t : Tok) : Bool :=
  (k.mayIssue .cmp && k.tokensPresent (popFifos .cmp t)) || (decide (k.cmp.eng.wait = .fullEmpty) && !k.hold)

/-- The words of LDS and STS that read a record as they issue (R172, R184, R290). -/
def readsRecord (i : Instr) : Option Tok :=
  match i with
  | .boxld t _ _ => some t
  | .coll t _ => some t
  | .mdec t _ => some t
  | _ => none

/-- LDS or STS reads a granule of the record that the word it stands at reads. -/
def State.peekRec (s : State) (c : CoreId) (sts : Bool) (g : Nat) : State :=
  let k := s.core c
  let e := xferEng sts
  match readsRecord (k.instrAt e.seqr (fetchOf e) (engWords e) (k.eng e).pc) with
  | none => s
  | some t =>
    if s.halts c || !k.mayIssue e || !k.tokensPresent (popFifos e t) then s
    else { s with actCore := c, actSeq := e.seqr }.ahead k { s with actCore := c, actSeq := e.seqr }.engWho .glob g

/-- CMP reads a granule for the vector load it stands at. -/
def State.peekCmp (s : State) (c : CoreId) (g : Nat) : State :=
  let k := s.core c
  match loadSpace (k.instrAt .cmp .cmp (engWords .cmp) k.cmp.eng.pc) with
  | none => s
  | some (t, sp, full) =>
    if s.halts c || !k.mayPeek t || (full && !k.allFull sp [g]) then s
    else { s with actCore := c, actSeq := .cmp }.ahead k { s with actCore := c, actSeq := .cmp }.engWho sp g

/-- A copy step in flight, not held by a service, with units left. -/
def Xfer.moving (x : Xfer) (op : Nat) : Option (Op × CopyOp) :=
  match x.op op with
  | none => none
  | some o =>
    match o.kind with
    | .copy p => if p.held || bxUnits p.box ≤ p.unit then none else some (o, p)
    | .coll _ _ => none
    | .mdec => none

/-- A copy step reads a granule of its source. -/
def State.peekCopy (s : State) (c : CoreId) (sts : Bool) (op g : Nat) : State :=
  match ((s.core c).xfer sts).moving op with
  | none => s
  | some (o, p) => if s.halts c || p.kind == .zero then s else s.ahead (s.core c) (s.opWho c sts o) p.ssp g

/-- A copy step moves one granule of its next unit's destination, the unit's checks passed. -/
def State.copyPart (s : State) (c : CoreId) (sts : Bool) (op g : Nat) : State :=
  match ((s.core c).xfer sts).moving op with
  | none => s
  | some (o, p) =>
    if s.halts c then s
    else
      match s.unitOf (s.core c) (s.opWho c sts o) p with
      | .error _ => s
      | .ok (j, plan) =>
        match plan.dst with
        | none => s
        | some a =>
          if (granules a.toNat plan.n).contains g && !p.done.contains g then
            let part := plan.part a (s.unitBytes (s.core c) (s.opWho c sts o) p plan) g
            (s.putUnit c (s.opWho c sts o) p part.1 part.2).onCore c (fun k => k.onXfer sts (fun x =>
              x.setOp { o with kind := .copy { p with row := some (p.rowNo, j), done := p.done ++ [g] } }))
          else s

/-! ### Stop points (R163, R180, R233, R309) -/

/-- Whether a step has moved a part of its next unit. -/
def Op.midUnit (o : Op) : Bool :=
  match o.kind with
  | .copy p => !p.done.isEmpty
  | .coll _ _ => false
  | .mdec => false

/-- A transfer sequencer's steps come to a unit boundary (R180). -/
def State.closeUnits (s : State) (c : CoreId) (sts : Bool) : State :=
  (((s.core c).xfer sts).ops.filter Op.midUnit).foldl (fun t o => t.runUnits c (xferEng sts) sts o.id 1) s

/-- CMP comes to a word boundary: a store between its two accesses makes the second. -/
def State.closeNib (s : State) (c : CoreId) : State :=
  if (s.core c).cmp.eng.wait = .nibble then { s with actCore := c, actSeq := .cmp }.finishNib else s

/-- A core's task comes to its stop points: words, units and elements at their boundaries, loads done, what was read
ahead forgotten. -/
def State.toStop (s : State) (c : CoreId) : State :=
  let uid := (s.core c).theTask.uid
  let s := (((s.closeNib c).closeUnits c false).closeUnits c true).flushLoads uid
  { s.onCore c (fun k => k.onCmp (fun q => { q with mq := q.mq.map (fun m => { m with nib := none }) })) with
    peeks := s.peeks.filter (fun p => match p.agent with
      | .job _ _ _ => true
      | _ => !p.agent.ofTask uid) }

end Sys2Proof.Machine
end

