-- ==== Sys2Proof/Machine/Generator.lean ====
section
/-!
DEFINITION. Generator words and evaluations (R243 to R246, R249): one function per word on the sixteen registers of an
evaluation, the evaluation of a whole element, and the meanings of the words as the OGU of a core runs them.
-/

namespace Sys2Proof.Machine

/-- g[r]; g0 reads zero (R126, R243). -/
def GenEval.reg (v : GenEval) (r : BitVec 4) : Word := if r = 0 then 0 else v.g[r.toNat]'(r.isLt)

/-- Writes g[r]; g0 discards (R126). -/
def GenEval.setReg (v : GenEval) (r : BitVec 4) (x : Word) : GenEval :=
  if r = 0 then v else { v with g := v.g.set r.toNat x r.isLt }

/-- Past a word: one more executed, the next word under R150's loops (R244, R249). -/
def GenEval.advance (v : GenEval) : GenEval :=
  let r := nextWord v.pc v.loops
  { v with pc := r.1, loops := r.2, count := v.count + 1 }

/-- A word that writes g[gd]. -/
def GenEval.write (v : GenEval) (d : BitVec 4) (x : Word) : GenEval := (v.setReg d x).advance

/-- An f32 operand at its exact value (R244). -/
def f32Val (x : Word) : XVal := EType.value .f32 x.toNat

/-- An f32 result under RNE, its flags dropped (R76, R244). -/
def f32Res (r : Nat × FFlags) : Word := BitVec.ofNat 32 r.1

def isNan32 (x : Word) : Bool := (f32Val x).isNan

/-- FMIN and FMAX: -0 < +0, the canonical NaN when either is NaN (R244). -/
def f32Less (x y : Word) : Bool :=
  match (f32Val x).cmp (f32Val y) with
  | .lt => true
  | .gt => false
  | .eq => x.getLsbD 31 && !y.getLsbD 31

/-- 0x7FC0_0000. -/
def nan32 : Word := 0x7FC00000


/-- ADD on an evaluation (R244). -/
def GenEval.addWord (d a b : BitVec 4) (v : GenEval) : GenEval :=
  v.write d (v.reg a + v.reg b)

/-- SUB on an evaluation (R244). -/
def GenEval.subWord (d a b : BitVec 4) (v : GenEval) : GenEval :=
  v.write d (v.reg a - v.reg b)

/-- MUL on an evaluation (R244). -/
def GenEval.mulWord (d a b : BitVec 4) (v : GenEval) : GenEval :=
  v.write d (v.reg a * v.reg b)

/-- MULHU on an evaluation (R244). -/
def GenEval.mulhuWord (d a b : BitVec 4) (v : GenEval) : GenEval :=
  v.write d ((((v.reg a).setWidth 64 * (v.reg b).setWidth 64) >>> 32).setWidth 32)

/-- AND on an evaluation (R244). -/
def GenEval.andWord (d a b : BitVec 4) (v : GenEval) : GenEval :=
  v.write d (v.reg a &&& v.reg b)

/-- OR on an evaluation (R244). -/
def GenEval.orWord (d a b : BitVec 4) (v : GenEval) : GenEval :=
  v.write d (v.reg a ||| v.reg b)

/-- XOR on an evaluation (R244). -/
def GenEval.xorWord (d a b : BitVec 4) (v : GenEval) : GenEval :=
  v.write d (v.reg a ^^^ v.reg b)

/-- SHL on an evaluation (R244). -/
def GenEval.shlWord (d a b : BitVec 4) (v : GenEval) : GenEval :=
  v.write d (v.reg a <<< ((v.reg b).toNat % 32))

/-- SHR on an evaluation (R244). -/
def GenEval.shrWord (d a b : BitVec 4) (v : GenEval) : GenEval :=
  v.write d (v.reg a >>> ((v.reg b).toNat % 32))

/-- SRA on an evaluation (R244). -/
def GenEval.sraWord (d a b : BitVec 4) (v : GenEval) : GenEval :=
  v.write d ((v.reg a).sshiftRight ((v.reg b).toNat % 32))

/-- ROTL on an evaluation (R244). -/
def GenEval.rotlWord (d a b : BitVec 4) (v : GenEval) : GenEval :=
  v.write d ((v.reg a).rotateLeft ((v.reg b).toNat % 32))

/-- ADDI on an evaluation (R244). -/
def GenEval.addiWord (d a : BitVec 4) (imm : BitVec 14) (v : GenEval) : GenEval :=
  v.write d (v.reg a + imm.signExtend 32)

/-- XORI on an evaluation (R244). -/
def GenEval.xoriWord (d a : BitVec 4) (imm : BitVec 14) (v : GenEval) : GenEval :=
  v.write d (v.reg a ^^^ imm.setWidth 32)

/-- LI on an evaluation (R244). -/
def GenEval.liWord (d : BitVec 4) (imm : BitVec 14) (v : GenEval) : GenEval :=
  v.write d (imm.signExtend 32)

/-- LUI on an evaluation (R244). -/
def GenEval.luiWord (d : BitVec 4) (imm : BitVec 14) (v : GenEval) : GenEval :=
  v.write d (imm.setWidth 32 <<< 18)

/-- HASH on an evaluation (R244). -/
def GenEval.hashWord (d a b : BitVec 4) (v : GenEval) : GenEval :=
  v.write d (hash32 (v.reg a ^^^ v.reg b))

/-- SEL on an evaluation (R244). -/
def GenEval.selWord (d a b : BitVec 4) (v : GenEval) : GenEval :=
  v.write d (if v.reg d = 0 then v.reg b else v.reg a)

/-- SLTU on an evaluation (R244). -/
def GenEval.sltuWord (d a b : BitVec 4) (v : GenEval) : GenEval :=
  v.write d (bitv 32 ((v.reg a).ult (v.reg b)))

/-- SLT on an evaluation (R244). -/
def GenEval.sltWord (d a b : BitVec 4) (v : GenEval) : GenEval :=
  v.write d (bitv 32 ((v.reg a).slt (v.reg b)))

/-- FADD on an evaluation (R244). -/
def GenEval.faddWord (d a b : BitVec 4) (v : GenEval) : GenEval :=
  v.write d (f32Res (addIn .f32 .rne (f32Val (v.reg a)) (f32Val (v.reg b))))

/-- FMUL on an evaluation (R244). -/
def GenEval.fmulWord (d a b : BitVec 4) (v : GenEval) : GenEval :=
  v.write d (f32Res (mulIn .f32 .rne (f32Val (v.reg a)) (f32Val (v.reg b))))

/-- FFMA on an evaluation (R244). -/
def GenEval.ffmaWord (d a b : BitVec 4) (v : GenEval) : GenEval :=
  v.write d (f32Res (fmaIn .f32 .rne (f32Val (v.reg a)) (f32Val (v.reg b)) (f32Val (v.reg d))))

/-- I2F on an evaluation (R244). -/
def GenEval.i2fWord (d a : BitVec 4) (v : GenEval) : GenEval :=
  v.write d (f32Res (roundTo .f32 .rne (XVal.ofInt (v.reg a).toInt)))

/-- UNIF on an evaluation (R244). -/
def GenEval.unifWord (d a : BitVec 4) (v : GenEval) : GenEval :=
  v.write d (unifF32 (v.reg a))

/-- RADE on an evaluation (R244). -/
def GenEval.radeWord (d a : BitVec 4) (v : GenEval) : GenEval :=
  v.write d (if (v.reg a).getLsbD 0 then 0xBF800000 else 0x3F800000)

/-- FNEG on an evaluation (R244). -/
def GenEval.fnegWord (d a : BitVec 4) (v : GenEval) : GenEval :=
  v.write d (if isNan32 (v.reg a) then nan32 else v.reg a ^^^ 0x80000000)

/-- FMIN on an evaluation (R244). -/
def GenEval.fminWord (d a b : BitVec 4) (v : GenEval) : GenEval :=
  v.write d (if isNan32 (v.reg a) || isNan32 (v.reg b) then nan32 else if f32Less (v.reg b) (v.reg a) then v.reg b else v.reg a)

/-- FMAX on an evaluation (R244). -/
def GenEval.fmaxWord (d a b : BitVec 4) (v : GenEval) : GenEval :=
  v.write d (if isNan32 (v.reg a) || isNan32 (v.reg b) then nan32 else if f32Less (v.reg a) (v.reg b) then v.reg b else v.reg a)

/-- LOOP on an evaluation (R244). -/
def GenEval.loopWord (a : BitVec 4) (imm : BitVec 6) (v : GenEval) : GenEval :=
  let r := loopStart v.pc imm.toNat (v.reg a).toNat v.loops
  { v with pc := r.1, loops := r.2, count := v.count + 1 }

/-- OUT on an evaluation (R245). -/
def GenEval.outWord (a : BitVec 4) (v : GenEval) : GenEval :=
  { v.advance with out := some (some (convert false (f32Val (v.reg a)) v.ety .rne true).1) }

/-- OUTI on an evaluation (R245). -/
def GenEval.outiWord (a : BitVec 4) (v : GenEval) : GenEval :=
  { v.advance with out := some (some (convert true (XVal.ofInt (v.reg a).toInt) v.ety .rne true).1) }

/-- One generator word on an evaluation; other instructions leave it alone. -/
def GenEval.apply (v : GenEval) : Instr → GenEval
  | .genAdd d a b => v.addWord d a b
  | .genSub d a b => v.subWord d a b
  | .genMul d a b => v.mulWord d a b
  | .genMulhu d a b => v.mulhuWord d a b
  | .genAnd d a b => v.andWord d a b
  | .genOr d a b => v.orWord d a b
  | .genXor d a b => v.xorWord d a b
  | .genShl d a b => v.shlWord d a b
  | .genShr d a b => v.shrWord d a b
  | .genSra d a b => v.sraWord d a b
  | .genRotl d a b => v.rotlWord d a b
  | .genAddi d a imm => v.addiWord d a imm
  | .genXori d a imm => v.xoriWord d a imm
  | .genLi d imm => v.liWord d imm
  | .genLui d imm => v.luiWord d imm
  | .genHash d a b => v.hashWord d a b
  | .genSel d a b => v.selWord d a b
  | .genSltu d a b => v.sltuWord d a b
  | .genSlt d a b => v.sltWord d a b
  | .genFadd d a b => v.faddWord d a b
  | .genFmul d a b => v.fmulWord d a b
  | .genFfma d a b => v.ffmaWord d a b
  | .genI2f d a => v.i2fWord d a
  | .genUnif d a => v.unifWord d a
  | .genRade d a => v.radeWord d a
  | .genFneg d a => v.fnegWord d a
  | .genFmin d a b => v.fminWord d a b
  | .genFmax d a b => v.fmaxWord d a b
  | .genLoop a imm => v.loopWord a imm
  | .genOut a => v.outWord a
  | .genOuti a => v.outiWord a
  | _ => v

/-- The word an evaluation stands at; GLOAD has checked that there is one (R239). -/
def GenEval.instr (v : GenEval) : Option Instr := (v.slot.words[v.pc]?).bind (fun w => (decodeGen w).toOption)

/-- The next word of an evaluation: the (BOUND + 1)th is not executed and GEN_BOUND is raised (R249). -/
def GenEval.next (v : GenEval) : GenEval :=
  if v.slot.bound ≤ v.count then { v with out := some none }
  else
    match v.instr with
    | some i => v.apply i
    | none => { v with out := some none }

/-- An evaluation run to its end; BOUND + 1 words are enough (R249). -/
def GenEval.finish : Nat → GenEval → GenEval
  | 0, v => v
  | n + 1, v => if v.out.isSome then v else GenEval.finish n v.next

/-- The registers at entry (R243). -/
def entryRegs (sl : GenSlot) (seed r c : Nat) : Vector Word 16 :=
  #v[0, BitVec.ofNat 32 r, BitVec.ofNat 32 c, BitVec.ofNat 32 seed, BitVec.ofNat 32 (seed / 2 ^ 32), sl.p[0], sl.p[1], sl.p[2],
    sl.p[3], 0, 0, 0, 0, 0, 0, 0]

/-- An evaluation at logical (r, c) (R243). -/
def beginEval (sl : GenSlot) (ety : EType) (seed r c : Nat) : GenEval :=
  { slot := sl, ety := ety, g := entryRegs sl seed r c, pc := 0, loops := [], count := 0, out := none }

/-- The element at logical (r, c): its bits, or none when the evaluation raises GEN_BOUND (R245, R246, R249). -/
def genElement (sl : GenSlot) (ety : EType) (seed r c : Nat) : Option Nat :=
  ((beginEval sl ety seed r c).finish (sl.bound + 1)).out.getD none

/-! ### The OGU of a core, word by word -/

/-- A generator word acts on the evaluation that the core's OGU runs; with none under way there is nothing to act on. -/
def onOgu (s : State) (f : GenEval → GenEval) : Out :=
  .next (s.onHere (fun k => { k with ogu := k.ogu.map f }))

/-- ADD (R244). -/
def execGenAdd (d a b : BitVec 4) (s : State) : Out := onOgu s (GenEval.addWord d a b)

/-- SUB (R244). -/
def execGenSub (d a b : BitVec 4) (s : State) : Out := onOgu s (GenEval.subWord d a b)

/-- MUL (R244). -/
def execGenMul (d a b : BitVec 4) (s : State) : Out := onOgu s (GenEval.mulWord d a b)

/-- MULHU (R244). -/
def execGenMulhu (d a b : BitVec 4) (s : State) : Out := onOgu s (GenEval.mulhuWord d a b)

/-- AND (R244). -/
def execGenAnd (d a b : BitVec 4) (s : State) : Out := onOgu s (GenEval.andWord d a b)

/-- OR (R244). -/
def execGenOr (d a b : BitVec 4) (s : State) : Out := onOgu s (GenEval.orWord d a b)

/-- XOR (R244). -/
def execGenXor (d a b : BitVec 4) (s : State) : Out := onOgu s (GenEval.xorWord d a b)

/-- SHL (R244). -/
def execGenShl (d a b : BitVec 4) (s : State) : Out := onOgu s (GenEval.shlWord d a b)

/-- SHR (R244). -/
def execGenShr (d a b : BitVec 4) (s : State) : Out := onOgu s (GenEval.shrWord d a b)

/-- SRA (R244). -/
def execGenSra (d a b : BitVec 4) (s : State) : Out := onOgu s (GenEval.sraWord d a b)

/-- ROTL (R244). -/
def execGenRotl (d a b : BitVec 4) (s : State) : Out := onOgu s (GenEval.rotlWord d a b)

/-- ADDI (R244). -/
def execGenAddi (d a : BitVec 4) (imm : BitVec 14) (s : State) : Out := onOgu s (GenEval.addiWord d a imm)

/-- XORI (R244). -/
def execGenXori (d a : BitVec 4) (imm : BitVec 14) (s : State) : Out := onOgu s (GenEval.xoriWord d a imm)

/-- LI (R244). -/
def execGenLi (d : BitVec 4) (imm : BitVec 14) (s : State) : Out := onOgu s (GenEval.liWord d imm)

/-- LUI (R244). -/
def execGenLui (d : BitVec 4) (imm : BitVec 14) (s : State) : Out := onOgu s (GenEval.luiWord d imm)

/-- HASH (R244). -/
def execGenHash (d a b : BitVec 4) (s : State) : Out := onOgu s (GenEval.hashWord d a b)

/-- SEL (R244). -/
def execGenSel (d a b : BitVec 4) (s : State) : Out := onOgu s (GenEval.selWord d a b)

/-- SLTU (R244). -/
def execGenSltu (d a b : BitVec 4) (s : State) : Out := onOgu s (GenEval.sltuWord d a b)

/-- SLT (R244). -/
def execGenSlt (d a b : BitVec 4) (s : State) : Out := onOgu s (GenEval.sltWord d a b)

/-- FADD (R244). -/
def execGenFadd (d a b : BitVec 4) (s : State) : Out := onOgu s (GenEval.faddWord d a b)

/-- FMUL (R244). -/
def execGenFmul (d a b : BitVec 4) (s : State) : Out := onOgu s (GenEval.fmulWord d a b)

/-- FFMA (R244). -/
def execGenFfma (d a b : BitVec 4) (s : State) : Out := onOgu s (GenEval.ffmaWord d a b)

/-- I2F (R244). -/
def execGenI2f (d a : BitVec 4) (s : State) : Out := onOgu s (GenEval.i2fWord d a)

/-- UNIF (R244). -/
def execGenUnif (d a : BitVec 4) (s : State) : Out := onOgu s (GenEval.unifWord d a)

/-- RADE (R244). -/
def execGenRade (d a : BitVec 4) (s : State) : Out := onOgu s (GenEval.radeWord d a)

/-- FNEG (R244). -/
def execGenFneg (d a : BitVec 4) (s : State) : Out := onOgu s (GenEval.fnegWord d a)

/-- FMIN (R244). -/
def execGenFmin (d a b : BitVec 4) (s : State) : Out := onOgu s (GenEval.fminWord d a b)

/-- FMAX (R244). -/
def execGenFmax (d a b : BitVec 4) (s : State) : Out := onOgu s (GenEval.fmaxWord d a b)

/-- LOOP (R244). -/
def execGenLoop (a : BitVec 4) (imm : BitVec 6) (s : State) : Out := onOgu s (GenEval.loopWord a imm)

/-- OUT (R245). -/
def execGenOut (a : BitVec 4) (s : State) : Out := onOgu s (GenEval.outWord a)

/-- OUTI (R245). -/
def execGenOuti (a : BitVec 4) (s : State) : Out := onOgu s (GenEval.outiWord a)

/-- The evaluation that the oldest matrix word's next granule begins with, when its A stream is a generator (R242). -/
def Core.nextEval (k : Core) : Option GenEval :=
  match k.cmp.mq with
  | [] => none
  | m :: _ =>
    match m.ga, granuleDepth (dType m.da) (dType m.db) with
    | some sl, some d =>
      let r := dRow0 m.da
      let c := dCol0 m.da + (if m.kind = .mmaz then m.next - 1 else m.next) * d
      if dInRange m.da r c then some (beginEval sl (dType m.da) (dSeed m.da) r c) else none
    | _, _ => none

/-- The OGU's turn: the next word of its evaluation, or a new evaluation (R243); its clocks may be held (R66). A step
of the matrix engine evaluates each element by itself (R246), so that nothing else depends on this evaluation. -/
def State.oguTurn (s : State) (c : CoreId) : Turn :=
  let k := s.core c
  let s := { s with actCore := c, actSeq := .cmp }
  if k.hold || k.sealed then .done s
  else
    match k.ogu with
    | none => .done (s.onCore c (fun k => { k with ogu := k.nextEval }))
    | some v =>
      if v.out.isSome then .done (s.onCore c (fun k => { k with ogu := none }))
      else if v.slot.bound ≤ v.count then .done (s.onCore c (fun k => { k with ogu := some { v with out := some none } }))
      else
        match v.slot.words[v.pc]? with
        | some w => .run (instrOf .gen w) s
        | none => .done (s.onCore c (fun k => { k with ogu := some { v with out := some none } }))

end Sys2Proof.Machine
end

