-- ==== Sys2Proof/Machine/GenSlots.lean ====
section
/-!
DEFINITION. Generator slots: GLOAD, GFREE, GPARAM, the step that ends their wait, and GSTAT (R234 to R241).
-/

namespace Sys2Proof.Machine

/-! ### Words that name a slot (R236) -/

/-- Whether a descriptor names a generator slot: kind 6 with the slot in BASE[3:0] (R242). -/
def dNames (d : BitVec 512) (n : BitVec 4) : Bool := dKind d == 6 && dBase d % 16 == n.toNat

/-- Whether a matrix word's streams name a slot; only steps have them (R242). -/
def MWord.names (m : MWord) (n : BitVec 4) : Bool := (m.ga.isSome && dNames m.da n) || (m.gb.isSome && dNames m.db n)

/-- Whether a core's task, of context x, has issued and not completed a matrix word that names the slot. -/
def Core.namesSlot (k : Core) (x : BitVec 6) (n : BitVec 4) : Bool :=
  (match k.task with
   | some t => t.ctx == x
   | none => false) && k.cmp.mq.any (fun m => m.names n)

/-- Whether any matrix word of the context that names the slot has issued and not completed; words suspended by
pre-emption count (R236). -/
def State.slotBusy (s : State) (x : BitVec 6) (n : BitVec 4) : Bool :=
  s.cores.any (fun k => k.namesSlot x n) ||
    s.slots.any (fun l => match l with
      | some l => l.susp.any (fun u => u.core.namesSlot x n)
      | none => false)

/-- Whether a task of the context waits to change the slot: matrix words that name it hold their issue (R236). -/
def State.slotWanted (s : State) (x : BitVec 6) (n : BitVec 4) : Bool :=
  s.cores.any (fun k =>
    match k.task, k.ctl.wait with
    | some t, .slot m _ => t.ctx == x && m == n
    | _, _ => false)

/-- Slot n of a context. -/
def Ctx.slot (c : Ctx) (n : BitVec 4) : Option GenSlot := c.slots[n.toNat]'(n.isLt)

def Ctx.setSlot (c : Ctx) (n : BitVec 4) (g : Option GenSlot) : Ctx := { c with slots := c.slots.set n.toNat g n.isLt }

/-! ### The change (R238, R240) -/

/-- The parameters that GPARAM sets: P0 to P(PARAMS - 1) from four registers, the rest zero. -/
def Ctl.params (k : Ctl) (g : GenSlot) (a : BitVec 5) : Vector Word 4 :=
  Vector.ofFn (fun (i : Fin 4) =>
    if i.val < g.params then (k.reg (BitVec.ofNat 5 (a.toNat + i.val))).setWidth 32 else 0)

/-- A change at its retirement (R238, R240). -/
def applySlot (n : BitVec 4) (c : SlotChange) (s : State) : Out :=
  match c with
  | .load g => .next (s.onCtx s.myCtx (fun x => x.setSlot n (some g))).retireWait
  | .free => .next (s.onCtx s.myCtx (fun x => x.setSlot n none)).retireWait
  | .param a =>
    match (s.ctx s.myCtx).slot n with
    | none => .next (s.ctlTrap .genSlot (n.setWidth 64))
    | some g =>
      .next (s.onCtx s.myCtx (fun x => x.setSlot n (some { g with p := (s.here).ctl.params g a }))).retireWait

/-- A change waits while the slot is named by words in flight (R236). -/
def changeSlot (n : BitVec 4) (c : SlotChange) (s : State) : Out :=
  if s.slotBusy s.myCtx n then .next (s.onHere (fun k => k.setWait .ctl (.slot n c))) else applySlot n c s

/-! ### GLOAD's checks (R238, R239) -/

/-- Checks 2 to 4 on n bytes at va, and the bytes: first NONCANON, then translation and leaf of every page, then
data. -/
def State.fetchImage (s : State) (va n : Nat) : Except (AccFault × Nat) (List Byte) :=
  let who := s.ctlWho
  if 2 ^ 56 < va + n then .error (.trap .noncanon, max va (2 ^ 56))
  else
    let leaf (p : Nat × Nat) : Option (AccFault × Nat) :=
      match s.translate who p.1 with
      | .error f => some (f, p.1)
      | .ok l =>
        match leafCheck who .fetch l with
        | .error f => some (f, p.1)
        | .ok _ => none
    match (pagesOf va n).findSome? leaf with
    | some f => .error f
    | none =>
      match s.load who .fetch va n with
      | .error f => .error f
      | .ok (bs, _) => .ok bs

/-- NAME's form (R119): printable characters, padded with zero bytes, the first not zero. -/
def nameOk (bs : List Byte) : Bool :=
  let chars := bs.takeWhile (· != 0)
  !chars.isEmpty && chars.all (fun b => decide (0x21 ≤ b.toNat) && decide (b.toNat ≤ 0x7E)) &&
    (bs.drop chars.length).all (· == 0)

/-- A generator image's header (R119). -/
def imageHeaderOk (h : List Byte) : Bool :=
  nameOk (h.take 16) && decide (1 ≤ fieldAt h 16 2) && decide (fieldAt h 16 2 ≤ 64) && decide (1 ≤ fieldAt h 18 2) &&
    decide (fieldAt h 18 2 ≤ 256) && decide (fieldAt h 20 1 ≤ 4) && zeroAt h 21 11

/-- The words of a run of bytes. -/
def wordsOf : List Byte → List Word
  | b0 :: b1 :: b2 :: b3 :: bs => wordOfBytes b0 b1 b2 b3 :: wordsOf bs
  | _ => []

/-- The first word that fails decode checks 1 to 4, with its cause (R125, R238 check 6). -/
def badGenWord : Nat → List Word → Option (Nat × Cause)
  | _, [] => none
  | i, w :: ws =>
    match decodeGen w with
    | .error r => some (i, if r.isReserved then .reservedField else .illegalInstr)
    | .ok _ => badGenWord (i + 1) ws

/-- The body of a LOOP word: its number of words. -/
def genLoopLen (w : Word) : Option Nat :=
  match decodeGen w with
  | .ok (.genLoop _ imm) => some imm.toNat
  | .ok _ => none
  | .error _ => none

/-- Whether a word ends an evaluation. -/
def isOutWord (w : Word) : Bool :=
  match decodeGen w with
  | .ok (.genOut _) => true
  | .ok (.genOuti _) => true
  | .ok _ => false
  | .error _ => false

/-- The first word that breaks R239, walking with the ends of the bodies that hold it, innermost first. DESIGN CHOICE (log
77): where a fifth body opens inside four, that is the LOOP word which opens it. -/
def badShape (n : Nat) : Nat → List Nat → List Word → Option Nat
  | _, _, [] => none
  | i, ends, w :: ws =>
    let ends := ends.filter (fun e => decide (i ≤ e))
    if i + 1 = n && !isOutWord w then some i
    else
      match genLoopLen w with
      | none => badShape n (i + 1) ends ws
      | some len =>
        let e := i + len
        let inner := match ends with
          | o :: _ => decide (e ≤ o)
          | [] => true
        if n < e + 2 || !inner || 4 ≤ ends.length then some i
        else badShape n (i + 1) (e :: ends) ws

/-- The slot that an image gives (R238). -/
def slotOf (h : List Byte) (ws : List Word) : GenSlot :=
  { name := h.take 16, bound := fieldAt h 18 2, params := fieldAt h 20 1, words := ws, p := Vector.replicate 4 0 }

/-- An image's words are checked (R238 checks 6 and 7) and the slot is changed. -/
def loadWords (n : BitVec 4) (va : Nat) (h : List Byte) (ws : List Word) (s : State) : Out :=
  match badGenWord 0 ws with
  | some (i, c) => .next (s.ctlTrap c (BitVec.ofNat 64 (va + 32 + 4 * i)))
  | none =>
    match badShape ws.length 0 [] ws with
    | some i => .next (s.ctlTrap .illegalInstr (BitVec.ofNat 64 (va + 32 + 4 * i)))
    | none => changeSlot n (.load (slotOf h ws)) s

/-- GLOAD (R238). -/
def execGload (a : BitVec 5) (b : BitVec 4) (s : State) : Out :=
  let va := s.sreg a
  if va.toNat % 4 != 0 then .next (s.ctlTrap .misaligned va)
  else
    match s.fetchImage va.toNat 32 with
    | .error (f, at_) => ctlAccFault s f (BitVec.ofNat 64 at_)
    | .ok h =>
      if !imageHeaderOk h then .next (s.ctlTrap .reservedField va)
      else
        match s.fetchImage (va.toNat + 32) (4 * fieldAt h 16 2) with
        | .error (f, at_) => ctlAccFault s f (BitVec.ofNat 64 at_)
        | .ok bs => loadWords b va.toNat h (wordsOf bs) s

/-- GFREE (R240). -/
def execGfree (b : BitVec 4) (s : State) : Out := changeSlot b .free s

/-- GPARAM (R240). -/
def execGparam (a : BitVec 5) (b : BitVec 4) (s : State) : Out := changeSlot b (.param a) s

/-- SLOT_CHANGE_RETIRE (R236). -/
def execSlotChangeRetire (c : CoreId) (s : State) : Out :=
  match (s.core c).ctl.wait with
  | .slot n ch =>
    if s.slotBusy (s.core c).theTask.ctx n || (s.core c).stopped then .next s else applySlot n ch { s with actCore := c, actSeq := .ctl }
  | _ => .next s

/-! ### GSTAT (R241) -/

/-- GSTAT's result. -/
def State.gstat (s : State) (x : BitVec 6) (n : BitVec 4) : DWord :=
  let busy := bit (s.slotBusy x n)
  match (s.ctx x).slot n with
  | none => BitVec.ofNat 64 (2 * busy)
  | some g => BitVec.ofNat 64 (1 + 2 * busy + 2 ^ 2 * g.words.length + 2 ^ 9 * g.bound + 2 ^ 18 * g.params)

/-- GSTAT (R241). -/
def execGstat (t : Tok) (d slot : BitVec 4) (s : State) : Out :=
  engSimple s t noCheck (fun u => u.setKreg d (u.gstat u.myCtx slot))

end Sys2Proof.Machine
end

