-- ==== Sys2Proof/Machine/Launch.lean ====
section
/-!
DEFINITION. Launches: level tables and their numbers (R28 to R30, R339), host queues and the spawn pool (R301, R36),
admission (R302, R303, R305), dependences (R306), and the completion record (R313).
-/

namespace Sys2Proof.Machine

/-! ### Level tables (R28, R339) -/

/-- A level-table entry (R28). -/
structure LevelEnt where
  ext   : Nat
  bind  : Nat
  scope : Nat
  cores : Bool
  /-- A reserved bit is set. -/
  rsv   : Bool
  deriving DecidableEq, Repr, Inhabited

/-- Entry k of a record's level table. -/
def levelAt (rec_ : List Byte) (k : Nat) : LevelEnt :=
  let e := fieldAt rec_ (16 + 8 * k) 8
  { ext := e % 2 ^ 32, bind := e / 2 ^ 32 % 8, scope := e / 2 ^ 36 % 8, cores := e.testBit 40,
    rsv := e.testBit 35 || e.testBit 39 || e / 2 ^ 41 != 0 }

/-- NLEV (R302). -/
def nlevOf (rec_ : List Byte) : Nat := fieldAt rec_ 80 1

/-- The entries of a record's level table. -/
def levelsOf (rec_ : List Byte) : List LevelEnt := (List.range (min (nlevOf rec_) 8)).map (levelAt rec_)

/-- The levels as placement uses them: a launch of one level gets a level 1 of one task (R308, R339). -/
def plevels (rec_ : List Byte) : List LevelEnt :=
  match levelsOf rec_ with
  | [e] => [e, { ext := 1, bind := 0, scope := 0, cores := false, rsv := false }]
  | l => l

/-- Entry k, or one that stands for nothing. -/
def lvAt (lv : List LevelEnt) (k : Nat) : LevelEnt := (lv[k]?).getD { ext := 1, bind := 0, scope := 0, cores := false, rsv := false }

/-- Cores of a full unit of a BIND code; a domain counts as its package here (R11). -/
def unitSize (b : Nat) : Nat := if b = 0 then 1 else if b = 1 then 4 else if b = 2 then 32 else 128

/-- NEXT(k) (R339). -/
def nextExt (lv : List LevelEnt) (dg k : Nat) : Nat :=
  let b := (lvAt lv k).bind
  let b' := (lvAt lv (k - 1)).bind
  if (lvAt lv k).ext != 0 then (lvAt lv k).ext
  else if b' = b then 1
  else if b ≤ 3 then unitSize b / unitSize b'
  else if b' = 3 then dg
  else dg * (128 / unitSize b')

/-- The product of NEXT(lo) to NEXT(lo + n - 1). -/
def nextProd (lv : List LevelEnt) (dg lo n : Nat) : Nat := (List.range n).foldl (fun p i => p * nextExt lv dg (lo + i)) 1

/-- N: TASKIDs lie below it (R339). -/
def taskRange (lv : List LevelEnt) (dg : Nat) : Nat := nextProd lv dg 1 (lv.length - 1)

/-- NT: team numbers lie below it (R339). -/
def teamRange (lv : List LevelEnt) (dg : Nat) : Nat := nextProd lv dg 2 (lv.length - 2)

/-- The number of the team with coordinates c at levels 2 and above (R339). -/
def teamNum (lv : List LevelEnt) (dg : Nat) : Nat → List Nat → Nat
  | _, [] => 0
  | k, c :: cs => c + nextExt lv dg k * teamNum lv dg (k + 1) cs

/-! ### Present units and extents (R11, R29) -/

/-- The cores of a unit: BIND code and number; the package for codes 3 and 4. -/
def unitCores (u : Nat × Nat) : List CoreId :=
  if 3 ≤ u.1 then allCores else allCores.filter (fun c => c.toNat / unitSize u.1 == u.2)

/-- Present cores of a unit. -/
def State.presentIn (s : State) (u : Nat × Nat) : List CoreId := (unitCores u).filter (fun c => s.present c)

/-- Present units of BIND code b' within a unit (R29). -/
def State.unitsIn (s : State) (b' : Nat) (u : Nat × Nat) : Nat :=
  if b' = 2 then 4
  else (((s.presentIn u).map (fun c => c.toNat / unitSize b')).dedup).length

/-- The extent of a level-k group in a unit of BIND(k) (R29). -/
def State.extIn (s : State) (lv : List LevelEnt) (dg k : Nat) (u : Nat × Nat) : Nat :=
  let b := (lvAt lv k).bind
  let b' := (lvAt lv (k - 1)).bind
  if (lvAt lv k).ext != 0 then (lvAt lv k).ext
  else if b' = b then 1
  else if b ≤ 3 then s.unitsIn b' u
  else if b' = 3 then dg
  else dg * s.unitsIn b' (3, 0)

/-! ### Level-table checks (R28, R32) -/

/-- R28: whether the table is one a launch may have. -/
def levelsOk (rec_ : List Byte) : Bool :=
  let lv := levelsOf rec_
  let n := nlevOf rec_
  decide (1 ≤ n) && decide (n ≤ 8) &&
  lv.all (fun e => !e.rsv && decide (e.bind ≤ 4) && decide (e.scope ≤ 4) && decide (e.bind ≤ e.scope)) &&
  (lvAt lv 0).ext == 1 && (lvAt lv 0).bind == 0 &&
  (List.range (n - 1)).all (fun k => decide ((lvAt lv k).bind ≤ (lvAt lv (k + 1)).bind)) &&
  decide (taskRange lv (fieldAt rec_ 104 2) ≤ 0xFFFFFFFF)

/-- All units of a BIND code up to the package. -/
def allUnits (b : Nat) : List (Nat × Nat) := (List.range (128 / unitSize b)).map (fun i => (min b 3, i))

/-- The units of BIND code b within a unit (R29). -/
def subUnits (b : Nat) (u : Nat × Nat) : List (Nat × Nat) :=
  (allUnits b).filter (fun v =>
    decide (3 ≤ u.1) || v == u || (decide (v.1 < u.1) && v.2 * unitSize v.1 / unitSize u.1 == u.2))

/-- How many level-k groups the present cores of a unit hold, with every core free: each group of the level below lies in
one unit of its own BIND (R29, R32). -/
def State.roomFor (s : State) (lv : List LevelEnt) : Nat → Nat × Nat → Nat
  | 0, u => (s.presentIn u).length
  | k + 1, u =>
    let b := (lvAt lv (k + 1)).bind
    ((subUnits b u).map (fun v =>
      (((subUnits (lvAt lv k).bind v).map (fun w => s.roomFor lv k w)).sum) / s.extIn lv 1 (k + 1) v)).sum

/-- R32: whether some unit of BIND(k), with every core free, could hold one co-resident level-k group. -/
def State.gangFits (s : State) (lv : List LevelEnt) (k : Nat) : Bool :=
  (allUnits (lvAt lv k).bind).any (fun u => decide (0 < s.roomFor lv k u))

/-- R32: a co-resident level that no unit could hold, or that has BIND 4. -/
def State.gangBad (s : State) (lv : List LevelEnt) : Bool :=
  (List.range lv.length).any (fun k => (lvAt lv k).cores && ((lvAt lv k).bind == 4 || !s.gangFits lv k))

/-! ### Records (R302) -/

/-- COMPLETION (R302). -/
def completionOf (rec_ : List Byte) : Nat := fieldAt rec_ 88 8

/-- Bytes of one task's ring set (R302). -/
def ringBytes (rec_ : List Byte) : Nat := if fieldAt rec_ 86 1 = 0 then 0 else 3 * 2 ^ (fieldAt rec_ 86 1) * 64

/-- Bytes of the spawn spill queue (R302). -/
def spqBytesOf (rec_ : List Byte) : Nat := if fieldAt rec_ 87 1 = 0 then 0 else 2 ^ (fieldAt rec_ 87 1) * 256

/-- Bytes of a save area (R309). -/
def saveBytes (bufPres : Bool) : Nat := if bufPres then 9 * 2 ^ 20 else 3 * 2 ^ 20

/-- Bytes of the spill area (R302). -/
def spillBytes (rec_ : List Byte) : Nat :=
  let n := taskRange (levelsOf rec_) (fieldAt rec_ 104 2)
  spqBytesOf rec_ + n * ringBytes rec_ + n * saveBytes ((fieldAt rec_ 83 1).testBit 0)

/-- 0 or within a range. -/
def zeroOr (lo hi n : Nat) : Bool := n == 0 || (decide (lo ≤ n) && decide (n ≤ hi))

/-- Check 1 of R305, COMPLETION's alignment apart. MEMBER is this device's index in the group (R302); a child's is
ignored. -/
def recordOk (child : Bool) (r : List Byte) : Bool :=
  let nlev := min (nlevOf r) 8
  let dom := (levelsOf r).any (fun e => e.bind == 4)
  let dg := fieldAt r 104 2
  zeroAt r (16 + 8 * nlev) (8 * (8 - nlev)) &&
  decide (fieldAt r 81 1 < 8) && decide (fieldAt r 82 1 < 16) && decide (fieldAt r 83 1 < 2) &&
  decide (fieldAt r 85 1 ≤ 4) && zeroAt r (128 + 16 * fieldAt r 85 1) (16 * (4 - fieldAt r 85 1)) &&
  zeroOr 6 16 (fieldAt r 86 1) && zeroOr 4 16 (fieldAt r 87 1) &&
  fieldAt r 96 8 % 2 ^ 16 == 0 &&
  decide (1 ≤ dg) && decide (dg ≤ 512) && (dom || dg == 1) && (child || decide (fieldAt r 106 2 < dg)) &&
  zeroAt r 108 4 && fieldAt r 112 8 % 2 == 0 && zeroAt r 120 8 && zeroAt r 192 64

/-! ### Descriptors (R303) -/

/-- The fields of a descriptor. -/
def parseDesc (b : List Byte) : CtxDesc :=
  { pasid := BitVec.ofNat 20 (fieldAt b 8 4), world := BitVec.ofNat 4 (fieldAt b 12 1),
    verbase := BitVec.ofNat 64 (fieldAt b 16 8), vsize := BitVec.ofNat 64 (fieldAt b 24 8),
    pooltab := BitVec.ofNat 64 (fieldAt b 32 8),
    stagbase := BitVec.ofNat 64 (fieldAt b 40 8), stagsize := BitVec.ofNat 64 (fieldAt b 48 8) }

/-- Whether a descriptor has no reserved bit and no misaligned field, which R5 lets no one ignore (R303). -/
def descForm (b : List Byte) : Bool :=
  let root := fieldAt b 0 8
  root / 2 % 2 ^ 16 == 0 && root / 2 ^ 52 == 0 && decide (fieldAt b 8 4 < 2 ^ 20) &&
    decide (fieldAt b 12 1 < 16) && zeroAt b 13 3 && fieldAt b 16 8 % 2 ^ 16 == 0 && fieldAt b 24 8 % 2 ^ 16 == 0 &&
    fieldAt b 32 8 % 64 == 0 && fieldAt b 40 8 % 2 ^ 16 == 0 && fieldAt b 48 8 % 2 ^ 16 == 0 && zeroAt b 56 72

/-- Whether a descriptor keeps to R303, ROOT.V included. DEDUCED (log 29): a descriptor that does not is no valid context. -/
def descOk (b : List Byte) : Bool := (fieldAt b 0 8).testBit 0 && descForm b

/-- Whether a context's descriptor is valid as it now stands (R303). -/
def State.descValid (s : State) (x : BitVec 6) : Bool := descOk (s.descBytes x)

/-- A context's descriptor as it now stands. -/
def State.descOf (s : State) (x : BitVec 6) : CtxDesc := parseDesc (s.descBytes x)

/-- A context not yet created is created afresh (R304). -/
def State.createCtx (s : State) (x : BitVec 6) : State := s.onCtx x (fun c => if c.created then c else { created := true })

/-- The Launch Controller as a source of accesses for a context under a captured descriptor (R301, R303, R306, R313); it
stands on the IOD. -/
def lcWho (x : BitVec 6) (w : BitVec 4) (d : CtxDesc) : Who := { die := 4, ctx := x, world := w, hyp := 0, desc := d }

/-- The Launch Controller acting for a launch. -/
def Launch.who (l : Launch) : Who := lcWho l.ctx (BitVec.ofNat 4 (fieldAt l.record 82 1)) l.desc

/-! ### Admission (R305) -/

/-- Check 4 of R305: every page of the spill area is a leaf of the world. -/
def State.spillOk (s : State) (x : BitVec 6) (w : BitVec 4) (r : List Byte) : Bool :=
  let base := fieldAt r 96 8
  (List.range ((spillBytes r + 2 ^ 16 - 1) / 2 ^ 16)).all (fun i =>
    match s.translate (lcWho x w (s.descOf x)) (base + i * 2 ^ 16) with
    | .ok l => l.enc == w.toNat
    | .error _ => false)

/-- Checks 1 to 5 of R305 in order: none, or the cause of the refusal. -/
def State.admission (s : State) (child : Bool) (x : BitVec 6) (r : List Byte) : Option (BitVec 8) :=
  let w := BitVec.ofNat 4 (fieldAt r 82 1)
  if !recordOk child r then some 0x0F
  else if !(s.descValid x && (s.descOf x).world == w) then some 0x0E
  else if w != 0 && (s.tdiOf w).state != .run then some 0x11
  else if w != 0 && !s.spillOk x w r then some 0x12
  else if !levelsOk r then some 0x01
  else if s.gangBad (levelsOf r) then some 0x02
  else none

/-- A launch that will not complete: ERR of its host queue, or LDROP, tells (R305). -/
def State.dropLaunch (s : State) (src : Nat) : State :=
  if h : src < 64 then { s with lq := s.lq.set src { s.lq[src] with err := true } h } else { s with ldrop := s.ldrop + 1 }

/-- Whether a record comes from the spawn pool. -/
def isChild (src : Nat) : Bool := src == 64

/-- The lowest free launch slot (R306). -/
def State.freeSlot (s : State) : Option (BitVec 8) :=
  ((List.range 256).map (BitVec.ofNat 8)).find? (fun x => (s.slot x).isNone)

/-- A record enters a slot and is checked (R305). -/
def State.enterRecord (s : State) (x : BitVec 8) (src : Nat) (ctx : BitVec 6) (r : List Byte) : State :=
  if completionOf r % 64 != 0 then s.dropLaunch src
  else
    let l : Launch :=
      { src := src, record := r, age := s.nextAge, ctx := ctx, phase := .deps, eff := fieldAt r 81 1, desc := s.descOf ctx }
    let s1 := { s with nextAge := s.nextAge + 1 }
    match s.admission (isChild src) ctx r with
    | some c => s1.setSlot x (some { l with phase := .refused c 0 })
    | none => (s1.createCtx ctx).setSlot x (some l)

/-! ### Reading records (R301) -/

/-- LOGN as it acts (R301). -/
def LaunchQueue.logn' (q : LaunchQueue) : Nat := if 4 ≤ q.logn.toNat && q.logn.toNat ≤ 16 then q.logn.toNat else 4

/-- Whether a host queue has a record to read (R301). -/
def LaunchQueue.pending (q : LaunchQueue) : Bool :=
  q.en && !q.err && q.head.toNat % 2 ^ q.logn' != q.tail.toNat % 2 ^ q.logn'

/-- Whether a source has a record: a host queue, or the spawn pool (R301). -/
def State.srcPending (s : State) (src : Nat) : Bool :=
  if h : src < 64 then (s.lq[src]'h).pending else !s.pool.isEmpty

/-- The sources in the order of their turns after p (R301, R307). -/
def srcOrder (p : Nat) : List Nat := (List.range 65).map (fun i => (p + 1 + i) % 65)

/-- Record i of a host queue (R301): an LQBASE that is not a multiple of 256, a context without V, or a fault fails the
read; nothing is offered to a shadow control context (R311). -/
def State.readRing (s : State) (q : LaunchQueue) : Except State (List Byte × State) :=
  if q.base.toNat % 256 != 0 || !s.descValid q.ctx then .error s
  else
    match s.load (lcWho q.ctx (s.descOf q.ctx).world (s.descOf q.ctx)) .load
        ((q.base.toNat + 256 * (q.head.toNat % 2 ^ q.logn')) % 2 ^ 64) 256 with
    | .ok r => .ok r
    | .error (f, _) => .error (s.noteTag f)

/-- One record from a host queue into a slot, or ERR (R301). -/
def State.takeHost (s : State) (x : BitVec 8) (i : Nat) (h : i < 64) : State :=
  let q := s.lq[i]'h
  match s.readRing q with
  | .error t => { t with lq := t.lq.set i { q with err := true } h }
  | .ok (r, u) =>
    let head := BitVec.ofNat 16 ((q.head.toNat + 1) % 2 ^ q.logn')
    ({ u with lq := u.lq.set i { q with head := head } h }).enterRecord x i q.ctx r

/-- The oldest record of the spawn pool into a slot; its entry is freed (R36). -/
def State.takePool (s : State) (x : BitVec 8) : State :=
  match s.pool with
  | [] => s
  | p :: ps => ({ s with pool := ps }).enterRecord x 64 p.ctx p.record

/-- LAUNCH_RECORD_READ (R301, R305): the next source in turn gives one record to a free slot. -/
def execLaunchRecordRead (s : State) : Out :=
  match s.freeSlot, (srcOrder s.recPtr).find? (fun i => s.srcPending i) with
  | some x, some i =>
    let s := { s with recPtr := i }
    if h : i < 64 then .next (s.takeHost x i h) else .next (s.takePool x)
  | _, _ => .next s

/-! ### Dependences (R306) -/

/-- The start of a span of waiting (R307). -/
def Launch.spanStart (l : Launch) (clock : Nat) : Launch :=
  { l with since := match l.since with | some c => some c | none => some clock }

/-- What dependence i reads: its event's value, or why it cannot be read: misaligned, or a fault. -/
def State.readDep (s : State) (l : Launch) (i : Nat) : Except AccFault Nat :=
  let va := fieldAt l.record (128 + 16 * i) 8
  if va % 8 != 0 then .error (.trap .misaligned)
  else
    match s.load l.who .load va 8 with
    | .ok r => .ok (leNat r.1)
    | .error (f, _) => .error f

/-- The value of a dependence, if it can be read. -/
def State.depValue (s : State) (l : Launch) (i : Nat) : Option Nat :=
  match s.readDep l i with
  | .ok v => some v
  | .error _ => none

/-- What a dependence that cannot be read does besides (R324). -/
def State.noteDep (s : State) (l : Launch) (i : Nat) : State :=
  match s.readDep l i with
  | .ok _ => s
  | .error f => s.noteTag f

/-- Its target. -/
def depTarget (r : List Byte) (i : Nat) : Nat := fieldAt r (136 + 16 * i) 8

/-- NT of a launch (R339, R313). -/
def Launch.teams' (l : Launch) : Word := BitVec.ofNat 32 (teamRange (levelsOf l.record) (fieldAt l.record 104 2))

/-- LAUNCH_READY (R306): a launch whose dependences are all met becomes ready; one with a dependence that cannot be read
is refused DEP_FAULT. -/
def execLaunchReady (x : BitVec 8) (s : State) : Out :=
  match s.slot x with
  | none => .next s
  | some l =>
    if l.phase != .deps then .next s
    else
      let ds := List.range (fieldAt l.record 85 1)
      if ds.any (fun i => (s.depValue l i).isNone) then
        .next ((ds.foldl (fun t i => t.noteDep l i) s).setSlot x (some { l with phase := .refused 0x10 l.teams' }))
      else if ds.all (fun i => decide (depTarget l.record i ≤ (s.depValue l i).getD 0)) then
        .next (s.setSlot x (some ({ l with phase := .ready }.spanStart s.clock)))
      else .next s

/-! ### Doorbell (R301) -/

/-- A write to LQTAIL (R301). -/
def LaunchQueue.ring (q : LaunchQueue) (v : DWord) : LaunchQueue :=
  let t := v.setWidth 16
  if 2 ^ q.logn' ≤ t.toNat then { q with err := true } else { q with tail := t }

/-- Whether a doorbell write of a queue counts: the queue is no TDI's, or the write is one that the TDI's IDE stream
carries (R323). -/
def State.mayRing (s : State) (q : Nat) : Bool :=
  match s.queueHolder q with
  | none => true
  | some w => s.trusts w

/-- LQTAIL_DOORBELL (R301). A queue that a TDI holds is a private page; a write that is not trusted is discarded and
counted (R323). No BAR0 access is accepted before READY (R335). -/
def execLqtailDoorbell (q : BitVec 6) (v : DWord) (s : State) : Out :=
  if s.boot != .ready then .next s
  else if !s.mayRing q.toNat then .next (s.onTdi 0 Tdi.violate)
  else .next { s with lq := s.lq.set q.toNat ((s.lq[q.toNat]'(q.isLt)).ring v) q.isLt }

/-! ### Completion (R313) -/

/-- Whether every task of a launch has ended and no group is left to place or restore (R313). -/
def Launch.ended (l : Launch) : Bool :=
  match l.phase with
  | .deps => false
  | .ready => false
  | .refused _ _ => true
  | .loaded => l.cursor.isNone && l.susp.isEmpty && l.teams.all (fun m => m.ended == m.size)

/-- Whether a launch completes: its tasks have ended, what they wrote elsewhere has been performed (R31), and the frame in
which a world's last task ended has closed (R328). -/
def State.finished (s : State) (l : Launch) : Bool :=
  l.ended && l.linger.all s.taskQuiet &&
    (match l.holdUntil with
     | some c => decide (c ≤ s.clock)
     | none => true)

/-- STATUS (R313). -/
def Launch.status (l : Launch) : Nat :=
  match l.phase with
  | .refused _ _ => 1
  | _ => if l.linkFailed then 3 else if l.traps = 0 then 0 else 2

/-- Bytes 0 to 55 of the completion record (R313). -/
def Launch.completion (l : Launch) : List Byte :=
  match l.phase with
  | .refused c n =>
    leBytes 4 1 ++ [c, 0, 0, 0] ++ leBytes 12 0 ++ leBytes 4 0xFFFFFFFF ++ leBytes 8 0 ++ leBytes 16 0
      ++ leBytes 4 n.toNat ++ leBytes 4 0
  | _ =>
    let f := l.first
    leBytes 4 l.status ++ leBytes 4 0 ++ leBytes 4 l.exited ++ leBytes 4 l.traps ++ leBytes 4 l.orphans
      ++ (match f with
          | some (n, c, v, st) =>
            leBytes 4 n.toNat ++ leBytes 8 c.toNat ++ leBytes 8 v.toNat ++ leBytes 8 st.toNat
          | none => leBytes 4 0xFFFFFFFF ++ leBytes 24 0)
      ++ leBytes 4 l.teams'.toNat ++ leBytes 4 0

/-- The bitmap of retired teams, one bit a team number (R313). -/
def Launch.bitmap (l : Launch) : List Byte :=
  (List.range ((l.teams'.toNat + 7) / 8)).map (fun i =>
    BitVec.ofNat 8 ((List.range 8).foldl (fun v j => v + (if l.retired.contains (8 * i + j) then 2 ^ j else 0)) 0))

/-- Why COMPLETION fails its translation or R63, for the record and for the event that are written there (R305). -/
def State.completionBar (s : State) (l : Launch) : Option AccFault :=
  match s.translate l.who (completionOf l.record) with
  | .error f => some f
  | .ok p =>
    match leafCheck l.who .store p, leafCheck l.who .atomic p with
    | .error f, _ => some f
    | .ok _, .error f => some f
    | .ok _, .ok _ => none

/-- The bitmap of a launch whose links failed is written (R313). -/
def State.writeBitmap (s : State) (l : Launch) : State :=
  if l.status = 3 then
    match s.store l.who (completionOf l.record + 64) l.bitmap with
    | .ok u => u
    | .error (f, _) => s.noteTag f
  else s

/-- The completion event is incremented (R313). -/
def State.bumpCompletion (s : State) (l : Launch) : State :=
  match s.access l.who .atomic (completionOf l.record + 56) 8 with
  | .ok ev => s.bumpEvent l.who ev (completionOf l.record + 56) 1
  | .error f => s.noteTag f

/-- The record, the bitmap and then the event are written (R313); when COMPLETION fails translation or R63, the launch is
dropped (R305). DEDUCED (log 41): on any other fault nothing more is written, and the launch leaves its slot. -/
def State.writeCompletion (s : State) (l : Launch) : State :=
  match s.completionBar l with
  | some f => (s.noteTag f).dropLaunch l.src
  | none =>
    match s.store l.who (completionOf l.record) l.completion with
    | .ok t => (t.writeBitmap l).bumpCompletion l
    | .error (f, _) => s.noteTag f

/-- A launch completes and leaves its slot (R306, R313). -/
def State.complete (s : State) (x : BitVec 8) (l : Launch) : State := (s.writeCompletion l).setSlot x none

/-- LAUNCH_COMPLETION (R313). -/
def execLaunchCompletion (x : BitVec 8) (s : State) : Out :=
  match s.slot x with
  | none => .next s
  | some l => if s.finished l then .next (s.complete x l) else .next s

end Sys2Proof.Machine
end

