-- ==== Sys2Proof/Machine/Container.lean ====
section
/-!
DEFINITION. The container loader (R116 to R122): the checks of R122 in their order, and residency.
-/

namespace Sys2Proof.Machine

/-- An entry of the section table (R117). -/
structure Section where
  ty  : Nat
  off : Nat
  len : Nat
  /-- A reserved byte is set. -/
  rsv : Bool
  deriving DecidableEq, Repr, Inhabited

/-- The section table of a container (R117). -/
def sectionsOf (b : List Byte) : List Section :=
  (List.range (fieldAt b 8 4)).map (fun i =>
    let o := fieldAt b 16 8 + 32 * i
    { ty := fieldAt b o 4, off := fieldAt b (o + 8) 8, len := fieldAt b (o + 16) 8,
      rsv := !zeroAt b (o + 4) 4 || !zeroAt b (o + 24) 8 })

/-- The section of a type. -/
def findSection (ss : List Section) (ty : Nat) : Option Section := ss.find? (fun x => x.ty == ty)

/-- Its bytes; none when there is no such section. -/
def sectionBytes (b : List Byte) (ss : List Section) (ty : Nat) : List Byte :=
  match findSection ss ty with
  | some x => (b.drop x.off).take x.len
  | none => []

/-- Check 2 of R122 (R116). -/
def headerOk (b : List Byte) : Bool :=
  b.take 4 == [0x5A, 0x56, 0x58, 0x31] && fieldAt b 4 2 == 1 && fieldAt b 6 2 == 64 && zeroAt b 12 4 && zeroAt b 28 4 &&
    zeroAt b 40 24 && decide (1 ≤ fieldAt b 8 4) && decide (fieldAt b 8 4 ≤ 9) && fieldAt b 16 8 % 8 == 0 &&
    decide (64 ≤ fieldAt b 16 8) && decide (fieldAt b 16 8 + 32 * fieldAt b 8 4 ≤ fieldAt b 32 8)

/-- Whether two ranges share a byte. -/
def rangesMeet (a n b m : Nat) : Bool := decide (a < b + m) && decide (b < a + n) && n != 0 && m != 0

/-- Sections that overlap no later one of a list. -/
def apartFrom : List Section → Bool
  | [] => true
  | x :: xs => xs.all (fun y => !rangesMeet x.off x.len y.off y.len) && apartFrom xs

/-- Check 3 of R122 (R117, R118). -/
def sectionsOk (b : List Byte) (ss : List Section) : Bool :=
  let so := fieldAt b 16 8
  let size := fieldAt b 32 8
  let has (ty : Nat) : Bool := (findSection ss ty).isSome
  ss.all (fun x => decide (1 ≤ x.ty) && decide (x.ty ≤ 9) && !x.rsv && x.off % 64 == 0 && decide (x.off + x.len ≤ size) &&
    !rangesMeet x.off x.len 0 64 && !rangesMeet x.off x.len so (32 * ss.length)) &&
  decide ((ss.map (fun x => x.ty)).Nodup) && apartFrom ss && has 1 &&
  (has 6 == (has 2 || has 3 || has 4)) &&
  (match findSection ss 6 with
   | some x => x.len == 3072
   | none => true)

/-- Bytes of the instruction memory that a code section fills (R117). -/
def codeLimit (ty : Nat) : Nat := if ty = 1 then 65536 else if ty = 3 then 131072 else 32768

/-- Check 4 of R122. -/
def codeSizesOk (ss : List Section) : Bool :=
  [1, 2, 3, 4].all (fun ty =>
    match findSection ss ty with
    | some x => x.len % 4 == 0 && decide (x.len ≤ codeLimit ty)
    | none => true)

/-- R22: a jump-table entry of an engine whose memory has n words. -/
def jumpEntryOk (n : Nat) (w : Word) : Bool := !flag w 31 || (fld w 16 15 == 0 && decide (fld w 0 16 < n))

/-- Check 6 of R122: entries in the order LDS, CMP, STS (R118). -/
def jumpTableOk (jt : List Word) : Bool :=
  (jt.take 256).all (jumpEntryOk 8192) && ((jt.drop 256).take 256).all (jumpEntryOk 32768) &&
    (jt.drop 512).all (jumpEntryOk 8192)

/-- The images of a generator section, n of them, back to back: their names, or none when one is malformed or the
section's length is not the sum of its parts (R119). -/
def imagesOk : Nat → List Byte → List (List Byte) → Bool
  | 0, b, _ => b.isEmpty
  | n + 1, b, names =>
    let words := fieldAt b 16 2
    decide (32 + 4 * words ≤ b.length) && imageHeaderOk (b.take 32) && !names.contains (b.take 16) &&
      imagesOk n (b.drop (32 + 4 * words)) (b.take 16 :: names)

/-- Check 7 of R122 (R119). -/
def genSectionOk (b : List Byte) : Bool :=
  decide (8 ≤ b.length) && zeroAt b 4 4 && decide (1 ≤ fieldAt b 0 4) && decide (fieldAt b 0 4 ≤ 256) &&
    imagesOk (min (fieldAt b 0 4) 256) (b.drop 8) []

/-- An entry of the synchronisation section (R120). -/
structure SyncEnt where
  kind : Nat
  id   : Nat
  rsv  : Bool
  val  : Nat
  deriving DecidableEq, Repr, Inhabited

/-- Its entries. -/
def syncEntries (b : List Byte) : List SyncEnt :=
  (List.range ((b.length - 8) / 8)).map (fun i =>
    let o := 8 + 8 * i
    { kind := fieldAt b o 1, id := fieldAt b (o + 1) 1, rsv := !zeroAt b (o + 2) 2, val := fieldAt b (o + 4) 4 })

/-- Numbers of items of a kind: FIFOs, semaphores, queues (R120). -/
def syncIds (kind : Nat) : Nat := if kind = 0 then 4 else if kind = 1 then 16 else 3

/-- Check 8 of R122 (R120). -/
def syncOk (b : List Byte) : Bool :=
  let es := syncEntries b
  decide (8 ≤ b.length) && zeroAt b 4 4 && b.length == 8 + 8 * fieldAt b 0 4 &&
    es.all (fun e => decide (e.kind ≤ 2) && decide (e.id < syncIds e.kind) && !e.rsv) &&
    decide ((es.map (fun (e : SyncEnt) => (e.kind, e.id))).Nodup)

/-- The token bits of an engine's word with the FIFO that each is toward (R26, R132, R137). -/
def tokenBits : Engine → List (Nat × Fifo)
  | .lds => [(25, .ctol), (23, .ltoc)]
  | .cmp => [(29, .ltoc), (28, .stoc), (27, .ctol), (26, .ctos)]
  | .sts => [(26, .ctos), (24, .stoc)]

/-- The semaphore that an instruction names by a constant field; FRAGSEL counts as naming 15 (R122). -/
def Instr.namesSem : Instr → Option Nat
  | .semadd _ b => some b.toNat
  | .semwait _ b => some b.toNat
  | .rflag _ _ b => some b.toNat
  | .mflag _ _ b => some b.toNat
  | .xferSemwait _ n _ => some n.toNat
  | .xferSemadd _ n _ => some n.toNat
  | .cmpSemwait _ n _ => some n.toNat
  | .cmpSemadd _ n _ => some n.toNat
  | .fragsel _ _ _ => some 15
  | _ => none

/-- Whether a word's semaphore, if it names one, is declared. -/
def semDeclared (f : Fetch) (es : List SyncEnt) (w : Word) : Bool :=
  match decodeWord f w with
  | .error _ => true
  | .ok i =>
    match Instr.namesSem i with
    | none => true
    | some n => es.any (fun e => e.kind == 1 && e.id == n)

/-- Whether every token bit of a word is toward a declared FIFO. -/
def tokensDeclared (e : Engine) (es : List SyncEnt) (w : Word) : Bool :=
  (tokenBits e).all (fun b => !flag w b.1 || es.any (fun x => x.kind == 0 && x.id == b.2.code))

/-- Check 10 of R122 on an engine's code. -/
def engCodeDeclared (e : Engine) (f : Fetch) (es : List SyncEnt) (ws : List Word) : Bool :=
  ws.all (fun w => tokensDeclared e es w && semDeclared f es w)

/-- Check 11 of R122, and QUEUE_DEPTH of R33: each queue declaration at most 32 plus the ring size. -/
def queuesOk (queues : List Nat) (ring : Nat) : Bool := queues.all (fun v => decide (v ≤ 32 + ring))

/-- Entries of a launch's spill rings (R19, R302). -/
def ringOf (rec_ : List Byte) : Nat := if fieldAt rec_ 86 1 = 0 then 0 else 2 ^ fieldAt rec_ 86 1

/-- Checks 2 to 10 of R122 on a container's bytes: the container, or the cause. -/
def checkContainer (va : DWord) (b : List Byte) : Except (BitVec 8) Container :=
  if !headerOk b then .error 0x07
  else
    let ss := sectionsOf b
    let code (ty : Nat) : List Word := wordsOf (sectionBytes b ss ty)
    let jt := wordsOf (sectionBytes b ss 6)
    let sync := sectionBytes b ss 7
    let es := if (findSection ss 7).isSome then syncEntries sync else []
    if !sectionsOk b ss then .error 0x08
    else if !codeSizesOk ss then .error 0x09
    else if (code 1).length ≤ fieldAt b 24 4 then .error 0x0C
    else if !jumpTableOk jt then .error 0x06
    else if (findSection ss 5).isSome && !genSectionOk (sectionBytes b ss 5) then .error 0x0A
    else if (findSection ss 7).isSome && !syncOk sync then .error 0x0B
    else if es.any (fun e => e.kind == 0 && decide (8 < e.val)) then .error 0x04
    else if !((code 1).all (semDeclared .ctl es) && engCodeDeclared .lds .lds es (code 2) &&
        engCodeDeclared .cmp .cmp es (code 3) && engCodeDeclared .sts .sts es (code 4)) then .error 0x03
    else
      .ok { va := va, entry := fieldAt b 24 4, ctl := code 1, lds := code 2, cmp := code 3, sts := code 4, jt := jt,
            queues := (es.filter (fun e => e.kind == 2)).map (fun (e : SyncEnt) => e.val) }

/-- Check 1 of R122: the header, and then the SIZE bytes it gives, each fetched as a container fetch (R63). DESIGN CHOICE
(log 72): the bytes of the data and symbols sections are fetched with the rest, though the loader heeds neither (R121). -/
def State.fetchContainer (s : State) (l : Launch) : Except AccFault (List Byte) :=
  let va := fieldAt l.record 0 8
  match s.load l.who .fetch va 64 with
  | .error (f, _) => .error f
  | .ok (h, _) =>
    match s.load l.who .fetch va (max 64 (fieldAt h 32 8)) with
    | .error (f, _) => .error f
    | .ok (b, _) => .ok b

/-- The container at a launch's address, when it is resident for the context. -/
def State.residentFor (s : State) (l : Launch) : Option Container :=
  (s.ctx l.ctx).resident.find? (fun c => c.va == BitVec.ofNat 64 (fieldAt l.record 0 8))

/-- What a fetch that fails does besides (R324). -/
def State.noteFetch (s : State) (l : Launch) : State :=
  match s.residentFor l, s.fetchContainer l with
  | none, .error f => s.noteTag f
  | _, _ => s

/-- The container of a launch: the resident one, or the one that is now fetched and checked (R122). DESIGN CHOICE (log 73):
a fetch that meets uncorrectable data, a tag that does not match or a home out of reach is refused CONTAINER_FETCH too. -/
def State.containerFor (s : State) (l : Launch) : Except (BitVec 8) Container :=
  let va := BitVec.ofNat 64 (fieldAt l.record 0 8)
  let found : Except (BitVec 8) Container :=
    match s.residentFor l with
    | some c => .ok c
    | none =>
      match s.fetchContainer l with
      | .error _ => .error 0x0D
      | .ok b => checkContainer va b
  match found with
  | .error c => .error c
  | .ok c => if queuesOk c.queues (ringOf l.record) then .ok c else .error 0x05

/-- A container that passed is resident for its context (R122). -/
def Ctx.addResident (c : Ctx) (k : Container) : Ctx :=
  if c.resident.any (fun r => r.va == k.va) then c else { c with resident := c.resident ++ [k] }

end Sys2Proof.Machine
end

