-- ==== Sys2Proof/Machine/Place.lean ====
section
/-!
DEFINITION. Placement (R16, R29, R30, R32, R308): where the next group of a launch goes, and the start of its tasks.
-/

namespace Sys2Proof.Machine

/-! ### Coordinates (R29, R30, R308) -/

/-- A launch's levels as placement uses them. -/
def Launch.lv (l : Launch) : List LevelEnt := plevels l.record

/-- DGCOUNT and this device's member index (R302); a child's MEMBER is ignored. -/
def Launch.dg (l : Launch) : Nat := fieldAt l.record 104 2
def Launch.member (l : Launch) : Nat := if isChild l.src then 0 else fieldAt l.record 106 2

/-- The BIND code of level k. -/
def Launch.bind (l : Launch) (k : Nat) : Nat := (lvAt l.lv k).bind

/-- What was resolved for the level-k group with the given coordinates at higher levels. -/
def Launch.resOf (l : Launch) (k : Nat) (path : List Nat) : Option GroupRes :=
  l.groups.find? (fun g => g.level == k && g.path == path)

/-- The extent of a level-k group: as resolved, as the package gives it, or as the table gives it. -/
def State.extOf (s : State) (l : Launch) (k : Nat) (path : List Nat) : Nat :=
  if 3 ≤ l.bind k then s.extIn l.lv l.dg k (3, 0)
  else
    match l.resOf k path with
    | some g => g.ext
    | none => (lvAt l.lv k).ext

/-- The coordinates that follow, from level k on, highest level most significant. -/
def State.nextFrom (s : State) (l : Launch) : Nat → List Nat → Option (List Nat)
  | _, [] => none
  | k, c :: rest =>
    if c + 1 < s.extOf l k rest then some ((c + 1) :: rest) else (s.nextFrom l (k + 1) rest).map (fun r => 0 :: r)

/-- The row-major number of a group from its coordinates at levels k and above (R30). -/
def State.groupNum (s : State) (l : Launch) : Nat → List Nat → Nat
  | _, [] => 0
  | k, c :: rest => c + s.extOf l k rest * s.groupNum l (k + 1) rest

/-- The lowest level with BIND 4 (R30). -/
def Launch.domLevel (l : Launch) : Option Nat := l.lv.findIdx? (fun e => e.bind == 4)

/-- The tasks of a team that this device places, by LVL1 (R30). -/
def State.tasksOf (s : State) (l : Launch) (ext : Nat) (cs : List Nat) : List Nat :=
  if l.domLevel = some 1 then (List.range ext).filter (fun j => s.groupNum l 1 (j :: cs) % l.dg == l.member)
  else List.range ext

/-- Whether any task of a team falls to this device. -/
def State.ours (s : State) (l : Launch) (cs : List Nat) : Bool :=
  match l.domLevel with
  | none => true
  | some 0 => true
  | some 1 => !(s.tasksOf l (s.extOf l 1 cs) cs).isEmpty
  | some k => s.groupNum l k (cs.drop (k - 2)) % l.dg == l.member

/-- The coordinates after a level-(k - 1) group, the lower ones zero. -/
def State.nextGroup (s : State) (l : Launch) (k : Nat) (cs : List Nat) : Option (List Nat) :=
  (s.nextFrom l k (cs.drop (k - 2))).map (fun r => List.replicate (k - 2) 0 ++ r)

/-- The first team from the given one on that has a task here; groups of other members are passed over whole. -/
def State.findOurs (s : State) (l : Launch) : Nat → List Nat → Option (List Nat)
  | 0, _ => none
  | fuel + 1, cs =>
    if s.ours l cs then some cs
    else
      match s.nextGroup l (max 2 (l.domLevel.getD 2)) cs with
      | none => none
      | some r => s.findOurs l fuel r

/-- DGCOUNT is at most 512, so at most this many groups in a row belong to other members. -/
def groupFuel : Nat := 1024

/-- The first team of a launch. -/
def State.firstTeam (s : State) (l : Launch) : Option (List Nat) :=
  s.findOurs l groupFuel (List.replicate (l.lv.length - 2) 0)

/-- The team after one, in ascending team number. -/
def State.nextTeam (s : State) (l : Launch) (cs : List Nat) : Option (List Nat) :=
  (s.nextGroup l 2 cs).bind (s.findOurs l groupFuel)

/-! ### Free cores -/

/-- The world to which a core now belongs; none while it is sealed (R326, R327). -/
def Core.worldNow (k : Core) : Option (BitVec 4) :=
  if k.sealed then none
  else
    match k.frame with
    | none => some 0
    | some e => some ((k.cycleTab[e]?).getD { }).world

/-- A present core that runs no task and whose die the Launch Controller reaches. -/
def State.isFree (s : State) (c : CoreId) : Bool :=
  s.present c && (s.core c).task.isNone && (s.core c).saving.isNone && s.linkUp (dieOf c) 4

/-- A free core on which a task of a world may be placed, unless it is reserved (R307, R308). -/
def State.freeFor (s : State) (w : BitVec 4) (barred : List CoreId) (c : CoreId) : Bool :=
  s.isFree c && (s.core c).worldNow == some w && !barred.contains c

/-- The sets of dies, those with the lower dies first. -/
def dieSets : List (List Nat) :=
  [[0, 1, 2, 3], [0, 1, 2], [0, 1, 3], [0, 1], [0, 2, 3], [0, 2], [0, 3], [0], [1, 2, 3], [1, 2], [1, 3], [1], [2, 3], [2], [3]]

/-- Whether no two dies of a set have lost the link between them, or one its link to the IOD. -/
def State.linked (s : State) (ds : List Nat) : Bool := ds.all (fun d => s.linkUp d 4 && ds.all (fun e => s.linkUp d e))

/-- A launch's world. -/
def Launch.world (l : Launch) : BitVec 4 := BitVec.ofNat 4 (fieldAt l.record 82 1)

/-- PRIO (R302). -/
def Launch.prio (l : Launch) : Nat := fieldAt l.record 81 1

/-- The sets of dies on which a team may stand: of a launch with a failed link, those whose links the team does not lose
(R314). DESIGN CHOICE (log 65): they are tried in the order of `dieSets`. -/
def State.dieSetsFor (s : State) (l : Launch) (u : Nat × Nat) : List (List Nat) :=
  if u.1 != 3 || !l.linkFailed then [[0, 1, 2, 3]] else dieSets.filter s.linked

/-- The free cores of a unit on some dies for a launch, lowest first. -/
def State.coresFor (s : State) (l : Launch) (barred : List CoreId) (u : Nat × Nat) (ds : List Nat) : List CoreId :=
  (unitCores u).filter (fun c => s.freeFor l.world barred c && ds.contains (dieOf c))

/-! ### Units (R308) -/

/-- The dies by their free present cores, most first, lowest number on a tie. -/
def State.dieOrder (s : State) : List Nat :=
  let n (d : Nat) : Nat := ((unitCores (2, d)).filter (fun c => s.isFree c)).length
  (List.range 33).reverse.flatMap (fun i => (List.range 4).filter (fun d => n d == i))

/-- The unit of BIND code b that contains a unit. -/
def unitAbove (b : Nat) (u : Nat × Nat) : Nat × Nat := (b, u.2 * unitSize u.1 / unitSize b)

/-- The units of BIND code b within a unit, in the order of R308. -/
def State.candUnits (s : State) (b : Nat) (within : Nat × Nat) : List (Nat × Nat) :=
  if 3 ≤ b then [(3, 0)]
  else if within.1 ≤ b then [within]
  else
    s.dieOrder.flatMap (fun d =>
      (allUnits b).filter (fun v =>
        v.2 * unitSize b / 32 == d && (within.1 == 3 || unitAbove within.1 v == within) && !(s.presentIn v).isEmpty))

/-- The unit that the levels above k have already fixed for a group. -/
def Launch.within (l : Launch) (k : Nat) (cs : List Nat) : Nat × Nat :=
  ((List.range (l.lv.length - 1 - k)).findSome? (fun i =>
    let j := k + 1 + i
    if 3 ≤ l.bind j then none else (l.resOf j (cs.drop (j - 1))).map (fun g => (l.bind j, g.unit)))).getD (3, 0)

/-- The unit of a group is chosen, and with it those of the groups around it; extents of 0 resolve (R29, R308). -/
def State.choose (s : State) (l : Launch) (k : Nat) (cs : List Nat) (u : Nat × Nat) : Launch :=
  (List.range (l.lv.length - k)).foldl (fun l i =>
    let j := k + i
    if 3 ≤ l.bind j || (l.resOf j (cs.drop (j - 1))).isSome then l
    else
      let v := unitAbove (l.bind j) u
      { l with groups := l.groups ++
          [{ level := j, path := cs.drop (j - 1), unit := v.2, ext := s.extIn l.lv l.dg j v }] }) l

/-! ### Starting a task (R16) -/

/-- The task that a launch gives a core (R16, R302, R339). -/
def Launch.task (l : Launch) (x : BitVec 8) (m : Team) (j : Nat) : Task :=
  { slot := x, taskid := BitVec.ofNat 32 (j + nextExt l.lv l.dg 1 * m.num), team := m.num, ctx := l.ctx, world := l.world,
    jtEmpty := BitVec.ofNat 8 (fieldAt l.record 84 1), spill := BitVec.ofNat 64 (fieldAt l.record 96 8),
    ringLog := fieldAt l.record 86 1, spqLog := fieldAt l.record 87 1, prio := l.prio,
    bufPres := (fieldAt l.record 83 1).testBit 0, desc := l.desc }

/-- CTL at task start (R16, R29). -/
def startCtl (args : DWord) (entry clock : Nat) (lvl ext : List Nat) : Ctl :=
  { s := (Vector.replicate 32 0).set 1 args, pc := entry, cycleBase := clock,
    lvl := Vector.ofFn (fun (i : Fin 8) => BitVec.ofNat 32 ((lvl[i.val]?).getD 0)),
    ext := Vector.ofFn (fun (i : Fin 8) => BitVec.ofNat 32 ((ext[i.val]?).getD 1)) }

/-- A core at the start of a task (R16); the typed buffers are zero for a task of a world (R325). -/
def Core.startTask (k : Core) (t : Task) (ctl : Ctl) (c : Container) : Core :=
  { task := some t, ctl := ctl,
    wbuf := if t.world = 0 then k.wbuf else [], abuf := if t.world = 0 then k.abuf else [],
    cbuf := if t.world = 0 then k.cbuf else [],
    imemCtl := Cells.run 0 0 c.ctl, imemLds := Cells.run 0 0 c.lds, imemCmp := Cells.run 0 0 c.cmp,
    imemSts := Cells.run 0 0 c.sts,
    jtLds := Cells.run 0 0 (c.jt.take 256), jtCmp := Cells.run 0 0 ((c.jt.drop 256).take 256),
    jtSts := Cells.run 0 0 (c.jt.drop 512),
    shadowQ := k.shadowQ, serving := k.serving, shadow := k.shadow, utlb := k.utlb,
    badSram := if t.world = 0 then k.badSram else [],
    frames := k.frames, cycleTab := k.cycleTab, frame := k.frame, frameAt := k.frameAt, sealed := k.sealed,
    stays := k.stays }

/-- A launch notes the task now placed on a core (R299). -/
def Launch.placedOn (l : Launch) (c : CoreId) (uid : Nat) : Launch :=
  { l with lastOn := l.lastOn.filter (fun p => p.1 != c) ++ [(c, uid)] }

/-- Task j of a team starts on core c. -/
def State.startTask (s : State) (l : Launch) (x : BitVec 8) (m : Team) (j : Nat) (c : CoreId) : State × Launch :=
  let exts := (List.range (l.lv.length - 1)).map (fun i => s.extOf l (i + 1) (m.coords.drop i))
  let ctl := startCtl (BitVec.ofNat 64 (fieldAt l.record 8 8)) (l.cont.getD default).entry s.clock (0 :: j :: m.coords) (1 :: exts)
  ({ s with nextUid := s.nextUid + 1 }.onCore c (fun k =>
    k.startTask { l.task x m j with uid := s.nextUid } ctl (l.cont.getD default)), l.placedOn c s.nextUid)

/-! ### Teams -/

/-- Tasks of a team go to cores as far as these last, in ascending TASKID (R308). -/
def State.fill (s : State) (l : Launch) (x : BitVec 8) (m : Team) (cores : List CoreId) : State × Launch :=
  let pairs := ((s.tasksOf l m.ext m.coords).drop m.next).zip cores
  let r := pairs.foldl (fun (r : State × Launch) (p : Nat × CoreId) => r.1.startTask r.2 x m p.1 p.2) (s, l)
  (r.1, { r.2 with teams := r.2.teams.map (fun (n : Team) => if n.num == m.num then { n with next := n.next + pairs.length } else n) })

/-- A team in a unit: whole when it is co-resident, else as many of its tasks as now fit, at least one (R308). -/
def State.placeIn (s : State) (l : Launch) (x : BitVec 8) (cs : List Nat) (u : Nat × Nat) (whole : Bool)
    (barred : List CoreId) : Option (State × Launch) :=
  let l := s.choose l 1 cs u
  let ext := s.extOf l 1 cs
  let size := (s.tasksOf l ext cs).length
  let need := if whole then size else min 1 size
  match (s.dieSetsFor l u).find? (fun ds => decide (need ≤ (s.coresFor l barred u ds).length)) with
  | none => none
  | some ds =>
    let cores := s.coresFor l barred u ds
    let m : Team := { num := teamNum l.lv l.dg 2 cs, coords := cs, ext := ext, unit := if u.1 = 3 then none else some u,
                      next := 0, size := size, ended := 0 }
    some (s.fill { l with teams := l.teams ++ [m] } x m cores)

/-- A team in the first unit that takes it, in the order of R308. -/
def State.placeTeam (s : State) (l : Launch) (x : BitVec 8) (cs : List Nat) (whole : Bool) (barred : List CoreId) :
    Option (State × Launch) :=
  (s.candUnits (l.bind 1) (l.within 1 cs)).findSome? (fun u => s.placeIn l x cs u whole barred)

/-- The outermost co-resident level; 0 when there is none above the task (R32). -/
def Launch.gangLevel (l : Launch) : Nat :=
  (List.range l.lv.length).foldl (fun g k => if (lvAt l.lv k).cores then k else g) 0

/-- The teams from the cursor on that belong to one co-resident group, each whole. -/
def State.placeRun (s : State) (l : Launch) (x : BitVec 8) (g : Nat) (path : List Nat) (barred : List CoreId) :
    Nat → Option (State × Launch)
  | 0 => none
  | fuel + 1 =>
    match l.cursor with
    | none => some (s, l)
    | some cs =>
      if cs.drop (g - 1) != path then some (s, l)
      else
        match s.placeTeam l x cs true barred with
        | none => none
        | some (t, m) => t.placeRun { m with cursor := t.nextTeam m cs } x g path barred fuel

/-- The group at the cursor in a unit of its BIND: a team, or an outermost co-resident group of several teams (R32,
R308). -/
def State.placeAt (s : State) (l : Launch) (x : BitVec 8) (cs : List Nat) (u : Nat × Nat) (barred : List CoreId) :
    Option (State × Launch) :=
  let g := l.gangLevel
  if g ≤ 1 then
    (s.placeIn l x cs u (g == 1) barred).map (fun (r : State × Launch) => (r.1, { r.2 with cursor := r.1.nextTeam r.2 cs }))
  else s.placeRun (s.choose l g cs u) x g (cs.drop (g - 1)) barred 300

/-- The level whose group is offered whole. -/
def Launch.anchor (l : Launch) : Nat := max 1 l.gangLevel

/-- The units at which the group at a cursor may be placed, in order. -/
def State.unitsFor (s : State) (l : Launch) (cs : List Nat) : List (Nat × Nat) :=
  s.candUnits (l.bind l.anchor) (l.within l.anchor cs)

/-- The next group never offered is placed, if it fits (R308). -/
def State.placeNext (s : State) (l : Launch) (x : BitVec 8) (barred : List CoreId) : Option (State × Launch) :=
  match l.cursor with
  | none => none
  | some cs => (s.unitsFor l cs).findSome? (fun u => s.placeAt l x cs u barred)

/-- The dies on which tasks of a team stand, or which a suspended one left. -/
def State.teamDies (s : State) (l : Launch) (x : BitVec 8) (m : Team) : List Nat :=
  (allCores.filter (fun c => match (s.core c).task with
    | some t => t.slot == x && t.team == m.num
    | none => false)).map dieOf ++ (l.susp.filter (fun u => u.core.theTask.team == m.num)).map (fun u => dieOf u.left)

/-- The free cores for the rest of a team partly placed. -/
def State.restCores (s : State) (l : Launch) (x : BitVec 8) (m : Team) (barred : List CoreId) : List CoreId :=
  let u := m.unit.getD (3, 0)
  let on := s.teamDies l x m
  (((s.dieSetsFor l u).find? (fun ds =>
    on.all ds.contains && !(s.coresFor l barred u ds).isEmpty)).map (s.coresFor l barred u)).getD []

/-- A team that has tasks yet to be placed. -/
def Launch.partial? (l : Launch) : Option Team := l.teams.find? (fun m => decide (m.next < m.size))

end Sys2Proof.Machine
end

