-- ==== Sys2Proof/Machine/Sched.lean ====
section
/-!
DEFINITION. Selection, aging and reservation (R307), pre-emption with the save of a task's state (R309), and restore
(R310).
-/

namespace Sys2Proof.Machine

/-! ### Save areas (R302, R309) -/

/-- The address of a task's save area (R302). -/
def Task.saveArea (t : Task) (n : Nat) : Nat :=
  t.spill.toNat + t.spqBytes + n * (3 * t.ringSize * 64) + t.taskid.toNat * saveBytes t.bufPres

/-- N of the launch in a slot (R339). -/
def State.taskN (s : State) (x : BitVec 8) : Nat :=
  match s.slot x with
  | some l => taskRange (levelsOf l.record) l.dg
  | none => 0

/-- The state megabyte: its layout is the device's own, so its bytes are free values (R309, log 12). -/
def megabyte (num : Nat) : List Byte := (List.range (2 ^ 20)).map (Config.freeByte num)

/-- The bytes that a save writes: the state, the C-buffer and, when buffers are preserved, the W- and A-buffers. -/
def Suspended.image (u : Suspended) : List Byte :=
  megabyte u.num ++ u.core.bufBytes .cbuf 0 (2 ^ 21) ++
    (if u.core.theTask.bufPres && !u.sealed then u.core.bufBytes .wbuf 0 (2 ^ 22) ++ u.core.bufBytes .abuf 0 (2 ^ 21) else [])

/-- The source of save-area accesses. -/
def Task.saveWho (t : Task) (c : CoreId) : Who :=
  { die := dieOf c, core := some c, ctx := t.ctx, world := t.world, hyp := 0, desc := t.desc }

/-- Whether a suspended entry is that of a task. -/
def Suspended.isOf (u : Suspended) (taskid : Word) : Bool := u.core.theTask.taskid == taskid

/-- TSTAT of a suspended task that ends: no engine's word, INH as it stands. -/
def Suspended.stat (u : Suspended) : DWord := ({ inh := u.core.ctl.tstat.inh } : TStat).pack

/-- A launch without one of its suspended tasks. -/
def Launch.dropSusp (l : Launch) (u : Suspended) : Launch :=
  { l with susp := l.susp.filter (fun w => !w.isOf u.core.theTask.taskid) }

/-- Suspended tasks by TASKID. -/
def byTaskid (us : List Suspended) : List Suspended :=
  us.insertionSort (fun a b => a.core.theTask.taskid.toNat ≤ b.core.theTask.taskid.toNat)

/-- The tasks of a launch that wait for restore, pre-empted and not sealed. -/
def Launch.waiting (l : Launch) : List Suspended := byTaskid (l.susp.filter (fun u => !u.sealed))

/-- Whether a launch holds a group that is not running (R307). -/
def Launch.wants (l : Launch) : Bool :=
  l.phase == .loaded && (!l.waiting.isEmpty || l.partial?.isSome || l.cursor.isSome)

/-- A launch none of whose groups waits to be placed or restored no longer waits, and its effective priority returns to PRIO (R307). -/
def Launch.settleWait (l : Launch) (clock : Nat) : Launch :=
  if l.wants then l.spanStart clock else { l with waited := 0, since := none, eff := l.prio, resv := none }

/-- The launch counts a suspended task that ended: in the frame of core k, if it is one of its world's (R313, R328). What
it wrote elsewhere may still be under way (R31), and the launch's waiting may be over (R307). -/
def State.endSusp (s : State) (l : Launch) (k : Core) (u : Suspended) (how : TaskEnd) : Launch :=
  let l := ((l.dropSusp u).endOf k u.core.theTask how).settleWait s.clock
  if s.taskQuiet u.core.theTask.uid then l else { l with linger := l.linger ++ [u.core.theTask.uid] }

/-- A suspended task ends (R277, R309, R310). -/
def State.endSuspended (s : State) (x : BitVec 8) (k : Core) (u : Suspended) (how : TaskEnd) : State :=
  let s := s.dropReads u.core.theTask.uid
  let s := if how = .orphaned then s.dropOps u.core.theTask.uid else s
  s.onSlot x (fun l => s.endSusp l k u how)

/-- A suspended task ends TRAPPED. -/
def State.trapSuspended (s : State) (x : BitVec 8) (k : Core) (u : Suspended) (c : Cause) (v : DWord) : State :=
  s.endSuspended x k u (.trapped c.code v u.stat)

/-! ### The save (R309) -/

/-- A task leaves its core at its stop points and becomes suspended, not yet saved: its windows are written back and removed (R51), CYCLE
stops (R140), faults with the shadow control context wait for it (R311, R327), and pre-emption ends WFE's halt (R162). -/
def State.suspend (s : State) (c : CoreId) (sealed : Bool) : State :=
  match (s.core c).task with
  | none => s
  | some t =>
    let (num, s) := (s.toStop c).drawFree
    let wins := s.windows.filter (fun w => w.core == c)
    let s := s.unmapAll c
    let k := if sealed then s.core c else (s.core c).wake
    let own (r : ShadowReq) : Bool := !r.who.ofDevice
    let kept := { k with
      ctl := { k.ctl with cycleSaved := k.ctl.cycleSaved + (s.clock - k.ctl.cycleBase), cycleBase := s.clock },
      shadowQ := (match k.serving with | some r => [r.1] | none => []).filter own ++ k.shadowQ.filter own,
      serving := none, victim := false }
    let u : Suspended := { core := kept, left := c, num := num, saved := false, sealed := sealed, wins := wins }
    let s := s.onSlot t.slot (fun l => { l with susp := l.susp ++ [u] })
    s.onCore c (fun k => { k.vacate with saving := some (t.slot, t.taskid) })

/-- The suspended task whose save a core is making. -/
def State.savingOf (s : State) (c : CoreId) : Option (BitVec 8 × Suspended) :=
  match (s.core c).saving with
  | none => none
  | some (x, tid) =>
    match s.slot x with
    | none => none
    | some l => (l.susp.find? (fun u => u.isOf tid)).map (fun u => (x, u))

/-- The save of a core's last task has ended. -/
def State.endSaving (s : State) (c : CoreId) : State := s.onCore c (fun k => { k with saving := none })

/-- A save that cannot be made: the task ends TRAPPED with ECC_UNCORR (R309). -/
def State.failSave (s : State) (c : CoreId) (v : DWord) : State :=
  match s.savingOf c with
  | none => s.endSaving c
  | some (x, u) => (s.trapSuspended x (s.core c) u .eccUncorr v).endSaving c

/-- The save area is written; a V = 0 fault goes to the shadow control context (R309, R311). -/
def State.trySave (s : State) (c : CoreId) : State :=
  match s.savingOf c with
  | none => s.endSaving c
  | some (x, u) =>
    let t := u.core.theTask
    match s.store (t.saveWho c) (t.saveArea (s.taskN x)) u.image with
    | .ok r =>
      (r.onSlot x (fun l =>
        { l with susp := l.susp.map (fun (w : Suspended) => if w.isOf t.taskid then { w with saved := true } else w) })).endSaving c
    | .error (.shadow ats, va) =>
      if s.shlim = 0 then s.failSave c (BitVec.ofNat 64 va)
      else s.onCore c (fun k => k.offer { who := .save, va := BitVec.ofNat 64 va, ats := ats, arr := s.clock })
    | .error (.tag w, va) => (s.tagError w).failSave c (BitVec.ofNat 64 va)
    | .error (.trap _, va) => s.failSave c (BitVec.ofNat 64 va)

/-- TASK_SAVE (R309, R163, R180, R233): a victim at its stop points is saved. Between two steps of the model LDS, STS and
CMP stand at a word boundary, copies at a unit, walks at a transfer and matrix words at a granule or element; a clock
hold, and an access of CTL that another unit is performing, delay the stop. -/
def execTaskSave (c : CoreId) (s : State) : Out :=
  let k := s.core c
  if k.victim && k.task.isSome && !k.hold && k.ctl.wait != .message then
    let x := k.theTask.slot
    .next (((s.suspend c false).trySave c).onSlot x (fun l => l.spanStart s.clock))
  else .next s

/-! ### Co-resident groups of tasks (R32) -/

/-- The coordinates of a task's outermost co-resident group; none when it may be moved alone. -/
def Launch.gangOf (l : Launch) (t : Task) : Option (List Nat) :=
  if l.gangLevel = 0 then none
  else (l.teams.find? (fun m => m.num == t.team)).map (fun m => m.coords.drop (l.gangLevel - 1))

/-- Whether two tasks of a launch are one task, or belong to one co-resident group. -/
def Launch.together (l : Launch) (t u : Task) : Bool :=
  t.taskid == u.taskid || ((l.gangOf t).isSome && l.gangOf t == l.gangOf u)

/-! ### Restore (R310) -/

/-- A core with a task restored: its saved registers and steps, the buffers as R48 gives them. -/
def Core.resume (k r : Core) (clock : Nat) (keep : Bool) (bytes : List Byte) : Core :=
  let part (lo n : Nat) : List Byte := (bytes.drop lo).take n
  { r with
    ctl := { r.ctl with cycleBase := clock }, holdAt := clock,
    cbuf := cbufPut (2 ^ 21 + 1) [] 0 (part (2 ^ 20) (2 ^ 21)),
    wbuf := if keep then Cells.run 0 0 (part (3 * 2 ^ 20) (2 ^ 22)) else [],
    abuf := if keep then Cells.run 0 0 (part (7 * 2 ^ 20) (2 ^ 21)) else [],
    wEmpty := if keep then r.wEmpty else [], aEmpty := if keep then r.aEmpty else [],
    badSram := r.badSram.filter (fun p => keep || p.1 == .cbuf),
    shadowQ := r.shadowQ.foldl (fun q f => insertReq f q) k.shadowQ, serving := k.serving, saving := none, victim := false,
    shadow := { k.shadow with csrs := r.shadow.csrs }, utlb := k.utlb,
    frames := k.frames, cycleTab := k.cycleTab, frame := k.frame, frameAt := k.frameAt, sealed := k.sealed,
    stays := k.stays }

/-- A window is registered again on the core that now holds its task; where buffers are not preserved its units are
reloaded from their backing memory (R51). DESIGN CHOICE (log 61): a window on the C-buffer keeps the saved accumulators
(R48). -/
def State.rewindow (s : State) (c : CoreId) (keep : Bool) (w : Window) : State :=
  let load (t : State) (i : Nat) : State :=
    t.onCore c (fun k => k.putBuf w.buf (w.off + i * 2 ^ 16) (s.physRun ((w.pas[i]?).getD 0) (2 ^ 16)))
  let s := if keep || w.buf == .cbuf then s else (List.range w.pas.length).foldl load s
  { s with windows := s.windows ++ [{ w with core := c }] }

/-- Addresses of memory that a drain has converted bytes for, as the returning task's translations now give them; those of
a page that is gone come to nothing (log 28). -/
def State.releaf (s : State) (who : Who) (m : MWord) : MWord :=
  { m with pend := m.pend.filterMap (fun p =>
      match p.leaf with
      | none => some p
      | some _ =>
        match s.translate who p.a with
        | .ok l => some { p with leaf := some l }
        | .error _ => none) }

/-- A suspended task returns to a core (R310): the save area is read, its state checked, and the task resumes with the
descriptor that its launch captured (R303); a check failure ends it TRAPPED. -/
def State.restoreTask (s : State) (l : Launch) (u : Suspended) (c : CoreId) : State × Launch :=
  let t := u.core.theTask
  let keep := t.bufPres && !u.sealed
  let bad (s : State) (v : DWord) : State × Launch :=
    (s.dropReads t.uid, s.endSusp l (s.core c) u (.trapped (Cause.code .eccUncorr) v u.stat))
  let n := taskRange (levelsOf l.record) l.dg
  match s.load (t.saveWho c) .load (t.saveArea n) (saveBytes keep) with
  | .error (f, va) => bad (s.noteTag f) (BitVec.ofNat 64 va)
  | .ok (bytes, s') =>
    if bytes.take (2 ^ 20) != megabyte u.num then bad s' 0
    else
      let s' := s'.onCore c (fun k => k.resume u.core s.clock keep bytes)
      let s' := s'.onCore c (fun k => k.onCmp (fun q => { q with mq := q.mq.map (fun m => s'.releaf (s'.whoOf c m.hyp) m) }))
      (u.wins.foldl (fun r w => r.rewindow c keep w) s', (l.dropSusp u).placedOn c t.uid)

/-- The lowest free cores of each task's own die, in order, no core twice. -/
def ownDies (free : List CoreId) : List Suspended → Option (List CoreId)
  | [] => some []
  | u :: us =>
    match free.find? (fun c => dieOf c == dieOf u.left) with
    | none => none
    | some c => (ownDies (free.filter (fun d => d != c)) us).map (fun r => c :: r)

/-- Where a group of suspended tasks returns to (R310). -/
def State.restoreCores (s : State) (l : Launch) (us : List Suspended) (barred : List CoreId) : Option (List CoreId) :=
  let b := l.bind l.gangLevel
  match us with
  | [] => none
  | u :: _ =>
    if l.gangLevel = 0 || 3 ≤ b then ownDies (allCores.filter (fun c => s.freeFor l.world barred c)) us
    else
      ((allUnits b).filter (fun v => v.2 * unitSize b / 32 == dieOf u.left)).findSome? (fun v =>
        let free := (unitCores v).filter (fun c => s.freeFor l.world barred c)
        if us.length ≤ free.length then some (free.take us.length) else none)

/-- Whether a member of a task's co-resident group still stands on a core, to be pre-empted with it (R32, R309). -/
def State.leavesLater (s : State) (l : Launch) (x : BitVec 8) (t : Task) : Bool :=
  s.cores.any (fun k => k.victim && (match k.task with
    | some u => u.slot == x && l.together t u
    | none => false))

/-- The next suspended group returns, whole, if it fits: once every member has left its core and is saved (R310). -/
def State.restoreNext (s : State) (l : Launch) (x : BitVec 8) (barred : List CoreId) : Option (State × Launch) :=
  match l.waiting with
  | [] => none
  | u :: us =>
    let grp := (u :: us).filter (fun w => l.together u.core.theTask w.core.theTask)
    if grp.any (fun w => !w.saved) || s.leavesLater l x u.core.theTask then none
    else
      match s.restoreCores l grp barred with
      | none => none
      | some cores => some ((grp.zip cores).foldl (fun (r : State × Launch) p => r.1.restoreTask r.2 p.1 p.2) (s, l))

/-! ### Offering cores to a launch (R307, R308, R310) -/

/-- One group of a launch is offered the free cores: suspended groups first, then the team partly placed, then the next
team or co-resident group. With the new state, whether all of it is now placed. -/
def State.offerOne (s : State) (l : Launch) (x : BitVec 8) (barred : List CoreId) : Option (State × Launch × Bool) :=
  if !l.waiting.isEmpty then (s.restoreNext l x barred).map (fun (r : State × Launch) => (r.1, r.2, true))
  else
    match l.partial? with
    | some m =>
      let cores := s.restCores l x m barred
      if cores.isEmpty then none
      else
        let r := s.fill l x m cores
        some (r.1, r.2, r.2.partial?.isNone)
    | none => (s.placeNext l x barred).map (fun (r : State × Launch) => (r.1, r.2, r.2.partial?.isNone))

/-- Groups are offered in turn until one does not fit whole (R307): whether any was placed. -/
def State.offerAll (s : State) (l : Launch) (x : BitVec 8) (barred : List CoreId) (served : Bool) :
    Nat → State × Launch × Bool
  | 0 => (s, l, served)
  | fuel + 1 =>
    if !l.wants then (s, l, served)
    else
      match s.offerOne l x barred with
      | none => (s, l, served)
      | some (t, m, true) => t.offerAll m x barred true fuel
      | some (t, m, false) => (t, m, true)

/-! ### Pre-emption (R309) -/

/-- The state with a core's task gone, for asking what would then fit. -/
def State.without (s : State) (cs : List CoreId) : State :=
  cs.foldl (fun t c => t.onCore c (fun k => { k with task := none, saving := none })) s

/-- Cores whose tasks already are to be pre-empted, or are being saved. -/
def State.leaving (s : State) : List CoreId := allCores.filter (fun c => (s.core c).victim || (s.core c).saving.isSome)

/-- Whether the next group of a launch fits whole. -/
def State.nextFits (s : State) (l : Launch) (x : BitVec 8) (barred : List CoreId) : Bool :=
  match s.offerOne l x barred with
  | some (_, _, whole) => whole
  | none => false

/-- PRIO and age of the launch of a core's task. -/
def State.evictRank (s : State) (c : CoreId) : Nat × Nat :=
  match s.slot (s.core c).theTask.slot with
  | some l => (l.prio, l.age)
  | none => (8, 0)

/-- The order in which victims are chosen: lowest PRIO, youngest launch, highest core number. -/
def State.victimLe (s : State) (a b : CoreId) : Bool :=
  let p := s.evictRank a
  let q := s.evictRank b
  decide (p.1 < q.1) || (p.1 == q.1 && (decide (q.2 < p.2) || (p.2 == q.2 && decide (b.toNat ≤ a.toNat))))

/-- Cores whose tasks a launch may pre-empt: of launches with a lower PRIO, in frames of its world (R309, R327). -/
def State.victims (s : State) (l : Launch) : List CoreId :=
  (allCores.filter (fun c =>
    (s.core c).task.isSome && !(s.core c).victim && (s.core c).worldNow == some l.world && decide ((s.evictRank c).1 < l.prio))).insertionSort
    (fun a b => s.victimLe a b = true)

/-- The cores on which a task runs, or another of its co-resident group (R32). -/
def State.mates (s : State) (t : Task) : List CoreId :=
  allCores.filter (fun d =>
    match (s.core d).task, s.slot t.slot with
    | some u, some l => u.slot == t.slot && l.together t u
    | some u, none => u.uid == t.uid
    | none, _ => false)

/-- The cores that hold the co-resident group of a core's task (R32). -/
def State.gangCores (s : State) (c : CoreId) : List CoreId := s.mates (s.core c).theTask

/-- The task of a core: running there, or on its way to its save area (R309). -/
def State.taskAt (s : State) (c : CoreId) : Option Task :=
  ((s.core c).task).orElse (fun _ => (s.savingOf c).map (fun p => p.2.core.theTask))

/-- Victims are added in order until the group fits; none when it does not fit with all of them gone. -/
def State.growVictims (s : State) (l : Launch) (x : BitVec 8) (barred : List CoreId) :
    List CoreId → List (List CoreId) → Option (List (List CoreId))
  | [], gs => if (s.without (s.leaving ++ gs.flatten)).nextFits l x barred then some gs else none
  | c :: cs, gs =>
    if (s.without (s.leaving ++ gs.flatten)).nextFits l x barred then some gs
    else if gs.flatten.contains c then s.growVictims l x barred cs gs
    else s.growVictims l x barred cs (gs ++ [s.gangCores c])

/-- Groups that are not needed are spared, the last chosen first: no more tasks are chosen than the group needs. -/
def State.spare (s : State) (l : Launch) (x : BitVec 8) (barred : List CoreId) : List (List CoreId) → List (List CoreId) → List (List CoreId)
  | [], kept => kept
  | g :: gs, kept =>
    if (s.without (s.leaving ++ (gs ++ kept).flatten)).nextFits l x barred then s.spare l x barred gs kept
    else s.spare l x barred gs (g :: kept)

/-- The cores to be taken for a launch whose next group does not fit (R309). -/
def State.chooseVictims (s : State) (l : Launch) (x : BitVec 8) (barred : List CoreId) : List CoreId :=
  match s.growVictims l x barred (s.victims l) [] with
  | none => []
  | some gs => (s.spare l x barred gs.reverse []).flatten

/-- Those cores are told to stop. -/
def State.markVictims (s : State) (cs : List CoreId) : State :=
  cs.foldl (fun t c => t.onCore c (fun k => { k with victim := true })) s

/-! ### Groups without their links (R314) -/

/-- A core as it stands free for a task of a world. -/
def Core.openTo (k : Core) (w : BitVec 4) : Core :=
  { k with
    task := none, saving := none, sealed := false, frame := if w = 0 then none else some 0,
    cycleTab := k.cycleTab.set 0 { v := true, world := w, len := 0 } }

/-- Every core free for a world, and the dies of a warm reset back with their links trained (R315). -/
def State.allOpen (s : State) (w : BitVec 4) : State :=
  { s with
    cores := s.cores.map (fun (k : Core) => k.openTo w), diesOut := [],
    downLinks := s.downLinks.filter (fun p => !s.diesOut.contains p.1 && !s.diesOut.contains p.2) }

/-- Whether the group at a cursor could still be placed, once cores are free (R314). -/
def State.hopeful (s : State) (l : Launch) (x : BitVec 8) : Bool := ((s.allOpen l.world).placeNext l x []).isSome

/-- Groups that can no longer be placed are given up (R314), at most `fuel` of them. -/
def State.giveUp (s : State) (x : BitVec 8) : Nat → Launch → Launch
  | 0, l => l
  | fuel + 1, l =>
    match l.cursor with
    | none => l
    | some cs =>
      if s.hopeful l x then l else s.giveUp x fuel { l with cursor := s.nextGroup l (l.anchor + 1) cs }

/-- Groups given up at one time; those left follow at the next selection. -/
def giveUpAtOnce : Nat := 4096

/-- What a launch with a failed link still places: the rest of a team that met the failure is not placed, and groups whose
links are gone are given up (R314). -/
def State.settleLink (s : State) (x : BitVec 8) : State :=
  match s.slot x with
  | none => s
  | some l =>
    if !l.linkFailed || l.phase != .loaded then s
    else
      let l := { l with teams := l.teams.map (fun (m : Team) => if m.broken then { m with size := m.next } else m) }
      s.setSlot x (some ((s.giveUp x giveUpAtOnce l).settleWait s.clock))

/-- All launch slots. -/
def allSlots : List (BitVec 8) := (List.range 256).map (BitVec.ofNat 8)

/-- Every launch with a failed link. -/
def State.settleLinks (s : State) : State := allSlots.foldl (fun t x => t.settleLink x) s

/-! ### Selection (R307) -/

/-- The unit on which an aged launch reserves cores: the one its group has, or the first in the order of R308 that could
hold it with every core free. -/
def State.reserveUnit (s : State) (l : Launch) (x : BitVec 8) : Nat × Nat :=
  match l.waiting with
  | u :: _ => (2, dieOf u.left)
  | [] =>
    match l.partial? with
    | some m => m.unit.getD (3, 0)
    | none =>
      match l.cursor with
      | none => (3, 0)
      | some cs =>
        let units := s.unitsFor l cs
        let empty := s.without allCores
        ((units.find? (fun u => (empty.placeAt l x cs u []).isSome)).orElse (fun _ => units.head?)).getD (3, 0)

/-- The launches of a pass that are still to be offered cores: slot and launch. -/
def State.candidates (s : State) (done : List (BitVec 8)) : List (BitVec 8 × Launch) :=
  ((List.range 256).map (BitVec.ofNat 8)).filterMap (fun x =>
    match s.slot x with
    | some l => if l.wants && !done.contains x then some (x, l) else none
    | none => none)

/-- The oldest of a list of launches. -/
def oldest (ls : List (BitVec 8 × Launch)) : Option (BitVec 8 × Launch) :=
  ls.find? (fun p => ls.all (fun q => decide (p.2.age ≤ q.2.age)))

/-- The launch taken next (R307): highest effective priority, sources in turn, the oldest within one. -/
def State.takeNext (s : State) (done : List (BitVec 8)) : Option (BitVec 8 × Launch) :=
  let cs := s.candidates done
  let top := cs.filter (fun p => cs.all (fun q => decide (q.2.eff ≤ p.2.eff)))
  (srcOrder s.selPtr).findSome? (fun i => oldest (top.filter (fun p => p.2.src == i)))

/-- A reservation: cores of a unit, kept from launches of an effective priority below `eff`. -/
structure Resv where
  unit : Nat × Nat
  eff  : Nat
  deriving DecidableEq, Repr, Inhabited

/-- The cores that reservations keep from a launch (R307). -/
def barredFor (rs : List Resv) (eff : Nat) : List CoreId :=
  (rs.filter (fun r => decide (eff < r.eff))).flatMap (fun r => unitCores r.unit)

/-- One launch's turn in a pass: its groups are offered, victims are chosen for the group that does not fit, and an aged
launch reserves. -/
def State.serve (s : State) (x : BitVec 8) (l : Launch) (rs : List Resv) : State × List Resv :=
  let barred := barredFor rs l.eff
  let (t, m, served) := s.offerAll l x barred false 600
  let t := if served then { t with selPtr := l.src } else t
  let m := if served then { m with resv := none } else m
  if m.wants then
    let victims := t.chooseVictims m x barred
    let unit := m.resv.getD (t.reserveUnit m x)
    let aged := decide (m.prio < m.eff)
    let m := { m with resv := if aged then some unit else none }
    ((t.setSlot x (some (m.settleWait s.clock))).markVictims victims,
      if aged then rs ++ [{ unit := unit, eff := m.eff }] else rs)
  else (t.setSlot x (some (m.settleWait s.clock)), rs)

/-- A pass over the ready launches (R307). -/
def State.selectPass (s : State) (done : List (BitVec 8)) (rs : List Resv) : Nat → State
  | 0 => s
  | fuel + 1 =>
    match s.takeNext done with
    | none => s
    | some (x, l) =>
      let r := s.serve x l rs
      r.1.selectPass (x :: done) r.2 fuel

/-- LAUNCH_SELECTION (R307 to R310): what has lost its links is given up first (R314). -/
def execLaunchSelection (s : State) : Out := .next (s.settleLinks.selectPass [] [] 256)

/-! ### Container and aging -/

/-- CONTAINER_LOAD (R122, R305 check 6): a ready launch's container is fetched and checked, or was resident; its teams
may then be placed. -/
def execContainerLoad (x : BitVec 8) (s : State) : Out :=
  match s.slot x with
  | none => .next s
  | some l =>
    if l.phase != .ready then .next s
    else
      match s.containerFor l with
      | .error c => .next ((s.noteFetch l).setSlot x (some { l with phase := .refused c l.teams' }))
      | .ok k =>
        let s := s.onCtx l.ctx (fun c => c.addResident k)
        .next (s.setSlot x (some { l with phase := .loaded, cont := some k, cursor := s.firstTeam l }))

/-- Clocks of 10 ms (R10, R307). -/
def agingClocks : Nat := 18000000

/-- PRIORITY_AGING (R307): each complete 10 ms of waiting adds 1 to the effective priority, up to 7. -/
def execPriorityAging (x : BitVec 8) (s : State) : Out :=
  match s.slot x with
  | none => .next s
  | some l =>
    match l.since with
    | none => .next s
    | some c =>
      if l.wants && l.eff < 7 && agingClocks * (l.eff + 1 - l.prio) ≤ l.waited + (s.clock - c) then
        .next (s.setSlot x (some { l with eff := l.eff + 1 }))
      else .next s

end Sys2Proof.Machine
end

