-- ==== Sys2Proof/Machine/World.lean ====
section
/-!
DEFINITION. Worlds on the cores: the end of a world's work when its TDI stops or fails (R319), and frames with their
seals (R325 to R328).
-/

namespace Sys2Proof.Machine

/-! ### The end of a world's work (R319) -/

/-- TSTAT of a task that is ended from outside: no engine's word, INH as it stands. -/
def Core.outsideStat (k : Core) : DWord := ({ inh := k.ctl.tstat.inh } : TStat).pack

/-- A core's task ends TRAPPED from outside. -/
def State.killTask (s : State) (c : CoreId) (cause : Cause) (v : DWord) : State :=
  s.endTask c (.trapped cause.code v (s.core c).outsideStat)

/-- A save that a core is making is given up. -/
def Core.dropSave (k : Core) : Core :=
  { k with saving := none, shadowQ := k.shadowQ.filter (fun r => r.who != .save),
           serving := k.serving.filter (fun r => r.1.who != .save) }

/-- Every suspended task of the launch in a slot ends TRAPPED. -/
def State.killSuspended (s : State) (x : BitVec 8) (cause : Cause) (v : DWord) (which : Suspended → Bool) : State :=
  match s.slot x with
  | none => s
  | some l =>
    let gone := l.susp.filter which
    let s := gone.foldl (fun t u => t.trapSuspended x (t.core u.left) u cause v) s
    { s with cores := s.cores.map (fun (k : Core) =>
        match k.saving with
        | some (y, tid) => if y == x && gone.any (fun u => u.isOf tid) then k.dropSave else k
        | none => k) }

/-- The task whose save a core is making ends TRAPPED. -/
def State.killSave (s : State) (c : CoreId) (cause : Cause) (v : DWord) : State :=
  match (s.core c).saving with
  | none => s
  | some (x, tid) => s.killSuspended x cause v (fun u => u.isOf tid)

/-- Tasks of a world end TRAPPED with WORLD_VIOLATION and TVAL 0 (R319). -/
def State.killWorldTasks (s : State) (w : BitVec 4) : State :=
  let s := allCores.foldl (fun t c =>
    match (t.core c).task with
    | some k => if k.world == w then t.killTask c .worldViolation 0 else t
    | none => t) s
  allSlots.foldl (fun t x =>
    match t.slot x with
    | some l => if l.world == w then t.killSuspended x .worldViolation 0 (fun _ => true) else t
    | none => t) s

/-- Whether a launch has started no task. -/
def Launch.unstarted (l : Launch) : Bool := l.teams.isEmpty

/-- A world's launch as it completes when its TDI stops: REFUSED with WORLD_STATE when none of its tasks has started, else
with what its tasks came to (R319). -/
def Launch.stopped (l : Launch) : Launch :=
  match l.phase with
  | .refused _ _ => l
  | .deps => { l with phase := .refused 0x11 l.teams' }
  | .ready => { l with phase := .refused 0x11 l.teams' }
  | .loaded =>
    if l.unstarted then { l with phase := .refused 0x11 l.teams' }
    else
      { l with cursor := none,
               teams := l.teams.map (fun (m : Team) => if m.next < m.size then { m with size := m.next, broken := true } else m) }

/-- A launch of a stopped world completes: at once, or at the end of the frame in which its last task ended (R319,
R328). -/
def State.stopLaunch (s : State) (x : BitVec 8) (l : Launch) : State :=
  if s.finished l then s.complete x l else s.setSlot x (some l)

/-- The world's launches complete (R319). -/
def State.stopLaunches (s : State) (w : BitVec 4) : State :=
  allSlots.foldl (fun t x =>
    match t.slot x with
    | some l => if l.world == w then t.stopLaunch x l.stopped else t
    | none => t) s

/-- The key of a world is destroyed: lines written under it fail their tags (R319, R324). -/
def State.destroyKey (s : State) (w : BitVec 4) : State :=
  { s with keyGen := s.keyGen.set w.toNat (s.keyGen[w.toNat]'(w.isLt) + 1) w.isLt }

/-- What STOP and ERROR do to a world: its tasks end, its launches complete, its key is destroyed (R319). -/
def State.endWorld (s : State) (w : BitVec 4) : State := ((s.killWorldTasks w).stopLaunches w).destroyKey w

/-- Worlds that have fallen come to their end, one after the other, with those that fall meanwhile. -/
def State.settleFrom : Nat → State → State
  | 0, s => { s with falls := [] }
  | n + 1, s =>
    match s.falls with
    | [] => s
    | w :: ws => ({ s with falls := ws }.endWorld (BitVec.ofNat 4 w)).settleFrom n

/-- The worlds whose TDI has gone to ERROR come to their end (R319, R320). Each of the fifteen falls at most once. -/
def State.settleFalls (s : State) : State := s.settleFrom 16

/-! ### Frames (R326) -/

/-- The first valid entry of a table from index i on. -/
def frameFrom (tab : Vector FrameEnt 16) (i : Nat) : Option Nat :=
  (List.range 16).find? (fun j => decide (i ≤ j) && ((tab[j]?).getD { }).v)

/-- The frame after the current one: its index, its table, as a new cycle takes it from what software has written (R326).
None when no entry is valid any more. -/
def Core.nextFrame (k : Core) : Option (Nat × Vector FrameEnt 16) :=
  match k.frame.bind (fun e => frameFrom k.cycleTab (e + 1)) with
  | some j => some (j, k.cycleTab)
  | none => (frameFrom k.frames 0).map (fun j => (j, k.frames))

/-- The world of the next frame. -/
def Core.nextWorld (k : Core) : BitVec 4 :=
  match k.nextFrame with
  | none => 0
  | some (j, tab) => entWorld tab j

/-- The clock at which the current frame's seal begins: its last 6 microseconds (R327). -/
def Core.sealAt (k : Core) : Option Nat := k.frameEnd.map (fun c => c - 6 * usClocks)

/-- A core cleared: registers, buffers, FIFOs, semaphores and queues (R327). -/
def Core.cleared (k : Core) : Core :=
  { shadowQ := k.shadowQ.filter (fun r => r.who.ofDevice || r.who == .save),
    serving := k.serving.filter (fun r => r.1.who.ofDevice || r.1.who == .save), saving := k.saving,
    shadow := { k.shadow with csrs := [] }, utlb := k.utlb,
    frames := k.frames, cycleTab := k.cycleTab, frame := k.frame, frameAt := k.frameAt, sealed := k.sealed,
    stays := k.stays }

/-- The shadow control context's service of a core's task starts again later (R327). -/
def Core.restService (k : Core) : Core :=
  match k.serving with
  | none => k
  | some r => if r.1.who.ofDevice || r.1.who == .save then k else { k with shadowQ := r.1 :: k.shadowQ, serving := none }

/-- A pre-emption that has chosen a core's task is given up, for its whole co-resident group: it does not cross a seal
(R327). -/
def State.spareGang (s : State) (c : CoreId) : State :=
  (if (s.core c).victim then s.gangCores c else []).foldl (fun t d => t.onCore d (fun k => { k with victim := false })) s

/-- A seal between two frames of one world (R327): the task stops and stays. -/
def State.sealSame (s : State) (c : CoreId) : State :=
  let s := s.spareGang c
  (if (s.core c).task.isSome then s.toStop c else s).onCore c Core.restService

/-- The outgoing world's task is sealed and the core cleared (R327). -/
def State.sealCore (s : State) (c : CoreId) : State :=
  let s := s.spareGang c
  let s := if (s.core c).task.isSome then (s.suspend c true).trySave c else s
  s.onCore c Core.cleared

/-- FRAME_SEAL (R327): at a frame's last 6 microseconds the outgoing world's task stops, and is sealed unless the next
frame belongs to the same world. An access of CTL that another unit is performing comes to its end first. DEDUCED (log
33): whether the task leaves the core is decided as the seal begins, by what the frame table then says. -/
def execFrameSeal (c : CoreId) (s : State) : Out :=
  let k := s.core c
  match k.sealAt with
  | none => .next s
  | some at_ =>
    if k.sealed || s.clock < at_ || (k.task.isSome && k.ctl.wait == .message) then .next s
    else
      let s := if k.nextWorld = k.frameWorld then s.sealSame c else s.sealCore c
      .next (s.onCore c (fun r => { r with sealed := true, stays := k.nextWorld == k.frameWorld }))

/-- The task that a seal took from a core and that a world's next frame brings back. -/
def State.sealedTask (s : State) (c : CoreId) (w : BitVec 4) : Option (BitVec 8 × Suspended) :=
  allSlots.findSome? (fun x =>
    match s.slot x with
    | some l =>
      if l.world == w then (l.susp.find? (fun u => u.sealed && u.saved && u.left == c)).map (fun u => (x, u)) else none
    | none => none)

/-- The incoming world's sealed task is loaded (R327). -/
def State.unseal (s : State) (c : CoreId) : State :=
  match s.sealedTask c (s.core c).frameWorld with
  | none => s
  | some (x, u) =>
    match s.slot x with
    | none => s
    | some l =>
      let r := s.restoreTask l u c
      r.1.setSlot x (some r.2)

/-- The core enters a frame, which began when the last one ended; a hold of its clocks goes on from there. -/
def Core.enterFrame (k : Core) (up : Option (Nat × Vector FrameEnt 16)) (at_ : Nat) : Core :=
  let k := { k with frameAt := at_, sealed := false, stays := false, holdAt := if k.hold then at_ else k.holdAt }
  match up with
  | some (j, tab) => { k with frame := some j, cycleTab := tab }
  | none => { k with frame := none }

/-- A save still with the shadow control context when the frame closes is unresolvable (log 33). -/
def State.closeSave (s : State) (c : CoreId) : State :=
  if (s.core c).saving.isSome then (s.failSave c 0).onCore c Core.dropSave else s

/-- FRAME_START (R326, R327): when a frame has run for exactly LEN the next one begins, by the table as it stands where a
cycle starts, and its world runs. A task that the seal left on the core, for a frame of its own world that a write has since
given to another, is sealed now (log 33). A core that
belonged to world 0 without frames begins its first cycle when an entry is valid; a task of world 0 on it is then sealed
unless the first frame is of world 0. -/
def execFrameStart (c : CoreId) (s : State) : Out :=
  let k := s.core c
  match k.frameEnd with
  | some end_ =>
    if !k.sealed || s.clock < end_ then .next s
    else
      let same := k.stays && k.nextWorld == k.frameWorld
      let s := if k.stays && !same then s.sealCore c else s
      let s := (s.closeSave c).onCore c (fun r => r.enterFrame k.nextFrame end_)
      .next (if same then s else s.unseal c)
  | none =>
    match k.nextFrame with
    | none => .next s
    | some up =>
      if k.task.isSome && k.ctl.wait == .message then .next s
      else
        let s := if k.nextWorld = 0 then s else (s.sealCore c).closeSave c
        let s := s.onCore c (fun r => r.enterFrame (some up) s.clock)
        .next (if (s.core c).frameWorld = 0 then s else s.unseal c)

end Sys2Proof.Machine
end

