-- ==== Sys2Proof/Machine/Trust.lean ====
section
/-!
DEFINITION. Trust: the TDIs and their lock (R318 to R323), the SPDM responder (R317), IDE (R321), and private and shared
register pages (R323).
-/

namespace Sys2Proof.Machine

/-! ### SPDM (R317) -/

/-- The responder answers once the security processor runs, before that nothing (R335). -/
def State.spdm (s : State) (r : SpdmReply) : State := if s.boot = .boot then s else s.reply (.spdm r)

/-- GET_VERSION (R317). -/
def execGetVersion (s : State) : Out := .next (s.spdm .version)

/-- GET_CAPABILITIES (R317). -/
def execGetCapabilities (s : State) : Out := .next (s.spdm .capabilities)

/-- NEGOTIATE_ALGORITHMS (R317): without a supported algorithm it receives InvalidRequest, and no session can then be
opened. -/
def execNegotiateAlgorithms (supported : Bool) (s : State) : Out :=
  if s.boot = .boot then .next s
  else .next ({ s with spdmOk := supported }.spdm (if supported then .algorithms else .invalidRequest))

/-- GET_DIGESTS (R317). -/
def execGetDigests (s : State) : Out := .next (s.spdm .digests)

/-- GET_CERTIFICATE (R317): slots 0 and 1; any other lies outside the table. -/
def execGetCertificate (slot : BitVec 8) (s : State) : Out :=
  .next (s.spdm (if slot.toNat ≤ 1 then .certificate slot else .unsupportedRequest))

/-- CHALLENGE (R317). -/
def execChallenge (slot : BitVec 8) (s : State) : Out :=
  .next (s.spdm (if slot.toNat ≤ 1 then .challengeAuth slot else .unsupportedRequest))

/-- The measurement blocks of a list of numbers that have been measured (R316, R317). -/
def State.measured (s : State) (bs : List Nat) : List (BitVec 8 × BitVec 32) :=
  bs.filterMap (fun b => ((s.meas[b - 1]?).getD none).map (fun v => (BitVec.ofNat 8 b, v)))

/-- What GET_MEASUREMENTS answers (R317): block 0 asks for the number of blocks, 0xFF for all of them (log 16); a block
above 5 lies outside the table. -/
def State.measurementReply (s : State) (block : BitVec 8) : SpdmReply :=
  if block = 0 then .measurementCount 5
  else if block = 0xFF then .measurements (s.measured [1, 2, 3, 4, 5])
  else if block.toNat ≤ 5 then .measurements (s.measured [block.toNat])
  else .unsupportedRequest

/-- GET_MEASUREMENTS (R317). -/
def execGetMeasurements (block : BitVec 8) (s : State) : Out := .next (s.spdm (s.measurementReply block))

/-- KEY_EXCHANGE (R317). -/
def execKeyExchange (s : State) : Out :=
  if s.boot = .boot then .next s
  else if s.spdmOk then .next ({ s with session := .handshake }.spdm .keyExchangeRsp)
  else .next (s.spdm .invalidRequest)

/-- FINISH (R317): the session is secured. -/
def execFinish (s : State) : Out :=
  if s.boot != .boot && s.session == .handshake then .next ({ s with session := .secured }.spdm .finishRsp)
  else .next (s.spdm .invalidRequest)

/-- A request within a secured session. -/
def State.inSession (s : State) (r : SpdmReply) : State := if s.session = .secured then s.spdm r else s.spdm .invalidRequest

/-- KEY_UPDATE (R317). -/
def execKeyUpdate (s : State) : Out := .next (s.inSession .keyUpdateAck)

/-- HEARTBEAT (R317). -/
def execHeartbeat (s : State) : Out := .next (s.inSession .heartbeatAck)

/-- END_SESSION (R317). -/
def execEndSession (s : State) : Out :=
  if s.boot != .boot && s.session == .secured then .next ({ s with session := .closed }.spdm .endSessionAck)
  else .next (s.spdm .invalidRequest)

/-- SPDM_UNSUPPORTED_REQUEST (R317). -/
def execSpdmUnsupportedRequest (_code : BitVec 8) (s : State) : Out := .next (s.spdm .unsupportedRequest)

/-! ### IDE (R321) -/

/-- IDE_KM (R321): over a secured session, a function's selective stream, one of 16, is set up with its first key set. -/
def execIdeKm (fn : BitVec 4) (s : State) : Out :=
  if s.boot != .boot && s.session == .secured then
    .next ((s.onTdi fn (fun t => { t with ide := { up := true, set := false } })).spdm .ideKmAck)
  else .next (s.spdm .invalidRequest)

/-- K_SET_GO (R321): a stream that is set up changes to one of its key sets. -/
def execKSetGo (fn : BitVec 4) (set : Bool) (s : State) : Out :=
  if s.boot != .boot && s.session == .secured && (s.tdiOf fn).ide.up then
    .next ((s.onTdi fn (fun t => { t with ide := { t.ide with set := set } })).spdm .kSetGoAck)
  else .next (s.spdm .invalidRequest)

/-! ### The locked set (R322) -/

/-- Bits of a mask, ascending. -/
def maskBits (m : DWord) : List Nat := (List.range 64).filter (fun i => m.getLsbD i)

/-- LQCTL as a read returns it (R301). -/
def LaunchQueue.ctlReg (q : LaunchQueue) : DWord :=
  BitVec.ofNat 64 (bit q.en + 2 * q.logn.toNat + 2 ^ 8 * q.ctx.toNat + 2 ^ 16 * bit q.err)

/-- A queue's part of the locked set: LQBASE, and LQCTL without ERR. -/
def State.lockQueue (s : State) (q : Nat) : List Byte :=
  let r := (s.lq[q]?).getD { }
  leBytes 8 r.base.toNat ++ leBytes 8 ({ r with err := false }.ctlReg).toNat

/-- A frame entry as its register reads (R326). -/
def FrameEnt.reg (e : FrameEnt) : DWord := BitVec.ofNat 64 (bit e.v + 2 * e.world.toNat + 2 ^ 8 * (e.len.toNat % 2 ^ 11))

/-- The frame entries of a world on a core, each with its place. -/
def State.lockFrames (s : State) (w : BitVec 4) (c : CoreId) : List Byte :=
  (List.range 16).flatMap (fun e =>
    let f := ((s.core c).frames[e]?).getD { }
    if f.world == w then [c.setWidth 8, BitVec.ofNat 8 e] ++ leBytes 8 f.reg.toNat else [])

/-- The locked set of a world in ascending order: queues, contexts, then core and entry (R322). What the SM3 digest of it
is compared by (log 15). -/
def State.lockedSet (s : State) (w : BitVec 4) : List Byte :=
  let t := s.tdiOf w
  (maskBits t.queues).flatMap (fun q => s.lockQueue q) ++ t.descs.flatMap (fun d => d.2) ++
    allCores.flatMap (fun c => s.lockFrames w c)

/-- Clocks of 100 microseconds (R322). -/
def walkClocks : Nat := 100 * usClocks

/-- LOCK_DIGEST_WALK (R322): every 100 microseconds the locked sets are compared with what they were at lock. -/
def execLockDigestWalk (s : State) : Out :=
  if s.clock < s.walkAt + walkClocks then .next s
  else
    let s := { s with walkAt := s.walkAt + walkClocks }
    .next (allWorlds.foldl (fun t w =>
      if (t.tdiOf w).isLocked && t.lockedSet w != (t.tdiOf w).lockSet then t.tdiError w 1 else t) s).settleFalls

/-! ### TDISP (R318, R319) -/

/-- A TDISP message reaches a function that is present: once the device is READY (R316, R335). -/
def State.tdisp (s : State) (fn : BitVec 4) (r : TdispReply) : State :=
  if s.boot = .ready then s.reply (.tdisp fn r) else s

/-- A request in ERROR, other than STOP, is answered INVALID_INTERFACE_STATE (R319). -/
def tdispAsk (fn : BitVec 4) (r : TdispReply) (s : State) : Out :=
  .next (s.tdisp fn (if (s.tdiOf fn).state = .error then .invalidInterfaceState else r))

/-- GET_TDISP_VERSION (R318). -/
def execGetTdispVersion (fn : BitVec 4) (s : State) : Out := tdispAsk fn .version s

/-- GET_TDISP_CAPABILITIES (R318). -/
def execGetTdispCapabilities (fn : BitVec 4) (s : State) : Out := tdispAsk fn .capabilities s

/-- GET_DEVICE_INTERFACE_REPORT (R318). -/
def execGetDeviceInterfaceReport (fn : BitVec 4) (s : State) : Out := tdispAsk fn .report s

/-- GET_DEVICE_INTERFACE_STATE (R318); function 0 always reads CONFIG_UNLOCKED. -/
def execGetDeviceInterfaceState (fn : BitVec 4) (s : State) : Out :=
  tdispAsk fn (.state (if fn = 0 then .unlocked else (s.tdiOf fn).state)) s

/-- Queues and contexts that other worlds hold (R318). -/
def State.heldByOthers (s : State) (fn : BitVec 4) (f : Tdi → DWord) : DWord :=
  allWorlds.foldl (fun m w => if w != fn && (s.tdiOf w).state != .unlocked then m ||| f (s.tdiOf w) else m) 0

/-- Why a lock request is refused (R318). DEDUCED (log 29): a context whose descriptor has a nonzero reserved field is
refused too, for none is ignored (R5). -/
def State.lockRefused (s : State) (fn : BitVec 4) (queues ctxs : DWord) : Bool :=
  fn == 0 || (s.tdiOf fn).state != .unlocked ||
  s.heldByOthers fn (fun t => t.queues) &&& queues != 0 || s.heldByOthers fn (fun t => t.ctxs) &&& ctxs != 0 ||
  (maskBits ctxs).any (fun x =>
    (s.descOf (BitVec.ofNat 6 x)).world != fn || !descForm (s.descBytes (BitVec.ofNat 6 x)))

/-- LOCK_INTERFACE_REQUEST (R318 to R322): the contexts' descriptors are captured, a fresh key is made, and the lock
digest is taken. -/
def execLockInterfaceRequest (fn : BitVec 4) (queues ctxs : DWord) (s : State) : Out :=
  if s.boot != .ready then .next s
  else if s.lockRefused fn queues ctxs then .next (s.tdisp fn .invalidInterfaceState)
  else
    let descs := (maskBits ctxs).map (fun x => (x, s.descBytes (BitVec.ofNat 6 x)))
    let s := (s.destroyKey fn).onTdi fn (fun t =>
      { t with state := .locked, errcause := 0, queues := queues, ctxs := ctxs, descs := descs })
    .next ((s.onTdi fn (fun t => { t with lockSet := s.lockedSet fn })).tdisp fn .lockAck)

/-- START_INTERFACE_REQUEST (R319). -/
def execStartInterfaceRequest (fn : BitVec 4) (s : State) : Out :=
  if s.boot != .ready then .next s
  else if (s.tdiOf fn).state = .locked then
    .next ((s.onTdi fn (fun t => { t with state := .run })).tdisp fn .startAck)
  else .next (s.tdisp fn .invalidInterfaceState)

/-- A TDI is unlocked: its queues and contexts are released. -/
def Tdi.unlock (t : Tdi) : Tdi :=
  { t with state := .unlocked, errcause := 0, queues := 0, ctxs := 0, descs := [], lockSet := [] }

/-- STOP_INTERFACE_REQUEST (R319): a locked world's work ends and its key is destroyed; from ERROR only the interface is
unlocked. -/
def execStopInterfaceRequest (fn : BitVec 4) (s : State) : Out :=
  if s.boot != .ready then .next s
  else
    let s := if fn != 0 && (s.tdiOf fn).isLocked then s.endWorld fn else s
    .next ((s.onTdi fn Tdi.unlock).tdisp fn .stopAck)

/-- TDISP_UNSUPPORTED_REQUEST (R318). -/
def execTdispUnsupportedRequest (fn : BitVec 4) (_code : BitVec 8) (s : State) : Out := .next (s.tdisp fn .unsupportedRequest)

/-! ### What moves a TDI to ERROR (R319) -/

/-- IDE_INTEGRITY_FAILURE (R321): the TLP is discarded. -/
def execIdeIntegrityFailure (fn : BitVec 4) (s : State) : Out := .next (s.tdiError fn 3).settleFalls

/-- FUNCTION_LEVEL_RESET (R319). -/
def execFunctionLevelReset (fn : BitVec 4) (s : State) : Out := .next (s.tdiError fn 4).settleFalls

/-- Every locked TDI moves to ERROR; the ERRCAUSE of it is not stated, so it is a free value. -/
def State.errorAll (s : State) : State :=
  let (n, s) := s.drawFree
  allWorlds.foldl (fun t w => t.tdiError w ((Config.freeByte n w.toNat).setWidth 3)) s

/-- DEBUG_ENABLE (R331): every locked TDI moves to ERROR. -/
def execDebugEnable (s : State) : Out := .next { s.errorAll.settleFalls with debug := true }

/-- A debug access is refused while debug is not enabled, and while any TDI is locked (R331); what an access that is let
through does is not stated (log 55). -/
def State.debugAccess (s : State) : State :=
  s.reply (if s.debug && !allWorlds.any (fun w => (s.tdiOf w).isLocked) then .debugDone else .debugRefused)

/-! ### Register pages (R323) -/

/-- UNTRUSTED_PRIVATE_ACCESS (R323): a read returns all ones, a write is discarded, and the function counts it. -/
def execUntrustedPrivateAccess (fn : BitVec 4) (isWrite : Bool) (s : State) : Out :=
  if s.boot != .ready then .next s
  else
    let t := s.onTdi fn Tdi.violate
    .next (if isWrite then t else t.reply (.value (BitVec.allOnes 64)))

/-- TRUSTED_SHARED_PAGE_ACCESS (R323): a trusted TLP at a shared page; one that does not count as trusted changes
nothing here. -/
def execTrustedSharedPageAccess (fn : BitVec 4) (s : State) : Out :=
  if s.boot == .ready && s.trusts fn then .next (s.reply .unsupported) else .next s

end Sys2Proof.Machine
end

