-- ==== Sys2Proof/Machine/Channel.lean ====
section
/-!
DEFINITION. Bounce channels (R329, R330): their registers and the channel unit on the IOD.
-/

namespace Sys2Proof.Machine

/-! ### Registers (R329) -/

def Channel.en (h : Channel) : Bool := h.ctl.getLsbD 0

/-- DIR: host to device when set. -/
def Channel.toDevice (h : Channel) : Bool := h.ctl.getLsbD 1

def Channel.ctx (h : Channel) : BitVec 6 := h.ctl.extractLsb' 2 6

/-- Slots, 2^LOGN. -/
def Channel.slots (h : Channel) : Nat := 2 ^ (h.ctl.extractLsb' 8 4).toNat

/-- Slot size in bytes. -/
def Channel.slotSize (h : Channel) : Nat := 2 ^ (8 + (h.ctl.extractLsb' 12 3).toNat)

/-- LOGN is 1 to 12 and the slot size code 0 to 6 (R329). -/
def Channel.formOk (h : Channel) : Bool :=
  decide (1 ≤ (h.ctl.extractLsb' 8 4).toNat) && decide ((h.ctl.extractLsb' 8 4).toNat ≤ 12) &&
    decide ((h.ctl.extractLsb' 12 3).toNat ≤ 6) && h.sh.toNat % 64 == 0 && h.pr.toNat % 64 == 0

/-- CHCTL as a read returns it (R329). -/
def Channel.ctlReg (h : Channel) : DWord := BitVec.ofNat 64 (h.ctl.toNat + 2 ^ 16 * h.state.code)

/-- Channel ch of a TDI. -/
def State.chan (s : State) (fn : BitVec 4) (ch : BitVec 2) : Channel := (s.tdiOf fn).ch[ch.toNat]'(ch.isLt)

/-- Changes a channel. -/
def State.onChan (s : State) (fn : BitVec 4) (ch : BitVec 2) (f : Channel → Channel) : State :=
  s.onTdi fn (fun t => { t with ch := t.ch.set ch.toNat (f (t.ch[ch.toNat]'(ch.isLt))) ch.isLt })

/-! ### Ring accesses -/

/-- The channel unit as a source of accesses, under the descriptor of the context that CTX names (R65, R320, R329). -/
def State.chanWho (s : State) (fn : BitVec 4) (h : Channel) : Who :=
  { die := 4, ctx := h.ctx, world := fn, hyp := 0, desc := s.descOf h.ctx }

/-- Whether every page of a range carries the world that its ring has: 0 for the shared one, the TDI's for the private
one (R329). -/
def State.ringPages (s : State) (who : Who) (enc : Nat) (va n : Nat) : Bool :=
  (pagesOf va n).all (fun p =>
    match s.translate who p.1 with
    | .ok l => l.enc == enc
    | .error _ => false)

/-- A read of a ring, or the state in which its fault has been noted: a tag mismatch stops the TDI (R324). -/
def State.ringRead (s : State) (who : Who) (enc va n : Nat) : Except State (List Byte) :=
  if !s.ringPages who enc va n then .error s
  else
    match s.load who .load va n with
    | .ok (bs, _) => .ok bs
    | .error (f, _) => .error (s.noteTag f)

/-- A write of a ring; on a fault the state in which it has been noted. -/
def State.ringWrite (s : State) (who : Who) (enc va : Nat) (bs : List Byte) : Except State State :=
  if !s.ringPages who enc va bs.length then .error s
  else
    match s.store who va bs with
    | .ok t => .ok t
    | .error (f, _) => .error (s.noteTag f)

/-- TAIL of a ring receives +1: as a SIGEV on a private ring, as a read and a write of the channel unit on a shared one,
which may lie in host memory (R330). -/
def State.bumpTail (s : State) (who : Who) (enc va : Nat) : Except State State :=
  if enc = 0 then
    match s.ringRead who enc va 8 with
    | .ok bs => s.ringWrite who enc va (leBytes 8 (leNat bs + 1))
    | .error t => .error t
  else if !s.ringPages who enc va 8 then .error s
  else
    match s.access who .atomic va 8 with
    | .ok l => .ok (s.bumpEvent who l va 1)
    | .error f => .error (s.noteTag f)

/-- The two rings: address and world, producer's first. -/
def Channel.rings (h : Channel) (fn : BitVec 4) : (Nat × Nat) × (Nat × Nat) :=
  if h.toDevice then ((h.sh.toNat, 0), (h.pr.toNat, fn.toNat)) else ((h.pr.toNat, fn.toNat), (h.sh.toNat, 0))

/-- The producer's tail: CHDOOR of a host, TAIL of the private ring of a task (R329). -/
def State.producerTail (s : State) (fn : BitVec 4) (h : Channel) : Except State Nat :=
  if h.toDevice then .ok h.door.toNat
  else (s.ringRead (s.chanWho fn h) fn.toNat h.pr.toNat 8).map leNat

/-- Whether the producer has published slots beyond HEAD; a host's tail has 16 bits (R329). -/
def Channel.ahead (h : Channel) (head tail : Nat) : Bool :=
  if h.toDevice then head % 2 ^ 16 != tail % 2 ^ 16 else decide (head < tail)

/-! ### The unit (R330) -/

/-- HEAD of a ring := n. -/
def State.setHeadOf (s : State) (fn : BitVec 4) (h : Channel) (ring : Nat × Nat) (n : Nat) : Except State State :=
  s.ringWrite (s.chanWho fn h) ring.2 (ring.1 + 8) (leBytes 8 n)

/-- Whether the channel names one of its world's contexts (R329), with a valid descriptor (R5, R303). DEDUCED (log 29): a
channel that names another, or an invalid one, is not served. -/
def State.chanCtxOk (s : State) (fn : BitVec 4) (h : Channel) : Bool :=
  (s.tdiOf fn).ctxs.getLsbD h.ctx.toNat && s.descValid h.ctx

/-- Both rings' HEAD to TAIL. -/
def State.resetRings (s : State) (fn : BitVec 4) (h : Channel) : Except State State :=
  let (p, c) := h.rings fn
  match s.producerTail fn h, s.ringRead (s.chanWho fn h) c.2 c.1 8 with
  | .ok pt, .ok ct => (s.setHeadOf fn h p pt).bind (fun t => t.setHeadOf fn h c (leNat ct))
  | .error t, _ => .error t
  | .ok _, .error t => .error t

/-- CHANNEL_RESET (R330): slots in flight are discarded, CHEXP is the base sequence, and the channel is OPEN; a ring that
faults leaves it in RESYNC. -/
def execChannelReset (fn : BitVec 4) (ch : BitVec 2) (base : Word) (s : State) : Out :=
  if s.boot != .ready || fn = 0 then .next s
  else
    let h := s.chan fn ch
    match (if h.formOk && s.chanCtxOk fn h then s.resetRings fn h else .error s) with
    | .ok t => .next (t.onChan fn ch (fun h => { h with state := .opened, exp := base }))
    | .error t => .next (t.onChan fn ch (fun h => { h with state := .resync, exp := base }))

/-- CHDOOR_WRITE (R329). -/
def execChdoorWrite (fn : BitVec 4) (ch : BitVec 2) (tail : BitVec 16) (s : State) : Out :=
  if s.boot != .ready || fn = 0 then .next s else .next (s.onChan fn ch (fun h => { h with door := tail }))

/-- The copy of the slot at HEAD, its header checked: the consumer's slot, then its TAIL, then the producer's HEAD; an
error when SEQ or LEN is wrong or a ring faults. -/
def State.copySlot (s : State) (fn : BitVec 4) (h : Channel) (head : Nat) : Except State State :=
  let who := s.chanWho fn h
  let (p, c) := h.rings fn
  let off := 64 + head % h.slots * h.slotSize
  match s.ringRead who p.2 (p.1 + off) h.slotSize with
  | .error t => .error t
  | .ok slot =>
    if fieldAt slot 0 4 != h.exp.toNat || h.slotSize < fieldAt slot 4 4 + 16 then .error s
    else
      (s.ringWrite who c.2 (c.1 + off) slot).bind (fun t =>
        (t.bumpTail who c.2 c.1).bind (fun u => u.setHeadOf fn h p (head + 1)))

/-- BOUNCE_SLOT_COPY (R330): the oldest published slot of an open, enabled channel is copied, or the channel enters
RESYNC, in which nothing is copied. -/
def execBounceSlotCopy (fn : BitVec 4) (ch : BitVec 2) (s : State) : Out :=
  let h := s.chan fn ch
  if fn = 0 || h.state != .opened || !h.en then .next s
  else
    let resync (t : State) : Out := .next (t.onChan fn ch (fun h => { h with state := .resync }))
    if !h.formOk || !s.chanCtxOk fn h then resync s
    else
      match s.ringRead (s.chanWho fn h) (h.rings fn).1.2 ((h.rings fn).1.1 + 8) 8, s.producerTail fn h with
      | .ok hd, .ok tail =>
        let head := leNat hd
        if !h.ahead head tail then .next s
        else
          match s.copySlot fn h head with
          | .ok t => .next (t.onChan fn ch (fun h => { h with exp := h.exp + 1 }))
          | .error t => resync t
      | .error t, _ => resync t
      | .ok _, .error t => resync t

end Sys2Proof.Machine
end

