-- ==== Sys2Proof/Machine/Media.lean ====
section
/-!
DEFINITION. Media decode (R184 to R187): MDEC, the queues of the four engines, and what a job writes. What a bitstream
decodes to is Config.mediaDecode (log 14); resizing, formats and layout are the specification's.
-/

namespace Sys2Proof.Machine

/-! ### The job record (R184) -/

def jobP010 (r : List Byte) : Bool := fieldAt r 1 1 == 1
def jobResize (r : List Byte) : Bool := fieldAt r 2 1 == 1
def jobEngine (r : List Byte) : Nat := fieldAt r 3 1
def jobLen (r : List Byte) : Nat := fieldAt r 4 4
def jobSrc (r : List Byte) : Nat := fieldAt r 8 8
def jobDst (r : List Byte) : Nat := fieldAt r 16 8
def jobFirst (r : List Byte) : Nat := fieldAt r 24 4
def jobCount (r : List Byte) : Nat := fieldAt r 28 4
def jobW (r : List Byte) : Nat := fieldAt r 32 2
def jobH (r : List Byte) : Nat := fieldAt r 34 2
def jobPitch (r : List Byte) : Nat := fieldAt r 36 4
def jobFstride (r : List Byte) : Nat := fieldAt r 40 8
def jobStat (r : List Byte) : Nat := fieldAt r 48 8

/-- Bytes of an output sample (R185). -/
def jobSample (r : List Byte) : Nat := if jobP010 r then 2 else 1

/-- A record that keeps to R184's table. -/
def jobOk (r : List Byte) : Bool :=
  decide (fieldAt r 0 1 ≤ 1) && decide (fieldAt r 1 1 ≤ 1) && decide (fieldAt r 2 1 ≤ 1) &&
  (decide (jobEngine r ≤ 3) || jobEngine r == 0xFF) &&
  decide (1 ≤ jobLen r) && decide (jobLen r ≤ 0x80000000) && jobDst r % 64 == 0 && decide (jobCount r ≤ 65535) &&
  jobW r % 2 == 0 && decide (16 ≤ jobW r) && decide (jobW r ≤ 4096) &&
  jobH r % 2 == 0 && decide (16 ≤ jobH r) && decide (jobH r ≤ 2304) &&
  jobPitch r % 64 == 0 && decide (jobW r * jobSample r ≤ jobPitch r) &&
  decide (jobPitch r * jobH r * 3 ≤ 2 * jobFstride r) && jobStat r % 16 == 0 && zeroAt r 56 8

/-- Depth of an engine's queue (R184). -/
def mediaDepth : Nat := 16

/-- Jobs queued at an engine (R184). DESIGN CHOICE (log 75): the job that it runs has left its queue and is not counted. -/
def State.mediaLoad (s : State) (m : Fin 4) : Nat := s.media[m].queue.length

/-- The engine of a job: the one named, or the one with the fewest queued jobs, lowest number first (R184). -/
def State.mediaPick (s : State) (r : List Byte) : Fin 4 :=
  if h : jobEngine r < 4 then ⟨jobEngine r, h⟩
  else
    let least := min (min (s.mediaLoad 0) (s.mediaLoad 1)) (min (s.mediaLoad 2) (s.mediaLoad 3))
    if s.mediaLoad 0 = least then 0
    else if s.mediaLoad 1 = least then 1
    else if s.mediaLoad 2 = least then 2
    else 3

/-- What MDEC finds at issue (R184): the record, or the failing check or a full queue. -/
def mdecRead (va : DWord) (s : State) : Except Issue (List Byte) :=
  if va.toNat % 64 != 0 then .error (.fault .misaligned va)
  else
    match s.readRecord va 64 with
    | .error i => .error i
    | .ok r =>
      if !jobOk r then .error (.fault .reservedField s.engWordBits)
      else if mediaDepth ≤ s.mediaLoad (s.mediaPick r) then .error (.hold .mdecQueue)
      else .ok r

/-- The job joins its engine's queue, and MDEC retires (R184); the engines stand on the IOD (R9). -/
def placeJob (t : Tok) (r : List Byte) (u : State) : State :=
  let e := u.actEng
  let m := u.mediaPick r
  let job : MdecJob :=
    { record := r, slot := (u.here).theTask.slot, uid := (u.here).theTask.uid, sts := u.actSts,
      op := ((u.here).eng e).nextOp,
      who := { u.engWho with die := 4, core := none, agent := .job (u.here).theTask.uid u.actSts ((u.here).eng e).nextOp } }
  let u := { u with media := u.media.set m { u.media[m] with queue := u.media[m].queue ++ [job] } }
  u.onHere (fun k => k.startOp e u.actSts t .mdec)

/-- MDEC (R184). -/
def execMdec (t : Tok) (x : BitVec 4) (s : State) : Out :=
  engWord s t (fun u => issueOf (mdecRead (u.areg x) u)) (fun u =>
    match mdecRead (u.areg x) u with
    | .error _ => u
    | .ok r => placeJob t r u)

/-- MDEC_QUEUE_PLACE (R184): a stalled MDEC looks again, and places its job once its queue has room. -/
def execMdecQueuePlace (c : CoreId) (e : Engine) (s : State) : Out :=
  let k := s.core c
  if (k.eng e).wait = .mdecQueue && s.engGoes c e then
    match k.instrAt e.seqr (fetchOf e) (engWords e) (k.eng e).pc with
    | .mdec t x =>
      execMdec t x { s.onCore c (fun k => k.setWait e.seqr .none) with actCore := c, actSeq := e.seqr }
    | _ => .next s
  else .next s

/-- MEDIA_DECODE_JOB (R184): an engine that runs none starts its next job. -/
def execMediaDecodeJob (m : BitVec 2) (s : State) : Out :=
  let i : Fin 4 := ⟨m.toNat, m.isLt⟩
  let g := s.media[i]
  match g.job, g.queue with
  | none, j :: js => .next { s with media := s.media.set i { queue := js, job := some j } }
  | _, _ => .next s

/-! ### Pictures (R185, R186) -/

/-- A plane of samples. -/
structure Plane where
  w   : Nat
  h   : Nat
  pix : List Nat
  deriving DecidableEq, Repr, Inhabited

def Plane.at (p : Plane) (x y : Nat) : Nat := (p.pix[y * p.w + x]?).getD 0

/-- Source position and fraction of output sample i (R186). -/
def resamplePos (src dst i : Nat) : Nat × Nat × Nat :=
  let p := (2 * i + 1) * src * 65536 / (2 * dst) - 32768
  let a := min (p / 65536) (src - 1)
  (a, min (a + 1) (src - 1), p % 65536)

/-- Output sample (x, y) of a resampled plane (R186). -/
def Plane.sample (p : Plane) (w h x y : Nat) : Nat :=
  let (x0, x1, fx) := resamplePos p.w w x
  let (y0, y1, fy) := resamplePos p.h h y
  (p.at x0 y0 * (65536 - fx) * (65536 - fy) + p.at x1 y0 * fx * (65536 - fy) + p.at x0 y1 * (65536 - fx) * fy
    + p.at x1 y1 * fx * fy + 2 ^ 31) / 2 ^ 32

/-- A sample of the output plane: resampled with RESIZE, copied without. -/
def Plane.out (p : Plane) (resize : Bool) (w h x y : Nat) : Nat := if resize then p.sample w h x y else p.at x y

/-- A sample in the output format (R185). -/
def toFormat (p010 : Bool) (bits v : Nat) : List Byte :=
  let v := v % 2 ^ bits
  if p010 then leBytes 2 ((if bits = 8 then v * 4 else v) * 64)
  else [BitVec.ofNat 8 (if bits = 8 then v else min ((v + 2) / 4) 255)]

/-- A chroma sample of a monochrome stream (R185). -/
def monoChroma (p010 : Bool) : List Byte := if p010 then leBytes 2 (512 * 64) else [128]

/-- Row y of the luma plane. -/
def lumaRow (r : List Byte) (p : Pic) (y : Nat) : List Byte :=
  let pl : Plane := { w := p.w, h := p.h, pix := p.luma }
  (List.range (jobW r)).flatMap (fun x => toFormat (jobP010 r) p.bits (pl.out (jobResize r) (jobW r) (jobH r) x y))

/-- Row y of the interleaved chroma plane, Cb first. -/
def chromaRow (r : List Byte) (p : Pic) (y : Nat) : List Byte :=
  let pl (pix : List Nat) : Plane := { w := (p.w + 1) / 2, h := (p.h + 1) / 2, pix := pix }
  let one (pix : List Nat) (x : Nat) : List Byte :=
    if p.mono then monoChroma (jobP010 r)
    else toFormat (jobP010 r) p.bits ((pl pix).out (jobResize r) (jobW r / 2) (jobH r / 2) x y)
  (List.range (jobW r / 2)).flatMap (fun x => one p.cb x ++ one p.cr x)

/-- The rows of frame f with their addresses (R185). -/
def frameRows (r : List Byte) (f : Nat) (p : Pic) : List (Nat × List Byte) :=
  let base := jobDst r + f * jobFstride r
  (List.range (jobH r)).map (fun y => ((base + y * jobPitch r) % 2 ^ 64, lumaRow r p y)) ++
    (List.range (jobH r / 2)).map (fun y => ((base + (jobH r + y) * jobPitch r) % 2 ^ 64, chromaRow r p y))

/-! ### The job (R187) -/

/-- Whether what a stream declares is what R185 supports. -/
def headOk (codec : Nat) (h : StreamHead) : Bool :=
  decide (h.level ≤ 51) &&
    (if codec = 0 then (h.profile == .main || h.profile == .main10) && h.mainTier && h.form == .annexB true
     else h.profile == .main && h.form == .obus)

/-- Whether a coded picture is one that R185 supports: 8 or 10 bits, at most 4,096 by 2,304, 4:2:0, monochrome only in AV1. -/
def picOk (codec : Nat) (p : Pic) : Bool :=
  (p.bits == 8 || p.bits == 10) && decide (p.w ≤ 4096) && decide (p.h ≤ 2304) && p.luma.length == p.w * p.h &&
    (if p.mono then codec == 1
     else p.cb.length == (p.w + 1) / 2 * ((p.h + 1) / 2) && p.cr.length == (p.w + 1) / 2 * ((p.h + 1) / 2))

/-- The part of a plane of width w that starts at (x, y) and is w' by h'. -/
def cropPlane (w : Nat) (pix : List Nat) (x y w' h' : Nat) : List Nat :=
  (List.range h').flatMap (fun j => (pix.drop ((y + j) * w + x)).take w')

/-- A picture as it is emitted: of HEVC, what its conformance window leaves (R185). -/
def outPic (codec : Nat) (c : CodedPic) : Pic :=
  if codec = 0 then
    let p := c.pic
    let w := p.w - c.left - c.right
    let h := p.h - c.top - c.bottom
    let chroma (pix : List Nat) : List Nat := cropPlane ((p.w + 1) / 2) pix (c.left / 2) (c.top / 2) ((w + 1) / 2) ((h + 1) / 2)
    { p with w := w, h := h, luma := cropPlane p.w p.luma c.left c.top w h, cb := chroma p.cb, cr := chroma p.cr }
  else c.pic

/-- The pictures of a stream in output order; no film grain is added (R185). -/
def streamPics (codec : Nat) (d : Decoded) : List Pic := d.shown.filterMap (fun i => (d.coded[i]?).map (outPic codec))

/-- Whether a stream lies outside what R185 supports. -/
def streamBarred (codec : Nat) (d : Decoded) : Bool := !headOk codec d.head || d.coded.any (fun c => !picOk codec c.pic)

/-- What a job's bitstream comes to: STATUS when every frame is written, the frames, and their bytes by 16-byte
granules. -/
structure JobPlan where
  status : Nat
  frames : Nat
  parts  : List (Nat × List Byte)
  deriving DecidableEq, Repr, Inhabited

/-- The granules of a row. -/
def rowParts (row : Nat × List Byte) : List (Nat × List Byte) :=
  (List.range ((row.2.length + 15) / 16)).map (fun i => (row.1 + 16 * i, (row.2.drop (16 * i)).take 16))

/-- The plan of a job (R185 to R187). -/
def jobPlan (r bits : List Byte) : JobPlan :=
  let codec := fieldAt r 0 1
  let d := Config.mediaDecode codec bits
  let pics := ((streamPics codec d).drop (jobFirst r)).take (jobCount r)
  if streamBarred codec d then { status := 2, frames := 0, parts := [] }
  else if !jobResize r && pics.any (fun p => p.w != jobW r || p.h != jobH r) then { status := 3, frames := 0, parts := [] }
  else
    { status := if pics.length = jobCount r then 0 else if d.bad then 1 else 4
      frames := pics.length
      parts := pics.zipIdx.flatMap (fun p => (frameRows r p.2 p.1).flatMap rowParts) }

/-- Writes granules, at most n, until one fails: the state, how many were written, and the fault. -/
def State.writeParts (s : State) (who : Who) : Nat → List (Nat × List Byte) → State × Nat × Option (AccFault × Nat)
  | 0, _ => (s, 0, none)
  | _, [] => (s, 0, none)
  | n + 1, (va, bs) :: rest =>
    match s.store who va bs with
    | .error f => (s, 0, some f)
    | .ok t =>
      let r := t.writeParts who n rest
      (r.1, r.2.1 + 1, r.2.2)

/-- Replaces the job of an engine. -/
def State.setJob (s : State) (i : Fin 4) (j : Option MdecJob) : State := { s with media := s.media.set i { s.media[i] with job := j } }

/-- A V = 0 fault of a job is offered to the shadow control context of the core that runs its task; a suspended task's job
waits for it. -/
def State.offerJob (s : State) (i : Fin 4) (j : MdecJob) (va : Nat) (ats : Bool) : State :=
  match s.whereIs j.uid with
  | none => s.setJob i (some j)
  | some c =>
    (s.onCore c (fun k =>
      k.offer { who := .step (xferEng j.sts) j.op, va := BitVec.ofNat 64 va, ats := ats, arr := s.clock })).setJob i
      (some { j with held := true })

/-- A fault of a job's frames (R187): V = 0 is offered; any other ends the frames. -/
def State.jobFault (s : State) (i : Fin 4) (j : MdecJob) (f : AccFault) (va : Nat) : State :=
  let ended (c : Cause) : MdecJob := { j with fault := some (c, va), stat := true }
  match f with
  | .shadow ats => if s.shlim = 0 then s.setJob i (some (ended .pageNotPresent)) else s.offerJob i j va ats
  | .trap c => s.setJob i (some (ended c))
  | .tag w => (s.tagError w).setJob i (some (ended .eccUncorr))

/-- The bitstream is read. -/
def State.jobRead (s : State) (i : Fin 4) (j : MdecJob) : State :=
  match s.load j.who .load (jobSrc j.record) (jobLen j.record) with
  | .error (f, va) => s.jobFault i j f va
  | .ok (bs, t) => t.setJob i (some { j with bits := some bs })

/-- Up to n more granules of the frames are written. -/
def State.jobWrite (s : State) (i : Fin 4) (j : MdecJob) (bits : List Byte) (n : Nat) : State :=
  let plan := jobPlan j.record bits
  let r := s.writeParts j.who n (plan.parts.drop j.pos)
  let j := { j with pos := j.pos + r.2.1 }
  match r.2.2 with
  | some (f, va) => r.1.jobFault i j f va
  | none => r.1.setJob i (some { j with stat := decide (plan.parts.length ≤ j.pos) })

/-- STATUS and the number of frames written. -/
def MdecJob.result (j : MdecJob) : Nat × Nat :=
  let plan := jobPlan j.record (j.bits.getD [])
  let per := plan.parts.length / max 1 plan.frames
  let n := if plan.frames = 0 then 0 else j.pos / max 1 per
  (if j.fault.isSome then 5 else plan.status, n)

/-- The status record is written last; when that fails, no status is written and the tokens are poisoned. -/
def State.jobStatus (s : State) (i : Fin 4) (j : MdecJob) : State :=
  let bad (t : State) (c : Cause) (va : Nat) : State := t.setJob i (some { j with fault := some (c, va), fin := true })
  match s.store j.who (jobStat j.record) (leBytes 4 j.result.1 ++ leBytes 4 j.result.2 ++ List.replicate 8 0) with
  | .ok t => t.setJob i (some { j with fin := true })
  | .error (.trap c, va) => bad s c va
  | .error (.tag w, va) => bad (s.tagError w) .eccUncorr va
  | .error (.shadow ats, va) => if s.shlim = 0 then bad s .pageNotPresent va else s.offerJob i j va ats

/-- The end of a job's step: its pushes go to its task, running or suspended (R184, R187, R179). -/
def State.endJob (s : State) (j : MdecJob) (o : Op) : State :=
  let e := xferEng j.sts
  let refuted := o.hyp != 0 && (s.ctx j.who.ctx).isRefuted o.hyp
  s.onTask j.slot j.uid (fun k =>
    let k := k.endOp e j.sts o.id j.fault.isSome refuted
    match j.fault with
    | some (c, a) => if o.sig then k else k.post (o.report e c a)
    | none => k)

/-- Whether a job's earlier steps have completed (R184). -/
def Xfer.settledBefore (x : Xfer) (id : Nat) : Bool := (x.ops.filter (fun o => decide (o.id < id))).all Op.completed

/-- The step that a job belongs to, in its task's core. -/
def State.jobOp (s : State) (j : MdecJob) : Option (Core × Op) :=
  (s.taskCore j.slot j.uid).bind (fun k => ((k.xfer j.sts).op j.op).map (fun o => (k, o)))

/-- One stage of an engine's job, with up to n granules of writing: its bitstream, its frames, its status record, and, once
what it wrote elsewhere has been performed (R261), its end. A job whose task has ended does nothing more (log 26). -/
def State.jobStage (s : State) (i : Fin 4) (n : Nat) : State :=
  match s.media[i].job with
  | none => s
  | some j =>
    match s.jobOp j with
    | none => s.setJob i none
    | some (k, o) =>
      if j.held || !(k.xfer j.sts).settledBefore j.op then s
      else if j.fin then if s.quiet j.who.agent then (s.setJob i none).endJob j o else s
      else if j.stat then s.jobStatus i j
      else
        match j.bits with
        | none => s.jobRead i j
        | some bits => s.jobWrite i j bits n

/-- A job makes progress in its reading or writing (R257). -/
def State.jobPart (s : State) (m : BitVec 2) (n : Nat) : State :=
  let i : Fin 4 := ⟨m.toNat, m.isLt⟩
  match s.media[i].job with
  | none => s
  | some j => if j.stat then s else s.jobStage i n

/-- All granules that a job may have left to write: a frame has at most 3 · 2,304 / 2 rows of 8 KiB. -/
def jobAll : Nat := 65535 * 3456 * 512

/-- MEDIA_DECODE_COMPLETE (R187): the running job's frames and status are written and its step completes. -/
def execMediaDecodeComplete (m : BitVec 2) (s : State) : Out :=
  let i : Fin 4 := ⟨m.toNat, m.isLt⟩
  .next ((((s.jobStage i jobAll).jobStage i jobAll).jobStage i jobAll).jobStage i jobAll)

/-- A job's fault has been served, or is unresolvable: then it ends with status 5 at once (R187). -/
def State.jobVerdict (s : State) (i : Fin 4) (j : MdecJob) (ok : Bool) (va : DWord) : State :=
  if ok then s.setJob i (some { j with held := false })
  else
    let j := { j with held := false, fault := some (.pageNotPresent, va.toNat) }
    if j.stat then (s.setJob i (some { j with fin := true })).jobStage i 0
    else ((s.setJob i (some { j with stat := true })).jobStage i 0).jobStage i 0

/-- A media decode engine reads a granule of its bitstream ahead (R257). -/
def State.peekJob (s : State) (m : BitVec 2) (g : Nat) : State :=
  match s.media[(⟨m.toNat, m.isLt⟩ : Fin 4)].job with
  | none => s
  | some j => if j.held || j.bits.isSome then s else s.ahead s.here j.who .glob g

end Sys2Proof.Machine
end

