-- ==== Sys2Proof/Machine/Coll.lean ====
section
/-!
DEFINITION. Collectives (R183, R289 to R297, R300): COLL's checks, the walk, what arrives and joins the Termites' queues,
staging and combination, reports and events.
-/

namespace Sys2Proof.Machine

/-! ### The record (R290) -/

def crOp (r : List Byte) : Nat := fieldAt r 0 1
def crType (r : List Byte) : EType := (EType.ofCode (fieldAt r 1 1)).getD .f32
def crLevels (r : List Byte) : Nat := fieldAt r 2 1
/-- The target of event j: 0 SRC_FREE, 1 LOCAL_DONE, 2 ALL_DONE. -/
def crEvent (r : List Byte) (j : Nat) : Nat := fieldAt r (3 + j) 1
def crBytes (r : List Byte) : Nat := fieldAt r 6 2 * 128
def crSrc (r : List Byte) : Nat := fieldAt r 8 8
def crDst (r : List Byte) : Nat := fieldAt r 16 8
def crGroup (r : List Byte) : Nat := fieldAt r 24 8
def crEvBase (r : List Byte) : Nat := fieldAt r 32 8
def crExpect (r : List Byte) : Nat := fieldAt r 40 4
def crG (r : List Byte) : Nat := fieldAt r 44 2
def crPeerBase (r : List Byte) : Nat := fieldAt r 46 2
def crCollid (r : List Byte) : Word := BitVec.ofNat 32 (fieldAt r 48 4)

def lvBound (r : List Byte) (l : Nat) : Nat := fieldAt r (56 + 12 * l) 2
def lvCoef (r : List Byte) (l : Nat) : Int := (BitVec.ofNat 16 (fieldAt r (58 + 12 * l) 2)).toInt
def lvSstr (r : List Byte) (l : Nat) : Int := (BitVec.ofNat 32 (fieldAt r (60 + 12 * l) 4)).toInt
def lvDstr (r : List Byte) (l : Nat) : Int := (BitVec.ofNat 32 (fieldAt r (64 + 12 * l) 4)).toInt

/-- Element types that an operation accepts (R291). -/
def crTypeOk (op ty : Nat) : Bool :=
  match op with
  | 0 => decide (ty ≤ 12)
  | 1 => ty == 8
  | 2 => ty == 7
  | 3 => ty == 4
  | 4 => ty == 4 || ty == 5 || ty == 7 || ty == 8
  | 5 => ty == 4 || ty == 5 || ty == 7 || ty == 8
  | _ => false

/-- Check 1 of R292. -/
def crFieldsOk (r : List Byte) : Bool :=
  crTypeOk (crOp r) (fieldAt r 1 1) && decide (1 ≤ crLevels r) && decide (crLevels r ≤ 6) &&
  (List.range 3).all (fun j => crEvent r j % 4 != 3 && crEvent r j / 4 % 4 == 0) &&
  fieldAt r 6 2 != 0 && decide (1 ≤ crG r) && decide (crG r ≤ 4096) && decide (crPeerBase r < crG r) && zeroAt r 52 4 &&
  (List.range 6).all (fun l => if l < crLevels r then lvBound r l != 0 else zeroAt r (56 + 12 * l) 12)

/-- Check 2 of R292. -/
def crAligned (r : List Byte) : Bool :=
  crGroup r % 4 == 0 && (crEvBase r % 8 == 0 || (List.range 3).all (fun j => crEvent r j % 4 != 2))

/-! ### Member words (R289) -/

def memberCore (w : Word) : CoreId := w.setWidth 7
def memberDev (w : Word) : Nat := fld w 16 9
def memberOk (w : Word) : Bool := w &&& 0x01FF007F == w

/-- A core's member word. -/
def State.memberWord (s : State) (c : CoreId) : Word := BitVec.ofNat 32 (c.toNat + 2 ^ 16 * s.devid.toNat)

/-- Check 4 of R292. -/
def groupOk (g : List Word) (s : State) : Bool :=
  g.contains (s.memberWord s.actCore) &&
    g.all (fun w => memberOk w && (memberDev w != s.devid.toNat || s.present (memberCore w)))

/-- Distinct members in ascending rank (R290). -/
def distinct : List Word → List Word → List Word
  | _, [] => []
  | seen, w :: ws => if seen.contains w then distinct seen ws else w :: distinct (w :: seen) ws

/-- A member's rank: the lowest index that names it. -/
def rankOf (g : List Word) (w : Word) : Nat := (g.findIdx? (· == w)).getD 0

/-! ### Issue (R183, R292) -/

/-- Words of a run of bytes. -/
def groupWords (bs : List Byte) : List Word := (List.range (bs.length / 4)).map (fun i => BitVec.ofNat 32 (fieldAt bs (4 * i) 4))

/-- What COLL finds at issue: the record and its group table, or the failing check. -/
def collRead (x : BitVec 4) (s : State) : Except Issue (List Byte × List Word) :=
  let va := s.areg x
  if ((s.here).eng s.actEng).hyp != 0 then .error (.fault .hypAtomic 0)
  else if va.toNat % 128 != 0 then .error (.fault .misaligned va)
  else
    match s.readRecord va 128 with
    | .error i => .error i
    | .ok r =>
      if !crFieldsOk r then .error (.fault .reservedField va)
      else if !crAligned r then .error (.fault .misaligned va)
      else
        match s.firstFault s.engWho [{ kind := .load, group := 0, va := crGroup r, n := 4 * crG r }] with
        | some (f, a) => .error (f.issue (BitVec.ofNat 64 a))
        | none =>
          match s.load s.engWho .load (crGroup r) (4 * crG r) with
          | .error (f, a) => .error (f.issue (BitVec.ofNat 64 a))
          | .ok (bs, _) => if groupOk (groupWords bs) s then .ok (r, groupWords bs) else .error (.fault .reservedField va)

/-- Replaces an instance. -/
def State.setInst (s : State) (i : CollInst) : State :=
  { s with colls := s.colls.map (fun j => if j.num == i.num then i else j) }

/-- The instance of a number. -/
def State.inst (s : State) (num : Nat) : Option CollInst := s.colls.find? (fun j => j.num == num)

/-- Whether a member can be reached from another of this device: over the link between their dies, or through the ports to
another device (R9, R289, R314). -/
def State.memberReached (s : State) (c : CoreId) (w : Word) : Bool :=
  if memberDev w = s.devid.toNat then s.linkUp (dieOf c) (dieOf (memberCore w)) else s.devReached (dieOf c) (memberDev w)

/-- Whether an instance still acts: its task exists, or it has raised LOCAL_DONE (log 26). -/
def State.instAlive (s : State) (i : CollInst) : Bool := i.localDone || (s.taskCore i.slot i.uid).isSome

/-- An engine fault on the sequencer that issued a collective, if its task is still there (R296, R297, R300). -/
def State.collFault (s : State) (i : CollInst) (c : Cause) (tval : DWord) : State :=
  s.onTask i.slot i.uid (fun k => k.post
    { eng := some (xferEng i.sts), serial := i.serial, cause := c, tval := tval, waddr := i.waddr, frag := i.frag,
      tag := i.tag, hyp := 0 })

/-! ### Events (R297) -/

/-- Bits of an event target. -/
def evKind (e : Nat) : Nat := e % 4
def evSem (e : Nat) : BitVec 4 := BitVec.ofNat 4 (e / 16)

/-- A kind 1 target: +1 to a semaphore of the issuing task, wherever it is; an overflow is an engine fault. -/
def State.raiseSem (s : State) (i : CollInst) (n : BitVec 4) : State :=
  match s.taskCore i.slot i.uid with
  | none => s
  | some k =>
    match semSum (k.sem n) 1 with
    | some v => s.onTask i.slot i.uid (fun k => k.setSem n v)
    | none => s.collFault i .semOverflow 1

/-- A kind 2 target: +1 to the event at an address; V = 0 is offered to the shadow control context of the issuing
core, any other fault loses the increment. -/
def State.raiseWord (s : State) (i : CollInst) (va : DWord) : State :=
  match s.access i.who .atomic va.toNat 8 with
  | .ok l => (s.bumpEvent i.who l va.toNat 1).fillTlb i.who va.toNat
  | .error (.shadow ats) =>
    if s.shlim = 0 then s.collFault i .pageNotPresent va
    else
      { s.onCore i.core (fun k => k.offer { who := .collEvent s.collNum, va := va, ats := ats, arr := s.clock }) with
        collEvents := s.collEvents ++ [{ id := s.collNum, va := va, inst := i }], collNum := s.collNum + 1 }
  | .error (.trap c) => s.collFault i c va
  | .error (.tag w) => (s.tagError w).collFault i .eccUncorr va

/-- Event j of an instance. -/
def State.raiseEv (s : State) (i : CollInst) (j : Nat) : State :=
  let e := crEvent i.record j
  if evKind e = 1 then s.raiseSem i (evSem e)
  else if evKind e = 2 then s.raiseWord i (BitVec.ofNat 64 (crEvBase i.record + 8 * j))
  else s

/-! ### The end of a collective's step -/

/-- Whether the walk of an instance has ended. -/
def CollInst.total (i : CollInst) : Nat :=
  (List.range (crLevels i.record)).foldl (fun n l => n * lvBound i.record l) 1

/-- The step of an instance is no more when SRC_FREE has been raised and its sequencer counts as idle: LOCAL_DONE, or a
failed destination (R17, R300). -/
def State.closeOp (s : State) (i : CollInst) : State :=
  if i.localDone || i.failed then
    s.onTask i.slot i.uid (fun k =>
      k.onXfer i.sts (fun x => { x with ops := x.ops.filter (fun o => !(o.id == i.op && o.completed)) }))
  else s

/-- An instance whose walk has ended and whose ALL_DONE has been raised is no more. -/
def State.closeInst (s : State) (i : CollInst) : State :=
  if i.allDone && decide (i.total ≤ i.walk) then { s with colls := s.colls.filter (fun j => j.num != i.num) }
  else s.setInst i

/-- LOCAL_DONE (R296): its event, and a report to the root, or LINK_DOWN with the root's word. -/
def State.localDone (s : State) (i : CollInst) : State :=
  let i := { i with localDone := true }
  let root := (i.group[0]?).getD 0
  let s := ((s.setInst i).closeOp i).raiseEv i 1
  if !s.memberReached i.core root then s.collFault i .linkDown (root.setWidth 64)
  else if memberDev root = s.devid.toNat then
    { s with collReports := s.collReports ++
      [{ ctx := i.who.ctx, collid := crCollid i.record, tgt := memberCore root, member := s.memberWord i.core }] }
  else s

/-- A collective's instance is registered, and its step joins those in flight; with EXPECT = 0 LOCAL_DONE is raised at
once (R295, R296). -/
def startColl (t : Tok) (r : List Byte) (g : List Word) (u : State) : State :=
  let e := u.actEng
  let k := u.here
  let run := (k.eng e).cur.getD default
  let i : CollInst :=
    { num := u.collNum, core := u.actCore, slot := k.theTask.slot, uid := k.theTask.uid, sts := u.actSts,
      op := (k.eng e).nextOp, record := r, group := g, waddr := (k.eng e).pc, frag := run.cmd.frag,
      tag := run.cmd.tag, serial := run.serial,
      who := { u.engWho with agent := .op k.theTask.uid u.actSts (k.eng e).nextOp, late := false } }
  let u := { u with colls := u.colls ++ [i], collNum := u.collNum + 1 }
  let u := u.onHere (fun k => k.startOp e u.actSts t (.coll i.num false))
  if crExpect r = 0 then u.localDone i else u

/-- COLL (R183). -/
def execColl (t : Tok) (x : BitVec 4) (s : State) : Out :=
  engWord s t (fun u => issueOf (collRead x u)) (fun u =>
    match collRead x u with
    | .error _ => u
    | .ok (r, g) => startColl t r g u)

/-! ### The walk (R293) -/

/-- Index of level l at walk index w; level 0 runs fastest. -/
def levelIndex (r : List Byte) (w l : Nat) : Nat :=
  w / (List.range l).foldl (fun n k => n * lvBound r k) 1 % lvBound r l

/-- The sum over the levels of a stride times its index. -/
def walkSum (r : List Byte) (w : Nat) (f : Nat → Int) : Int :=
  (List.range (crLevels r)).foldl (fun (a : Int) l => a + f l * levelIndex r w l) 0

/-- Peer, source and destination of a transfer. -/
def CollInst.peer (i : CollInst) : Word :=
  let n : Int := (crPeerBase i.record + walkSum i.record i.walk (lvCoef i.record)) % (crG i.record : Int)
  (i.group[n.toNat]?).getD 0

/-- The source address of the next transfer. -/
def CollInst.saddr (i : CollInst) : DWord := BitVec.ofNat 64 (crSrc i.record) + BitVec.ofInt 64 (walkSum i.record i.walk (lvSstr i.record))
/-- The destination address of the next transfer. -/
def CollInst.daddr (i : CollInst) : DWord := BitVec.ofNat 64 (crDst i.record) + BitVec.ofInt 64 (walkSum i.record i.walk (lvDstr i.record))

/-- The first 128-byte unit of a transfer's source whose read fails (R179, R293). -/
def State.unitFault (s : State) (who : Who) (a : DWord) (units : Nat) : Option (AccFault × Nat) :=
  (List.range units).findSome? (fun u =>
    s.firstFault who [{ kind := .load, group := 0, va := (a + BitVec.ofNat 64 (128 * u)).toNat, n := 128 }])

/-- A transfer's bytes, unit by unit. -/
def State.unitRead (s : State) (who : Who) (a : DWord) (units : Nat) : List Byte :=
  (List.range units).flatMap (fun u =>
    match s.load who .load (a + BitVec.ofNat 64 (128 * u)).toNat 128 with
    | .ok (bs, _) => bs
    | .error _ => [])

/-- A transfer goes to its peer (R289, R300): to a member of this device, or out; to an unreachable one it is dropped, with
LINK_DOWN on the sender. DEDUCED (log 39): the walk goes on, and the sender's own instance does not fail. -/
def State.sendColl (s : State) (i : CollInst) (bs : List Byte) : State :=
  let peer := i.peer
  if !s.memberReached i.core peer then s.collFault i .linkDown i.daddr
  else if memberDev peer = s.devid.toNat then
    let x : InColl :=
      { ctx := i.who.ctx, tgt := memberCore peer, collid := crCollid i.record, rank := rankOf i.group (s.memberWord i.core),
        walk := i.walk, daddr := i.daddr, bytes := bs }
    { s with collData := s.collData ++ [{ id := s.collNum, x := x }], collNum := s.collNum + 1 }
  else s

/-- SRC_FREE, or a walk cut short: the step has raised it and its tokens are pushed, poisoned or not. -/
def State.endWalk (s : State) (i : CollInst) (o : Op) (poison : Bool) : State :=
  let i := { i with walk := i.total, held := false }
  let s := s.onTask i.slot i.uid (fun k =>
    (k.onXfer i.sts (fun x => x.setOp { o with kind := .coll i.num true })).settle (xferEng i.sts) o.id poison)
  (s.closeOp i).closeInst i

/-- A source read that cannot be resolved ends the walk (R300, R179). -/
def State.walkFault (s : State) (i : CollInst) (o : Op) (cause : Cause) (va : Nat) : State :=
  let s := s.endWalk i o true
  if o.sig then s else s.collFault i cause (BitVec.ofNat 64 va)

/-- The walker reads its sources from the core that the issuing task stands on. -/
def CollInst.sourceWho (i : CollInst) (c : CoreId) : Who := { i.who with die := dieOf c, core := some c }

/-- The walk of step `id`, at most n transfers (R293): each reads its source and is sent; the last raises SRC_FREE. -/
def State.walkColl (s : State) (c : CoreId) (e : Engine) (sts : Bool) (id : Nat) : Nat → State
  | 0 => s
  | n + 1 =>
    match ((s.core c).xfer sts).op id with
    | none => s
    | some o =>
      match o.kind with
      | .copy _ => s
      | .mdec => s
      | .coll num free =>
        match s.inst num with
        | none => s
        | some i =>
          if free || i.held || !((s.core c).xfer sts).settledBefore id then s
          else
            let who := i.sourceWho c
            match s.unitFault who i.saddr (crBytes i.record / 128) with
            | some (.shadow ats, a) =>
              if s.shlim = 0 then s.walkFault i o .pageNotPresent a
              else
                (s.setInst { i with held := true }).onCore c (fun k =>
                  k.offer { who := .step e id, va := BitVec.ofNat 64 a, ats := ats, arr := s.clock })
            | some (.trap cause, a) => s.walkFault i o cause a
            | some (.tag w, a) => (s.tagError w).walkFault i o .eccUncorr a
            | none =>
              let s := (s.fillAll who (pagesOf i.saddr.toNat (crBytes i.record))).sendColl i
                (s.unitRead who i.saddr (crBytes i.record / 128))
              if i.walk + 1 < i.total then (s.setInst { i with walk := i.walk + 1 }).walkColl c e sts id n
              else (s.raiseEv i 0).endWalk i o false

/-- SRC_FREE (R293): the walk of a collective emits up to `steps` transfers; when its last source read has returned it
raises SRC_FREE. -/
def execSrcFree (c : CoreId) (e : Engine) (op steps : Nat) (s : State) : Out :=
  match stsOf e with
  | none => .next s
  | some sts => if s.halts c then .next s else .next (s.walkColl c e sts op steps)

/-- A step of LDS or STS reads a granule of its source ahead (R45, R257): a copy, or a collective's walk. -/
def State.peekStep (s : State) (c : CoreId) (sts : Bool) (op g : Nat) : State :=
  match ((s.core c).xfer sts).op op with
  | none => s
  | some o =>
    match o.kind with
    | .copy _ => s.peekCopy c sts op g
    | .mdec => s
    | .coll num free =>
      match s.inst num with
      | none => s
      | some i => if free || i.held || s.halts c then s else s.ahead (s.core c) (i.sourceWho c) .glob g

/-! ### Arrivals (R294, R295) -/

/-- The instance that an arrival belongs to: the oldest of its COLLID at its member core that EXPECT arrivals do not
belong to already. -/
def State.matchInst (s : State) (x : InColl) : Option CollInst :=
  s.colls.find? (fun i =>
    s.instAlive i && i.core == x.tgt && i.who.ctx == x.ctx && crCollid i.record == x.collid &&
      decide (i.taken < crExpect i.record))

/-- A destination is translated at its member (R289); what is written to a home elsewhere may be performed later (R261). -/
def CollInst.destWho (i : CollInst) : Who :=
  { i.who with die := dieOf i.core, core := some i.core, hyp := 0, agent := .coll i.num, late := true }

/-- Replaces an arrival. -/
def State.setArrival (s : State) (a : CollArrival) : State :=
  { s with collData := s.collData.map (fun b => if b.id == a.id then a else b) }

/-- An arrival whose destination cannot be resolved is dropped, and its instance fails; TVAL is the transfer's destination
address (R300). -/
def State.dropArrival (s : State) (a : CollArrival) (i : CollInst) (c : Cause) : State :=
  let i := { i with failed := true }
  let s := { s.setInst i with collData := s.collData.filter (fun b => b.id != a.id) }
  (s.closeOp i).collFault i c a.x.daddr

/-- A destination fault: V = 0 goes to the shadow control context of the member's core (R300). -/
def State.arrivalFault (s : State) (a : CollArrival) (i : CollInst) (f : AccFault) (va : Nat) : State :=
  match f with
  | .trap c => s.dropArrival a i c
  | .tag w => (s.tagError w).dropArrival a i .eccUncorr
  | .shadow ats =>
    if s.shlim = 0 then s.dropArrival a i .pageNotPresent
    else
      (s.setArrival { a with held := true }).onCore i.core (fun k =>
        k.offer { who := .collDst a.id, va := BitVec.ofNat 64 va, ats := ats, arr := s.clock })

/-- A run of n bytes cut at 128-byte lines; at most `fuel` of them. -/
def cutLines : Nat → Nat → Nat → List (Nat × Nat)
  | 0, _, _ => []
  | fuel + 1, va, n =>
    if n = 0 then []
    else
      let k := min n (128 - va % 128)
      (va, k) :: cutLines fuel (va + k) (n - k)

/-- The lines of a transfer's destination. -/
def destLines (x : InColl) : List (Nat × Nat) := cutLines (x.bytes.length / 128 + 2) x.daddr.toNat x.bytes.length

/-- Line j of a transfer, with the leaf it goes through and its place when it is staged. -/
def CollArrival.lineAt (a : CollArrival) (p : Nat × Nat) (l : Leaf) (slot : Option Nat) : StagedLine :=
  { arr := a.id, rank := a.x.rank, walk := a.x.walk, base := a.x.daddr.toNat, len := a.x.bytes.length, va := p.1, leaf := l,
    bytes := (a.x.bytes.drop (p.1 - a.x.daddr.toNat)).take p.2, slot := slot }

/-! ### Staging (R295) -/

/-- Lines that the memory-side cache of a stack stages: 16 MiB. -/
def stageLines : Nat := 2 ^ 24 / 128

/-- The lines staged for reductions, and those that wait in the Termites' queues to be. -/
def State.stagedLines (s : State) : List (CollInst × StagedLine) :=
  s.colls.flatMap (fun i =>
    (i.staged ++ (s.termite.toList.flatMap (fun q => q.filterMap (fun m =>
      match m with
      | .line l => if l.stage && l.inst == i.num then some l.line else none
      | .ctl _ => none
      | .remote _ => none)))).map (fun p => (i, p)))

/-- Whether a stack's cache has room for one more staged line; only its own stack's cache stages a line of HBM. -/
def State.cacheRoom (s : State) (l : Leaf) : Bool :=
  !s.away l &&
    decide ((s.stagedLines.filter (fun p => p.2.slot.isNone && stackOf p.2.leaf.pa == stackOf l.pa)).length < stageLines)

/-- The lowest free line of the staging region that an instance's context descriptor names. DESIGN CHOICE (log 62): which
line of the region a staged line takes. -/
def State.regionRoom (s : State) (i : CollInst) : Option Nat :=
  let size := i.who.desc.stagsize.toNat / 128
  let used := s.stagedLines.filterMap (fun p => if p.1.who.ctx == i.who.ctx then p.2.slot else none)
  (List.range (min size (used.length + 1))).find? (fun k => !used.contains k)

/-- Where a line is staged: in the cache of its stack, else in the staging region; none while both are full. -/
def State.stageAt (s : State) (i : CollInst) (l : Leaf) : Option (Option Nat) :=
  if s.cacheRoom l then some none else (s.regionRoom i).map some

/-- What the staging region holds while it is in use is open: free bytes (log 62). -/
def State.useRegion (s : State) (i : CollInst) (slot : Option Nat) : State :=
  match slot with
  | none => s
  | some k =>
    let pa := i.who.desc.stagbase.toNat + 128 * k
    if s.paExists pa then
      let (n, s) := s.drawFree
      (s.retag i.who.world.toNat pa 128).commit pa ((List.range 128).map (fun j => Config.freeByte n j))
    else s

/-! ### What a line does when it is performed -/

/-- An arrival whose every line has been performed counts, and is on its way no more (R295). -/
def State.countLine (s : State) (num arr : Nat) : State :=
  match s.collData.find? (fun a => a.id == arr) with
  | none => s
  | some a =>
    if a.done + 1 < (destLines a.x).length then s.setArrival { a with done := a.done + 1 }
    else
      let s := { s with collData := s.collData.filter (fun b => b.id != arr) }
      match s.inst num with
      | none => s
      | some i => s.setInst { i with counted := i.counted + 1 }

/-- A line is written, or staged (R295). -/
def State.performLine (s : State) (l : CollLine) : State :=
  let s :=
    if l.stage then
      match s.inst l.inst with
      | none => s
      | some i => (s.setInst { i with staged := i.staged ++ [l.line] }).useRegion i l.line.slot
    else s.writeLeaf l.who l.line.leaf l.line.va l.line.bytes
  s.countLine l.inst l.line.arr

/-- The Termite of a line's stack takes a command, unless its queue is full (R294). -/
def State.enqueueTermite (s : State) (pa : Nat) (m : TermOp) : Option State :=
  if h : stackOf pa < 12 then
    if termiteDepth ≤ (s.termite[stackOf pa]'h).length then none
    else some { s with termite := s.termite.set (stackOf pa) (s.termite[stackOf pa]'h ++ [m]) h }
  else none

/-- A line reaches the Termite of its home stack; one whose home is no stack of this device is performed at once. None
while the queue is full (R294), or the staging places are (R295). -/
def State.sendLine (s : State) (a : CollArrival) (i : CollInst) (p : Nat × Nat) (l : Leaf) : Option State :=
  let go (slot : Option Nat) (stage : Bool) : Option State :=
    let m : CollLine := { inst := i.num, who := i.destWho, line := a.lineAt p l slot, stage := stage }
    if s.away l then some (s.performLine m) else s.enqueueTermite l.pa (.line m)
  if crOp i.record = 0 then go none false else (s.stageAt i l).bind (fun slot => go slot true)

/-- The rest of an arrival's lines that its Termites have not accepted. -/
def CollArrival.rest (a : CollArrival) : List (Nat × Nat) := (destLines a.x).drop a.sent

/-- The next lines of an arrival at its instance, at most n (R294, R295): the rest of its destination is checked, and each
line is sent in order until a queue is full. -/
def State.receive (s : State) (id : Nat) : Nat → State
  | 0 => s
  | n + 1 =>
    match s.collData.find? (fun a => a.id == id) with
    | none => s
    | some a =>
      match a.inst.bind s.inst with
      | none => s
      | some i =>
        match a.rest with
        | [] => s
        | p :: _ =>
          let who := i.destWho
          match s.firstFault who [{ kind := .store, group := 0, va := p.1, n := a.x.daddr.toNat + a.x.bytes.length - p.1 }] with
          | some (f, va) => s.arrivalFault a i f va
          | none =>
            match s.access who .store p.1 p.2 with
            | .error f => s.arrivalFault a i f p.1
            | .ok l =>
              match ((s.fillTlb who p.1).setArrival { a with sent := a.sent + 1 }).sendLine { a with sent := a.sent + 1 } i p l with
              | none => s
              | some t => t.receive id n

/-- COLL_ARRIVAL (R294, R295): a transfer reaches its member, and up to `lines` of its lines the Termites; before any
registration it is held. -/
def execCollArrival (p : Part) (s : State) : Out :=
  match s.collData[p.i]? with
  | none => .next s
  | some a =>
    if a.held then .next s
    else
      match a.inst with
      | some _ => .next (s.receive a.id p.lines)
      | none =>
        match s.matchInst a.x with
        | none => .next s
        | some inst =>
          .next (((s.setInst { inst with taken := inst.taken + 1 }).setArrival { a with inst := some inst.num }).receive a.id p.lines)

/-! ### Combination (R291, R295) -/

/-- combine(a, b) on bits. -/
def combine (op : Nat) (t : EType) (a b : Nat) : Nat :=
  match op with
  | 1 => (addIn .f32 .rne (Fmt.f32.value a) (Fmt.f32.value b)).1
  | 2 => (addIn .bf16 .rne (Fmt.bf16.value a) (Fmt.bf16.value b)).1
  | 3 => (a + b) % 2 ^ 32
  | 4 => pickOf true a b
  | _ => pickOf false a b
where
  pickOf (max : Bool) (a b : Nat) : Nat :=
    match t with
    | .i32 => if decide (intValue true 32 b < intValue true 32 a) != max then b else a
    | .u32 => if decide (b < a) != max then b else a
    | .bf16 => (minMaxF max .bf16 a b).1
    | _ => (minMaxF max .f32 a b).1

/-- Whether a staged line comes before another in the order (rank, walk index). -/
def StagedLine.before (a b : StagedLine) : Bool :=
  decide (a.rank < b.rank) || (a.rank == b.rank && (decide (a.walk < b.walk) || (a.walk == b.walk && decide (a.arr ≤ b.arr))))

/-- Staged lines in that order. -/
def sortStaged : List StagedLine → List StagedLine
  | [] => []
  | a :: as => insert a (sortStaged as)
where
  insert (a : StagedLine) : List StagedLine → List StagedLine
    | [] => [a]
    | b :: bs => if a.before b then a :: b :: bs else b :: insert a bs

/-- One staged line of each transfer, in the order (rank, walk index). -/
def heads : List Nat → List StagedLine → List StagedLine
  | _, [] => []
  | seen, a :: as => if seen.contains a.arr then heads seen as else a :: heads (a.arr :: seen) as

/-- The byte that a transfer brings to an address. -/
def stagedByte (as : List StagedLine) (arr x : Nat) : Byte :=
  match as.find? (fun a => a.arr == arr && decide (a.va ≤ x) && decide (x < a.va + a.bytes.length)) with
  | some a => (a.bytes[x - a.va]?).getD 0
  | none => 0

/-- A transfer's element at address x, when one begins there. -/
def StagedLine.elem (h : StagedLine) (as : List StagedLine) (n x : Nat) : Option Nat :=
  if h.base ≤ x && (x - h.base) % n == 0 && decide (x + n ≤ h.base + h.len) then
    some (leNat ((List.range n).map (fun j => stagedByte as h.arr (x + j))))
  else none

/-- The destination element at an address: its contributions combined in order. -/
def combined (op : Nat) (t : EType) (as : List StagedLine) (x : Nat) : Nat :=
  match (heads [] as).filterMap (fun h => h.elem as (t.bits / 8) x) with
  | [] => 0
  | v :: vs => vs.foldl (combine op t) v

/-- The combined byte at an address: that of the element of the first transfer that covers it. -/
def combinedByte (op : Nat) (t : EType) (as : List StagedLine) (x : Nat) : Byte :=
  let n := t.bits / 8
  match as.find? (fun a => decide (a.base ≤ x) && decide (x < a.base + a.len)) with
  | some a =>
    let e := x - (x - a.base) % n
    BitVec.ofNat 8 (combined op t as e / 256 ^ (x - e))
  | none => 0

/-- The destination lines of staged arrivals. -/
def stagedDests (as : List StagedLine) : List Nat := (as.map (fun a => a.va / 128)).dedup

/-- The runs of one destination line, each with its leaf. -/
def destRuns (as : List StagedLine) (ln : Nat) : List (Nat × Leaf × Nat) :=
  ((as.filter (fun a => a.va / 128 == ln)).map (fun a => (a.va, a.leaf, a.bytes.length))).dedup

/-- One combined line of an instance is written. -/
def State.writeCombined (s : State) (i : CollInst) (as : List StagedLine) (ln : Nat) : State :=
  (destRuns as ln).foldl (fun t p =>
    t.writeLeaf i.destWho p.2.1 p.1
      ((List.range p.2.2).map (fun j => combinedByte (crOp i.record) (crType i.record) as (p.1 + j)))) s

/-- Up to n more destination lines are combined; after the last, nothing is staged any more. -/
def State.combineLines (s : State) (i : CollInst) (n : Nat) : State :=
  let as := sortStaged i.staged
  let all := stagedDests as
  let s := ((all.drop i.merged).take n).foldl (fun t ln => t.writeCombined i as ln) s
  if all.length ≤ i.merged + n then s.setInst { i with merged := 0, staged := [] }
  else s.setInst { i with merged := i.merged + n }

/-- COLL_COMBINE (R295): a member that has counted EXPECT arrivals combines up to `lines` of their destination lines. -/
def execCollCombine (p : Part) (s : State) : Out :=
  match s.colls[p.i]? with
  | none => .next s
  | some inst =>
    if s.instAlive inst && !inst.staged.isEmpty && inst.counted == crExpect inst.record then .next (s.combineLines inst p.lines)
    else .next s

/-- Whether the core of an instance's task has its clocks held: its semaphores do not change (R66). -/
def State.instWaits (s : State) (i : CollInst) : Bool :=
  match s.whereIs i.uid with
  | some c => (s.core c).hold
  | none => false

/-- LOCAL_DONE (R296): every arrival counted and every combined line written, at its home (R261). -/
def execLocalDone (i : Nat) (s : State) : Out :=
  match s.colls[i]? with
  | none => .next s
  | some inst =>
    if s.instAlive inst && !inst.localDone && !inst.failed && inst.counted == crExpect inst.record && inst.staged.isEmpty &&
        s.quiet (.coll inst.num) && !s.instWaits inst then
      .next (s.localDone inst)
    else .next s

/-! ### Reports and notifications (R296) -/

/-- Removes the i-th entry of a list. -/
def dropAt {α : Type} (i : Nat) (l : List α) : List α := l.take i ++ l.drop (i + 1)

/-- The root instance that a report counts for: the oldest of its COLLID that has not heard from the member. -/
def State.rootInst (s : State) (m : CollMsg) : Option CollInst :=
  s.colls.find? (fun i =>
    s.instAlive i && i.core == m.tgt && i.who.ctx == m.ctx && crCollid i.record == m.collid && !i.notified &&
      (i.group[0]?) == some (s.memberWord i.core) && !i.reports.contains m.member)

/-- The root notifies one member. -/
def State.notify (s : State) (i : CollInst) (w : Word) : State :=
  if !s.memberReached i.core w then s.collFault i .linkDown (w.setWidth 64)
  else if memberDev w = s.devid.toNat then
    { s with collNotes := s.collNotes ++ [{ ctx := i.who.ctx, collid := crCollid i.record, tgt := memberCore w, member := 0 }] }
  else s

/-- COLL_REPORT (R296): a report reaches the root, which notifies every member once it has all of them. -/
def execCollReport (i : Nat) (s : State) : Out :=
  match s.collReports[i]? with
  | none => .next s
  | some m =>
    match s.rootInst m with
    | none => .next s
    | some r =>
      let r := { r with reports := r.reports ++ [m.member] }
      let all := (distinct [] r.group).all (fun w => r.reports.contains w)
      let s := { s with collReports := dropAt i s.collReports }
      if all then .next ((distinct [] r.group).foldl (fun t w => t.notify r w) (s.setInst { r with notified := true }))
      else .next (s.setInst r)

/-- ALL_DONE (R296): a notification reaches its member, which has raised LOCAL_DONE. -/
def execAllDone (i : Nat) (s : State) : Out :=
  match s.collNotes[i]? with
  | none => .next s
  | some m =>
    match s.colls.find? (fun j =>
      j.core == m.tgt && j.who.ctx == m.ctx && crCollid j.record == m.collid && j.localDone && !j.allDone) with
    | none => .next s
    | some j =>
      if s.instWaits j then .next s
      else
        let s := { s with collNotes := dropAt i s.collNotes }
        let j := { j with allDone := true }
        .next ((s.closeInst j).raiseEv j 2)

end Sys2Proof.Machine
end

