-- ==== Sys2Proof/Machine/Termite.lean ====
section
/-!
DEFINITION. What a Termite performs from its queue (R58, R259, R294, R298), and the accesses of other devices to memory of
this one (R63, R289, R298).
-/

namespace Sys2Proof.Machine

/-! ### Accesses of other devices (R63, R298) -/

/-- Bytes and kind of an access from another device. -/
def remoteKind : RemoteAcc → AccKind
  | .load _ _ => .load
  | .store _ _ => .store
  | .amo _ _ _ _ _ => .atomic

def remoteAddr : RemoteAcc → Nat
  | .load a _ => a.toNat
  | .store a _ => a.toNat
  | .amo a _ _ _ _ => a.toNat

def remoteSize : RemoteAcc → Nat
  | .load _ n => n.toNat
  | .store _ bs => bs.length
  | .amo _ _ sz _ _ => amoBytes sz

/-- Whether what an access needs can be reached from the ports: its home, and the core whose window serves it (R49,
R331). -/
def State.remoteReached (s : State) (pa : Nat) : Bool :=
  s.nudonUp (homeDie pa) &&
    (match s.windowAt pa with
     | some (w, _) => s.linkUp (homeDie pa) (dieOf w.core)
     | none => !isPcie pa || s.linkUp (homeDie pa) 4)

/-- Whether an access of another device reads uncorrectable data: of memory, or of the buffer of a window that serves it
(R312). -/
def State.remoteBad (s : State) (l : Leaf) (win : Option (Window × Nat)) (k : AccKind) (n : Nat) : Bool :=
  match win with
  | some (w, off) => k != .store && ((s.core w.core).badAt w.buf off n).isSome
  | none => s.badData l k n

/-- The checks of this device's own map (R40, R49, R50, R312): the frame exists, a window takes the access, the home can
be reached, the data can be read. -/
def State.remoteBar (s : State) (a : RemoteAcc) : Option Cause :=
  let pa := remoteAddr a
  let n := remoteSize a
  let l : Leaf := { pa := pa, r := true, w := true, x := false, mside := false, filter := false, enc := 0, fab := false, dev := none }
  let win := s.windowAt pa
  let onC := match win with
    | some (w, _) => w.buf == .cbuf
    | none => false
  if n = 0 || !s.paExists pa || !s.paExists (pa + n - 1) || 2 ^ 16 < pa % 2 ^ 16 + n then some .pagePerm
  else if remoteKind a == .store && onC then some .pagePerm
  else if remoteKind a == .atomic && win.isSome then some .engineDenied
  else if remoteKind a == .atomic && isPcie pa then some .pagePerm
  else if !s.remoteReached pa then some .linkDown
  else if s.remoteBad l win (remoteKind a) n then some .eccUncorr
  else none

/-- The bytes at a physical address as another device reads them. -/
def State.homeBytes (s : State) (pa n : Nat) : List Byte := (List.range n).map (fun i => s.deviceByte 0 (pa + i))

/-- An access of another device at its home, as one point (R253), with its answer. -/
def State.performRemote (s : State) (a : RemoteAcc) : State :=
  match a with
  | .load pa n => s.dropAhead.reply (.bytes (s.homeBytes pa.toNat n.toNat))
  | .store pa bs => (s.homeStore pa.toNat bs).reply (.bytes [])
  | .amo pa op sz val exp =>
    let old := s.homeBytes pa.toNat (amoBytes sz)
    let t := match amoNew op sz (BitVec.ofNat 64 (leNat old)) val exp with
      | some v =>
        let t := s.homeStore pa.toNat (storeBytes (amoBytes sz) v)
        if amoBumps op sz then t.wakeEvent none pa.toNat v else t
      | none => s.dropAhead
    t.reply (.bytes old)

/-- REMOTE_HOME_ACCESS (R63, R289, R298): the access is translated again against this device's map. One to an MSIDE line
joins the queue of its Termite, which holds the link while it is full; any other is performed at its home. -/
def execRemoteHomeAccess (_dev : BitVec 9) (r : RemoteReq) (s : State) : Out :=
  let a := r.acc
  match s.remoteBar a with
  | some c => .next (s.reply (.denied c))
  | none =>
    if r.mside && decide (remoteAddr a < hbmEnd) then .next ((s.enqueueTermite (remoteAddr a) (.remote a)).getD s)
    else .next (s.performRemote a)

/-! ### Termite (R58, R294) -/

/-- The answer of a CTL access reaches its CTL, which retires; it waits while the core's clocks are held or its world is
sealed (R66, R259, R327). -/
def State.answerCtl (s : State) (m : MsideCmd) (r : Option (BitVec 5 × DWord)) : State :=
  if s.awaits m.core m.uid then
    if (s.core m.core).stopped then
      s.onCore m.core (fun k => k.onCtl (fun x => { x with answer := some r }))
    else { s with actCore := m.core, actSeq := .ctl }.takeAnswer r
  else s

/-- A Termite performs a command. -/
def State.performTermite (s : State) (m : TermOp) : State :=
  match m with
  | .ctl m =>
    ((s.memEffect m.who m.leaf m.va.toNat m.op).dropSeen m.who.agent).answerCtl m (s.memResult m.who m.leaf m.va.toNat m.op)
  | .remote a => s.performRemote a
  | .line l => s.performLine l

/-- The lines that a command touches. -/
def TermOp.lines (m : TermOp) : List Nat :=
  match m with
  | .ctl m => linesOf m.leaf.pa m.op.size
  | .remote a => linesOf (remoteAddr a) (remoteSize a)
  | .line l => linesOf l.line.leaf.pa l.line.bytes.length

/-- Whether an earlier command of a queue stands before command n for one of its lines (R294). -/
def behindAny (q : List TermOp) (m : TermOp) : Bool := q.any (fun e => e.lines.any (fun ln => m.lines.contains ln))

/-- TERMITE_COMMAND (R58, R294, R298): the Termite of a stack performs the command at a place of its queue, if it is the oldest for its
line. -/
def execTermiteCommand (p : QueuePos) (s : State) : Out :=
  if h : p.st.toNat < 12 then
    let q := s.termite[p.st.toNat]'h
    match q[p.n]? with
    | none => .next s
    | some m =>
      if behindAny (q.take p.n) m then .next s
      else .next ({ s with termite := s.termite.set p.st.toNat (q.eraseIdx p.n) h }.performTermite m)
  else .next s

end Sys2Proof.Machine
end

