-- ==== Sys2Proof/Machine/Platform.lean ====
section
/-!
DEFINITION. Platform: BAR0 (R336, R337), context commands (R304), TLB invalidation (R64), resets (R334, R335, R315), link
failure (R314), throttling (R333) and management (R338).
-/

namespace Sys2Proof.Machine

/-! ### TLB invalidation (R64, R337) -/

/-- Whether the page at an address, of 512 MiB or of 64 KiB, meets the range that an invalidation names. -/
def pageInRange (big : Bool) (page addr len : Nat) : Bool :=
  let sz := if big then 2 ^ 29 else 2 ^ 16
  len == 0 || (decide (page * sz < addr + len) && decide (addr < page * sz + sz))

/-- Whether a cached translation of a context covers an address of the range. -/
def TlbEnt.covers (t : TlbEnt) (x : BitVec 6) (addr len : Nat) : Bool := t.ctx == x && pageInRange t.big t.page addr len

/-- Entries of a range are dropped. -/
def State.dropTlb (s : State) (x : BitVec 6) (addr len : Nat) : State := s.forget (fun t => t.covers x addr len)

/-- TLB_INVALIDATION (R64, R337): a write to TLBICMD; while GO is 1 it changes nothing. -/
def execTlbInvalidation (v : DWord) (s : State) : Out :=
  if s.boot != .ready || s.tlbiGo then .next s
  else .next { s with tlbiCtx := v.setWidth 6, tlbiGo := v.getLsbD 31 }

/-- Whether an access through a leaf is one that the invalidation waits for: it used an entry that covers an address of the
range (R64). -/
def State.tlbiMeets (s : State) (x : BitVec 6) (va : Nat) (l : Leaf) : Bool :=
  x == s.tlbiCtx && pageInRange l.big (if l.big then va / 2 ^ 29 else va / 2 ^ 16) s.tlbiAddr.toNat s.tlbiLen.toNat

/-- A command of a Termite that was issued under an entry of the range (R58). -/
def State.tlbiTermite (s : State) (m : TermOp) : Bool :=
  match m with
  | .ctl m => s.tlbiMeets m.who.ctx m.va.toNat m.leaf
  | .remote _ => false
  | .line l => s.tlbiMeets l.who.ctx l.line.va l.line.leaf

/-- A byte of a load under way that was issued under an entry of the range. -/
def State.tlbiLate (s : State) (x : BitVec 6) (b : LateByte) : Bool :=
  match b with
  | .here _ => false
  | .away va l => s.tlbiMeets x va l

/-- An access under way elsewhere that was issued under an entry of the range (R261). -/
def State.tlbiPost (s : State) (p : Post) : Bool :=
  match p.kind with
  | .write _ => s.tlbiMeets p.who.ctx p.va p.leaf
  | .load _ _ _ => s.tlbiMeets p.who.ctx p.va p.leaf
  | .vload _ _ ls => ls.any (fun l => l.2.2.any (s.tlbiLate p.who.ctx))

/-- Whether an address that may lie in memory is one of the range. -/
def State.tlbiByte (s : State) (x : BitVec 6) (va : Nat) (l : Option Leaf) : Bool :=
  match l with
  | some l => s.tlbiMeets x va l
  | none => false

/-- A core whose CMP has translated addresses of the range that it has yet to write: a K4 store between its accesses
(R260), a drain's converted bytes (R45). -/
def State.tlbiCmp (s : State) (k : Core) : Bool :=
  let x := k.theTask.ctx
  (match k.cmp.nib with
   | some n => n.runs.any (fun r => s.tlbiByte x r.1 r.2.1)
   | none => false) ||
  k.cmp.mq.any (fun m => m.pend.any (fun p => s.tlbiByte x p.a p.leaf))

/-- A collective that has staged lines of the range and is still to combine them (R295). -/
def State.tlbiColl (s : State) (i : CollInst) : Bool :=
  s.instAlive i && !i.failed && i.staged.any (fun l => s.tlbiMeets i.who.ctx l.va l.leaf)

/-- Whether an access that was issued under an entry of the range has yet to be performed (R58, R64). -/
def State.tlbiBusy (s : State) : Bool :=
  s.termite.any (fun q => q.any s.tlbiTermite) || s.posted.any s.tlbiPost || s.cores.any s.tlbiCmp || s.colls.any s.tlbiColl

/-- TLB_INVALIDATION_COMPLETE (R64, R337): once no access is in flight that uses an old entry, and no die is out for a
warm reset, the entries are gone and GO reads 0. -/
def execTlbInvalidationComplete (s : State) : Out :=
  if s.tlbiGo && s.diesOut.isEmpty && !s.tlbiBusy then
    .next { s.dropTlb s.tlbiCtx s.tlbiAddr.toNat s.tlbiLen.toNat with tlbiGo := false }
  else .next s

/-! ### Context commands (R304) -/

/-- CTXCMD as it reads once a command has finished: CTX, OP, RESULT, GO = 0 (R304). -/
def ctxcmdReg (x : BitVec 6) (op result : Nat) : DWord := BitVec.ofNat 64 (x.toNat + 2 ^ 6 * op + 2 ^ 32 * result)

/-- RESULT codes. -/
def ctxDone : Nat := 0
def ctxBusy : Nat := 1
def ctxDenied : Nat := 2
def ctxNotFound : Nat := 3

/-- Whether a launch or an enabled queue names a context. -/
def State.ctxInUse (s : State) (x : BitVec 6) : Bool :=
  s.slots.any (fun l => match l with
    | some l => l.ctx == x
    | none => false) ||
  s.lq.any (fun q => q.en && q.ctx == x)

/-- A context is destroyed (R304): nothing of it is left on the device; committed memory and pools are as they were. -/
def State.destroyCtx (s : State) (x : BitVec 6) : State :=
  let s := s.freeTltOver x 0 (2 ^ 56)
  let s := { s with tlt := s.tlt.filter (fun t => t.ctx != x) }
  (s.dropTlb x 0 0).onCtx x (fun _ => { })

/-- A context command finishes (R304). -/
def ctxFinish (x : BitVec 6) (op result : Nat) (s : State) : State := { s with ctxcmd := ctxcmdReg x op result }

/-- CTX_DESTROY (R304). -/
def execCtxDestroy (x : BitVec 6) (s : State) : Out :=
  if s.boot != .ready then .next s
  else if (s.holderOf x).isSome then .next (ctxFinish x 1 ctxDenied s)
  else if s.ctxInUse x then .next (ctxFinish x 1 ctxBusy s)
  else .next (ctxFinish x 1 ctxDone (s.destroyCtx x))

/-- CTX_UNLOAD (R304): the container at CTXARG stops being resident. A load is one step of the model, so none is in
progress. -/
def execCtxUnload (x : BitVec 6) (s : State) : Out :=
  if s.boot != .ready then .next s
  else if (s.holderOf x).isSome then .next (ctxFinish x 2 ctxDenied s)
  else if s.ctxInUse x then .next (ctxFinish x 2 ctxBusy s)
  else if !(s.ctx x).resident.any (fun k => k.va == s.ctxarg) then .next (ctxFinish x 2 ctxNotFound s)
  else
    .next (ctxFinish x 2 ctxDone (s.onCtx x (fun c => { c with resident := c.resident.filter (fun k => k.va != s.ctxarg) })))

/-! ### Ending tasks by a link (R314, R315) -/

/-- A launch has met a link failure (R314). -/
def State.markLink (s : State) (x : BitVec 8) (team : Nat) : State :=
  s.onSlot x (fun l =>
    { l with linkFailed := true,
             teams := l.teams.map (fun (m : Team) => if m.num == team then { m with broken := true } else m) })

/-- The trap that a link failure raises on a task's CTL: an engine fault of no one engine (R314). -/
def linkFault (v : Nat) : EngFault :=
  { eng := none, serial := 0, cause := .linkDown, tval := BitVec.ofNat 64 v, waddr := 0, frag := 0, tag := 0, hyp := 0 }

/-- LINK_DOWN on the task of a core: its engines' commands are abandoned when it is taken. -/
def State.postLink (s : State) (c : CoreId) (v : Nat) : State :=
  match (s.core c).task with
  | none => s
  | some t => (s.markLink t.slot t.team).onCore c (fun k => k.post (linkFault v))

/-- Whether a team of a launch has a task on a die, running or suspended from it. -/
def State.teamOn (s : State) (x : BitVec 8) (team d : Nat) : Bool :=
  allCores.any (fun c =>
    dieOf c == d && (match (s.core c).task with
      | some t => t.slot == x && t.team == team
      | none => false)) ||
  (match s.slot x with
   | some l => l.susp.any (fun u => dieOf u.left == d && u.core.theTask.team == team)
   | none => false)

/-- The other die's number, as a task on die d reads it; the higher one when it stands on neither (log 31). -/
def farDie (a b d : Nat) : Nat := if d = a then b else if d = b then a else max a b

/-- Every running task of a team on both dies raises LINK_DOWN (R314). -/
def State.failDiePair (s : State) (a b : Nat) : State :=
  let hit := allCores.filter (fun c =>
    match (s.core c).task with
    | some t => s.teamOn t.slot t.team a && s.teamOn t.slot t.team b
    | none => false)
  hit.foldl (fun t c => t.postLink c (farDie a b (dieOf c))) s

/-- The suspended tasks of a slot that stood on a die. -/
def State.suspFrom (s : State) (x : BitVec 8) (d : Nat) : List Suspended :=
  match s.slot x with
  | some l => l.susp.filter (fun u => dieOf u.left == d)
  | none => []

/-- Every task on a die raises LINK_DOWN with TVAL 4; those suspended from it can never return and end (R314). -/
def State.failIodLink (s : State) (d : Nat) : State :=
  let s := (allCores.filter (fun c => dieOf c == d)).foldl (fun t c => t.postLink c 4) s
  allSlots.foldl (fun t x =>
    ((t.suspFrom x d).foldl (fun r (u : Suspended) => r.markLink x u.core.theTask.team) t).killSuspended x .linkDown 4
      (fun u => dieOf u.left == d)) s

/-- UCIE_LINK_FAILURE (R314): the link between two dies, 4 standing for the IOD. -/
def execUcieLinkFailure (a b : BitVec 3) (s : State) : Out :=
  let i := min a.toNat b.toNat
  let j := max a.toNat b.toNat
  if 4 < j || i = j || s.downLinks.contains (i, j) then .next s
  else
    let s := { s with downLinks := (i, j) :: s.downLinks }
    let s := if j = 4 then s.failIodLink i else s.failDiePair i j
    .next s.settleLinks

/-! ### Resets (R334, R335, R315) -/

/-- Memory-side commands that a Termite has accepted complete (R315). -/
def State.drainTermite (s : State) (st : Nat) : State :=
  if h : st < 12 then
    let q := s.termite[st]
    q.foldl (fun t m => t.performTermite m) { s with termite := s.termite.set st [] h }
  else s

/-- Steps 5 and 6 of a warm die reset: the die's UCIe links are retrained, and it is re-admitted (R9, R315). A die
without power stays out (R332). -/
def State.readmit (s : State) (d : Nat) : State :=
  if s.tripped || !s.diesOut.contains d then s
  else { s with diesOut := s.diesOut.filter (fun e => e != d), downLinks := s.downLinks.filter (fun p => p.1 != d && p.2 != d) }

/-- WARM_DIE_RESET (R315): steps 1 to 4; steps 5 and 6 follow as an act of their own. A reset that is asked for while
another is in progress is ignored (R337). -/
def execWarmDieReset (die : BitVec 2) (s : State) : Out :=
  let d := die.toNat
  if s.boot != .ready || !s.diesOut.isEmpty then .next s
  else
    let here := allCores.filter (fun c => dieOf c == d)
    let s := here.foldl (fun t c =>
      match t.taskAt c with
      | some k => ((t.markLink k.slot k.team).killTask c .linkDown (BitVec.ofNat 64 d)).killSave c .linkDown (BitVec.ofNat 64 d)
      | none => t) s
    let s := [3 * d, 3 * d + 1, 3 * d + 2].foldl (fun t st => t.drainTermite st) s
    .next { s with diesOut := [d] }.settleLinks

/-- A core's typed buffers are zero and its granules FULL. -/
def Core.clearBuffers (k : Core) : Core :=
  { k with wbuf := [], abuf := [], cbuf := [], wEmpty := [], aEmpty := [], badSram := [] }

/-- The task of a core, running there or being saved, ends with the rest of its co-resident group (R334). -/
def State.killGang (s : State) (c : CoreId) (cause : Cause) (v : DWord) : State :=
  match s.taskAt c with
  | none => s
  | some t =>
    let cores := s.mates t
    let s := s.killSuspended t.slot cause v (fun u =>
      match s.slot t.slot with
      | some l => l.together t u.core.theTask
      | none => false)
    cores.foldl (fun r d => r.killTask d cause v) s

/-- CORE_RESET (R334): ignored for an absent core and while a reset is in progress (R337). -/
def execCoreReset (c : CoreId) (s : State) : Out :=
  if s.boot != .ready || !s.diesOut.isEmpty || !s.present c then .next s
  else .next ((s.killGang c .linkDown 5).onCore c Core.clearBuffers)

/-- A core after a warm device reset: no task, and its frame table at reset values. -/
def Core.warm (k : Core) : Core :=
  { k.vacate with shadowQ := [], serving := none, saving := none, frames := Vector.replicate 16 { },
                  cycleTab := Vector.replicate 16 { }, frame := none, frameAt := 0, sealed := false, stays := false, utlb := [] }

/-- Lifetime entries are freed (R334). -/
def State.freeAllTlt (s : State) : State :=
  let s := s.tlt.foldl (fun t e => t.freeTltOver e.ctx e.base e.len) s
  { s with tlt := [] }

/-- A TDI after a warm device reset: its registers at reset values, its state as R319 has moved it. -/
def Tdi.warm (t : Tdi) : Tdi := { t with viol := 0, ch := Vector.replicate 4 { } }

/-- Every context is as one not yet created (R334). -/
def State.freeContexts (s : State) : State := { s with ctxs := Vector.replicate 64 { } }

/-- WARM_DEVICE_RESET (R334): every task ends; launch slots, spawn pool and queues are discarded; HBM keeps its contents;
contexts, lifetime entries and TLBs are emptied; BAR0 registers return to their reset values but for the capability
registers; every locked TDI moves to ERROR. READY again when step 6 of R335 has been repeated (R337). A write to
RESETCTL while BUSY is 1 starts none (R337); a hot reset or link disable of port 0 does. DESIGN CHOICE (log 44): a die that
a warm die reset has out comes back with it, and other failed UCIe links stay failed; the specification does not say whether
the warm path trains them. -/
def execWarmDeviceReset (s : State) : Out :=
  if s.boot != .ready then .next s
  else
    let s := s.diesOut.foldl (fun t d => t.readmit d) s
    let s := (List.range 12).foldl (fun t st => t.drainTermite st) s
    let s := allCores.foldl (fun t c => t.unmapAll c) s
    let s := s.freeAllTlt.freeContexts
    let s := { s with
      cores := s.cores.map Core.warm, slots := Vector.replicate 256 none, pool := [], lq := Vector.replicate 64 { },
      msgs := [], media := Vector.replicate 4 { }, colls := [], collData := [], collReports := [], collNotes := [],
      collEvents := [], armReqs := [], armed := [], rounds := [], spillq := [], peeks := [],
      posted := s.posted.filter (fun p => !p.isLoad),
      tlb := Vector.replicate 4 [], recPtr := 64, selPtr := 64,
      ctxbase := 0, shlim := 0x1B7740, ldrop := 0, ctxcmd := 0, ctxarg := 0,
      copywt := Vector.replicate 8 0x1111111111111111, tlbiAddr := 0, tlbiLen := 0, tlbiCtx := 0, tlbiGo := false,
      pthrot := false, tthrot := false }
    let s := s.errorAll.settleFalls
    .next { s with tdi := s.tdi.map Tdi.warm }

/-- The device without power on its compute dies: cores, HBM and everything of the launches are lost; what other agents
hold (PCIe space, other devices, the schedule) and the clock go on. -/
def State.powerLoss (s : State) : State :=
  { schedule := s.schedule, turn := s.turn, freeCtr := s.freeCtr, seqNo := s.seqNo, clock := s.clock,
    mem := s.mem.filter (fun p => isPcie p.1), remote := s.remote, atsAbsent := s.atsAbsent,
    keyGen := s.keyGen.map (fun g => g + 1), flash := s.flash, staged := s.staged, meas := s.meas, sent := s.sent,
    walkAt := s.clock, caps := s.caps, devid := s.devid,
    remoteUp := s.remoteUp, badLines := s.badLines.filter (fun ln => isPcie (128 * ln)) }

/-! ### Bring-up (R335) -/

/-- Why the boot ROM refuses an image, as FAILCODE has it: its signature, or a security version below the fused minimum
(R316, R337). -/
def imageRefusal (i : FwImage) (min : BitVec 8) : Option (BitVec 8) :=
  if !i.signed then some 1 else if i.version.toNat < min.toNat then some 2 else none

/-- Staged images take effect at a cold reset when they verify; otherwise the previous image stays in use (R338). -/
def State.takeImages (s : State) (min : BitVec 8) : State :=
  { s with
    flash := Vector.ofFn (fun (i : Fin 3) =>
      match s.staged[i] with
      | some g => if (imageRefusal g min).isNone then g else s.flash[i]
      | none => s.flash[i])
    staged := Vector.replicate 3 none }

/-- A measurement block receives its value (R316). -/
def State.measure (s : State) (b : Fin 5) (v : BitVec 32) : State := { s with meas := s.meas.set b (some v) }

/-- The image of a part, verified and measured into its block, or the FAILCODE of its refusal (R316). -/
def State.loadImage (s : State) (p : FwPart) (b : Fin 5) (min : BitVec 8) : Except (BitVec 8) State :=
  let i := s.flash[p.index]
  match imageRefusal i min with
  | some c => .error c
  | none => .ok (s.measure b i.content)

/-- Cores present on die d (R11, R14). -/
def bringCores (up : BringUp) (d : Fin 4) : Nat := 32 - (up.coresOff[d]).val

def bringSlices (up : BringUp) (d : Fin 4) : Nat := 32 - (up.slicesOff[d]).val

/-- Pseudo-channels present in stack t (R14). -/
def bringChans (up : BringUp) (t : Fin 12) : Nat := 64 - (up.chansOff[t]).val

/-- The present-core bits of two dies: the lowest numbers of each, without gaps (R11, R13). -/
def bringCapCore (up : BringUp) (d e : Fin 4) : DWord := BitVec.ofNat 64 (2 ^ bringCores up d - 1 + 2 ^ 32 * (2 ^ bringCores up e - 1))

/-- Numbers packed eight bits each, the first lowest. -/
def packBytes : List Nat → Nat
  | [] => 0
  | n :: ns => n + 256 * packBytes ns

/-- Codes packed two bits each, the first lowest. -/
def packPairs : List Nat → Nat
  | [] => 0
  | n :: ns => n + 4 * packPairs ns

/-- The capability registers that bring-up sets (R13), with the PCIe widths that step 4 writes. -/
def bringCaps (up : BringUp) (p0 p1 : PcieWidth) : Vector DWord 8 :=
  let dies : List (Fin 4) := [0, 1, 2, 3]
  let count (f : Fin 4 → Nat) : Nat := f 0 + f 1 + f 2 + f 3
  let twelve : List (Fin 12) := [0, 1, 2, 3, 4, 5, 6, 7, 8, 9, 10, 11]
  #v[BitVec.ofNat 64 (0x01 + 2 ^ 8 * up.stepping.toNat + 2 ^ 16 * 0x0728),
    BitVec.ofNat 64 (packBytes [count (bringCores up), 4, count (bringSlices up), 12]),
    bringCapCore up 0 1, bringCapCore up 2 3,
    BitVec.ofNat 64 (packBytes (dies.map (bringSlices up))),
    BitVec.ofNat 64 (packBytes ((twelve.take 8).map (bringChans up))),
    BitVec.ofNat 64 (packBytes ((twelve.drop 8).map (bringChans up))),
    BitVec.ofNat 64 (packPairs (up.nudon.toList.map (fun w => w.val + 1) ++ [p0.code, p1.code]))]

/-- Bring-up ends in BOOTFAIL with its FAILCODE (R335, R337). -/
def State.bootFail (s : State) (code : BitVec 8) : State := { s with boot := .fail, failcode := code }

/-- Step 5 and step 6 (R335): device and management firmware are verified and started; READY. -/
def State.bootFirmware (s : State) (up : BringUp) : State :=
  match s.loadImage .dev 2 up.minVersion with
  | .error c => s.bootFail c
  | .ok t =>
    match t.loadImage .mgmt 3 up.minVersion with
    | .error c => t.bootFail c
    | .ok u => { u with boot := .ready }

/-- Step 4 (R335): the PCIe widths are written; a UCIe link that does not train fails, and so do PCIe ports neither of which
trains: then only SMBus reaches the module. -/
def State.bootLinks (s : State) (up : BringUp) : State :=
  let dead := decide (up.pcie0 = .none) && decide (up.pcie1 = .none)
  let s := { s with caps := bringCaps up up.pcie0 up.pcie1, noPcie := dead }
  if !up.ucie || dead then s.bootFail 4 else s.bootFirmware up

/-- Step 3 (R335): fuses and HBM training; capability registers are set once the HBM has trained. -/
def State.bootMemory (s : State) (up : BringUp) : State :=
  let s := s.measure 4 up.fuses
  if !up.hbm then s.bootFail 3 else { s with caps := bringCaps up .none .none }.bootLinks up

/-- Steps 2 to 6 (R335). -/
def State.bringUp (s : State) (up : BringUp) : State :=
  let s := s.measure 0 Config.bootRom
  match s.loadImage .sec 1 up.minVersion with
  | .error c => s.bootFail c
  | .ok t => t.bootMemory up

/-- COLD_RESET (R335): everything is lost; bring-up sets the capability registers and DEVID, and ends READY, or BOOTFAIL
with its FAILCODE. Registers that step 3 has not set read zero. -/
def execColdReset (up : BringUp) (s : State) : Out :=
  let s := { s.powerLoss.takeImages up.minVersion with
    caps := Vector.replicate 8 0, devid := up.devid, meas := Vector.replicate 5 none }
  .next (s.bringUp up)

/-- THERMAL_TRIP (R332): the compute dies lose their power; only a cold reset brings the device back. -/
def execThermalTrip (s : State) : Out := .next { s.powerLoss with tripped := true, diesOut := [0, 1, 2, 3] }

/-! ### Power, links to other devices -/

/-- THROTTLE_CHANGE (R333): only DEVSTAT shows it. -/
def execThrottleChange (power thermal : Bool) (s : State) : Out := .next { s with pthrot := power, tthrot := thermal }

/-- The width code of a Nudon port (R13). -/
def State.nudonWidth (s : State) (port : BitVec 4) : Nat := s.caps[7].toNat / 4 ^ port.toNat % 4

/-- NUDON_PORT_TRAIN (R331, R335): a port trains only after its partner has authenticated, from step 7 on. -/
def execNudonPortTrain (port : BitVec 4) (authenticated : Bool) (s : State) : Out :=
  if s.boot == .ready && authenticated && s.nudonWidth port != 0 then
    .next { s with nudon := s.nudon ||| (1 <<< port.toNat) }
  else .next s

/-! ### Configuration requests and BAR0 reads -/

/-- CONFIG_REQUEST (R335, R316): none arrives while no PCIe port has trained. -/
def execConfigRequest (fn : BitVec 4) (s : State) : Out :=
  if s.noPcie then .next s
  else match s.boot with
  | .boot => .next (s.reply (.configRetry fn))
  | .ready => .next (s.reply (.configDone fn))
  | .fail => .next (s.reply (if fn = 0 then .configDone fn else .configAbsent fn))

/-- VIOLCNT_READ (R323): the count is returned and clears; in BOOTFAIL the read returns zero (R335). -/
def execViolcntRead (fn : BitVec 4) (s : State) : Out :=
  if s.noPcie then .next s
  else match s.boot with
  | .boot => .next s
  | .fail => .next (s.reply (.value 0))
  | .ready => .next ((s.onTdi fn (fun t => { t with viol := 0 })).reply (.value ((s.tdiOf fn).viol.setWidth 64)))

/-- LDROP_READ (R305). -/
def execLdropRead (s : State) : Out :=
  if s.noPcie then .next s
  else match s.boot with
  | .boot => .next s
  | .fail => .next (s.reply (.value 0))
  | .ready => .next ({ s with ldrop := 0 }.reply (.value s.ldrop))

/-- DEVSTAT.STATE (R337). -/
def Boot.code : Boot → Nat
  | .boot => 0
  | .ready => 1
  | .fail => 2

/-- DEVSTAT (R337). -/
def State.devstat (s : State) : DWord :=
  BitVec.ofNat 64 (s.boot.code + 2 ^ 8 * s.failcode.toNat + 2 ^ 16 * bit s.pthrot + 2 ^ 17 * bit s.tthrot)

/-- RESETCTL as a read returns it: its WO fields zero, BUSY while a reset is in progress (R4, R337). -/
def State.resetctl (s : State) : DWord := BitVec.ofNat 64 (2 ^ 63 * bit (!s.diesOut.isEmpty))

/-- TLBICMD as a read returns it (R337). -/
def State.tlbicmd (s : State) : DWord := BitVec.ofNat 64 (s.tlbiCtx.toNat + 2 ^ 31 * bit s.tlbiGo)

/-- A queue's registers by offset within its block (R301). -/
def State.readQueue (s : State) (q off : Nat) : DWord :=
  let r := (s.lq[q]?).getD { }
  if off = 0 then r.base
  else if off = 8 then r.ctlReg
  else if off = 0x10 then r.tail.setWidth 64
  else if off = 0x18 then r.head.setWidth 64
  else 0

/-- TDISTAT (R323). -/
def Tdi.stat (t : Tdi) : DWord := BitVec.ofNat 64 (t.state.code + 2 ^ 8 * t.errcause.toNat)

/-! ### Register writes (R4, R336) -/

/-- LQBASE and LQCTL of a queue by offset within its block (R301); LQTAIL has its own step and LQHEAD is RO. -/
def LaunchQueue.write (q : LaunchQueue) (off : Nat) (v : DWord) : LaunchQueue :=
  if off = 0 then { q with base := v }
  else if off = 8 then
    { q with en := v.getLsbD 0, logn := v.extractLsb' 1 5, ctx := v.extractLsb' 8 6, err := q.err && !v.getLsbD 16 }
  else q

/-- A write to a queue's registers. -/
def State.writeQueue (s : State) (q off : Nat) (v : DWord) : State :=
  if h : q < 64 then { s with lq := s.lq.set q (s.lq[q].write off v) h } else s

/-- A frame-table entry from a written value (R326). -/
def frameOf (v : DWord) : FrameEnt :=
  { v := v.getLsbD 0, world := v.extractLsb' 1 4, len := BitVec.ofNat 32 (v.extractLsb' 8 11).toNat }

/-- A write that sets V with LEN outside 50 to 2,000 is ignored as a whole (R326). -/
def frameWritable (e : FrameEnt) : Bool := !e.v || (decide (50 ≤ e.len.toNat) && decide (e.len.toNat ≤ 2000))

/-- A write to entry e of core c's frame table. -/
def Core.writeFrame (k : Core) (e : Nat) (v : DWord) : Core :=
  if h : e < 16 then
    if frameWritable (frameOf v) then { k with frames := k.frames.set e (frameOf v) h } else k
  else k

/-- A write to CTXCMD that starts no command, and to CTXARG (R304): commands of the model end within their step, so GO
reads 0. OP 0 and 3 act as none. -/
def State.writeCtxcmd (s : State) (v : DWord) : State :=
  let op := v.toNat / 2 ^ 6 % 4
  if v.getLsbD 31 && (op == 1 || op == 2) then s
  else { s with ctxcmd := ctxcmdReg (v.setWidth 6) op (s.ctxcmd.toNat / 2 ^ 32 % 4) }

/-- A write to BAR0 of function 0 (R336, R337). DESIGN CHOICE (log 56): an access is one aligned 64-bit word; a write
elsewhere is ignored. -/
def State.writeBar0 (s : State) (off : Nat) (v : DWord) : State :=
  if off % 8 != 0 then s
  else if off = 0x10 then if s.tlbiGo then s else { s with tlbiAddr := v.setWidth 56 }
  else if off = 0x18 then if s.tlbiGo then s else { s with tlbiLen := v }
  else if off = 0x180 then { s with ctxbase := v }
  else if off = 0x188 then { s with shlim := v }
  else if off = 0x198 then s.writeCtxcmd v
  else if off = 0x1A0 then { s with ctxarg := v }
  else if 0x1000 ≤ off && off < 0x1800 then
    let q := (off - 0x1000) / 32
    -- a queue that a TDI holds is a private page of function 0: the write is discarded and counted (R323)
    if (s.queueHolder q).isSome then s.onTdi 0 Tdi.violate else s.writeQueue q (off % 32) v
  else if 0x2000 ≤ off && off < 0x2040 then
    let i := (off - 0x2000) / 8
    if h : i < 8 then { s with copywt := s.copywt.set i v h } else s
  else if 0x10000 ≤ off && off < 0x14000 then
    let c : CoreId := BitVec.ofNat 7 ((off - 0x10000) / 128)
    s.onCore c (fun k => k.writeFrame ((off - 0x10000) % 128 / 8) v)
  else s

/-- The capability register at an offset of BAR0 (R13). -/
def State.readCap (s : State) (off : Nat) : DWord := (s.caps[(off - 0x100) / 8]?).getD 0

/-- What a read of BAR0 of function 0 returns once the device is READY: each block's registers under R4's codes, reserved
fields and unnamed offsets as zero (R4, R5, R336). DESIGN CHOICE (log 56): a read is one aligned 64-bit word; elsewhere
it returns zero. -/
def State.bar0Value (s : State) (off : Nat) : DWord :=
  if off % 8 != 0 then 0
  else if off = 0 then s.devstat
  else if off = 8 then s.resetctl
  else if off = 0x10 then s.tlbiAddr.setWidth 64
  else if off = 0x18 then s.tlbiLen
  else if off = 0x20 then s.tlbicmd
  else if 0x100 ≤ off && off < 0x140 then s.readCap off
  else if off = 0x180 then s.ctxbase
  else if off = 0x188 then s.shlim
  else if off = 0x190 then s.ldrop
  else if off = 0x198 then s.ctxcmd
  else if off = 0x1A0 then s.ctxarg
  else if 0x1000 ≤ off && off < 0x1800 then s.readQueue ((off - 0x1000) / 32) (off % 32)
  else if 0x2000 ≤ off && off < 0x2040 then (s.copywt[(off - 0x2000) / 8]?).getD 0
  else if 0x3000 ≤ off && off < 0x3100 then
    let t := s.tdiOf (BitVec.ofNat 4 ((off - 0x3000) / 16))
    if off % 16 = 0 then t.stat else t.viol.setWidth 64
  else if 0x10000 ≤ off && off < 0x14000 then
    (((s.core (BitVec.ofNat 7 ((off - 0x10000) / 128))).frames[(off - 0x10000) % 128 / 8]?).getD { }).reg
  else 0

/-- What a read of BAR0 of function 0 changes: the RC fields LDROP and VIOLCNT clear (R4, R305, R323). -/
def State.bar0Clear (s : State) (off : Nat) : State :=
  if off = 0x190 then { s with ldrop := 0 }
  else if 0x3000 ≤ off && off < 0x3100 && off % 16 = 8 then
    s.onTdi (BitVec.ofNat 4 ((off - 0x3000) / 16)) (fun t => { t with viol := 0 })
  else s

/-- An untrusted read of a private page: all ones, and counted (R323). -/
def State.privateRead (s : State) (fn : BitVec 4) : State := (s.onTdi fn Tdi.violate).reply (.value (BitVec.allOnes 64))

/-- A read of BAR0 of function 0 (R336); the registers of a queue that a TDI holds are private pages of function 0
(R323). -/
def State.readBar0 (s : State) (off : Nat) : State :=
  if 0x1000 ≤ off && off < 0x1800 && (s.queueHolder ((off - 0x1000) / 32)).isSome then s.privateRead 0
  else (s.bar0Clear off).reply (.value (s.bar0Value off))

/-- A channel's register as a read returns it (R4, R329). -/
def Channel.read (h : Channel) (off : Nat) : DWord :=
  if off = 0 then h.sh
  else if off = 8 then h.pr
  else if off = 0x10 then h.ctlReg
  else if off = 0x20 then h.exp.setWidth 64
  else if off = 0x28 then h.door.setWidth 64
  else 0

/-- A read of BAR0 of function w ≥ 1 (R323, R329). -/
def State.readTdiBar (s : State) (w : BitVec 4) (t : Bool) (off : Nat) : State :=
  let trusted := t && s.trusts w
  if off < 0x1000 then
    if trusted then
      let q := off / 32
      s.reply (.value (if q < 64 && (s.tdiOf w).queues.getLsbD q && off % 8 = 0 then s.readQueue q (off % 32) else 0))
    else s.privateRead w
  else if off < 0x2000 && trusted then s.reply .unsupported
  else if off < 0x1100 && off % 8 = 0 then s.reply (.value ((s.chan w (BitVec.ofNat 2 ((off - 0x1000) / 64))).read (off % 64)))
  else s.reply (.value 0)

/-- A read of BAR0 (R335, R336): none is accepted before READY or BOOTFAIL, nor where no PCIe port has trained; in
BOOTFAIL function 0 shows DEVSTAT and the capability block, and no other function is there. -/
def State.readBar (s : State) (fn : BitVec 4) (t : Bool) (off : Nat) : State :=
  if s.noPcie then s
  else match s.boot with
  | .boot => s
  | .fail =>
    if fn != 0 then s
    else s.reply (.value (if off = 0 || (decide (0x100 ≤ off) && decide (off < 0x140)) then s.bar0Value off else 0))
  | .ready => if fn = 0 then s.readBar0 off else s.readTdiBar fn t off

/-- A channel's registers by offset within its block (R329); CHRESET and CHDOOR have their own steps. -/
def Channel.write (h : Channel) (off : Nat) (v : DWord) : Channel :=
  if off = 0 then { h with sh := v }
  else if off = 8 then { h with pr := v }
  else if off = 0x10 then { h with ctl := v.setWidth 15 }
  else h

/-- A write to BAR0 of function w ≥ 1 (R323, R329): page 0, the first 4 KiB, holds the registers of its queues and is
written by trusted accesses; page 1 holds its channels (log 32). -/
def State.writeTdiBar (s : State) (w : BitVec 4) (off : Nat) (v : DWord) : State :=
  if off % 8 != 0 then s
  else if off < 0x1000 then
    let q := off / 32
    if s.trusts w then
      if q < 64 && (s.tdiOf w).queues.getLsbD q then s.writeQueue q (off % 32) v else s
    else s.onTdi w Tdi.violate
  else if off < 0x1100 then
    s.onChan w (BitVec.ofNat 2 ((off - 0x1000) / 64)) (fun h => h.write (off % 64) v)
  else s

/-- REGISTER_WRITE (R4, R336): no BAR0 write is accepted before READY (R335). -/
def execRegisterWrite (fn : BitVec 4) (off : BitVec 32) (v : DWord) (s : State) : Out :=
  if s.boot != .ready then .next s
  else if fn = 0 then .next (s.writeBar0 off.toNat v)
  else .next (s.writeTdiBar fn off.toNat v)

/-! ### Management (R338) -/

/-- MCTP_CONTROL (R338): discovery, EID assignment (command 1, log 16) and version query. -/
def execMctpControl (cmd eid : BitVec 8) (s : State) : Out :=
  let s := if cmd = 1 then { s with eid := eid } else s
  .next (s.reply (.mctp cmd s.eid))

/-- PLDM_DISCOVERY (R338). -/
def execPldmDiscovery (s : State) : Out := .next (s.reply .pldmDiscovery)

/-- What a state sensor shows; none for a numeric sensor, whose reading is the world's (R338, log 16). -/
def State.stateSensor (s : State) (n : Nat) : Option Nat :=
  if n = 0 then some s.boot.code
  else if n = 1 then some (bit s.pthrot)
  else if n = 2 then some (bit s.tthrot)
  else if 16 ≤ n && n < 32 then some (s.tdiOf (BitVec.ofNat 4 (n - 16))).state.code
  else none

/-- PLDM_MONITORING (R338): a sensor is read. -/
def execPldmMonitoring (sensor : BitVec 8) (s : State) : Out :=
  match s.stateSensor sensor.toNat with
  | some v => .next (s.reply (.pldmSensor sensor (BitVec.ofNat 64 v)))
  | none =>
    let (n, s) := s.drawFree
    .next (s.reply (.pldmSensor sensor (BitVec.ofNat 64 (leNat ((List.range 8).map (Config.freeByte n))))))

/-- PLDM_FIRMWARE_UPDATE (R338): an image of a part is staged; it takes effect at the next cold reset, if it verifies. -/
def execPldmFirmwareUpdate (part : FwPart) (image : FwImage) (s : State) : Out :=
  .next ({ s with staged := s.staged.set part.index (some image) }.reply .pldmUpdate)

/-- MCTP_UNSUPPORTED_TYPE (R338): the message is discarded. -/
def execMctpUnsupportedType (_ty : BitVec 8) (s : State) : Out := .next s

end Sys2Proof.Machine
end

