-- ==== Sys2Proof/Machine/Scalar.lean ====
section
/-!
DEFINITION. CTL's register instructions: ALU-R (R142), the immediate forms (R143) and MULDIV (R144).
-/

namespace Sys2Proof.Machine

/-- ADD (R142). -/
def execAdd (d a b : BitVec 5) (w : Bool) (s : State) : Out := ctlWrite s d (alu w opAdd (s.sreg a) (s.sreg b))

/-- SUB (R142). -/
def execSub (d a b : BitVec 5) (w : Bool) (s : State) : Out := ctlWrite s d (alu w opSub (s.sreg a) (s.sreg b))

/-- AND (R142). -/
def execAnd (d a b : BitVec 5) (w : Bool) (s : State) : Out := ctlWrite s d (alu w opAnd (s.sreg a) (s.sreg b))

/-- OR (R142). -/
def execOr (d a b : BitVec 5) (w : Bool) (s : State) : Out := ctlWrite s d (alu w opOr (s.sreg a) (s.sreg b))

/-- XOR (R142). -/
def execXor (d a b : BitVec 5) (w : Bool) (s : State) : Out := ctlWrite s d (alu w opXor (s.sreg a) (s.sreg b))

/-- SHL (R142). -/
def execShl (d a b : BitVec 5) (w : Bool) (s : State) : Out := ctlWrite s d (alu w opShl (s.sreg a) (s.sreg b))

/-- SHR (R142). -/
def execShr (d a b : BitVec 5) (w : Bool) (s : State) : Out := ctlWrite s d (alu w opShr (s.sreg a) (s.sreg b))

/-- SRA (R142). -/
def execSra (d a b : BitVec 5) (w : Bool) (s : State) : Out := ctlWrite s d (alu w opSra (s.sreg a) (s.sreg b))

/-- ROL (R142). -/
def execRol (d a b : BitVec 5) (w : Bool) (s : State) : Out := ctlWrite s d (alu w opRol (s.sreg a) (s.sreg b))

/-- SLT (R142). -/
def execSlt (d a b : BitVec 5) (w : Bool) (s : State) : Out := ctlWrite s d (alu w opSlt (s.sreg a) (s.sreg b))

/-- SLTU (R142). -/
def execSltu (d a b : BitVec 5) (w : Bool) (s : State) : Out := ctlWrite s d (alu w opSltu (s.sreg a) (s.sreg b))

/-- MIN (R142). -/
def execMin (d a b : BitVec 5) (w : Bool) (s : State) : Out := ctlWrite s d (alu w opMin (s.sreg a) (s.sreg b))

/-- MAX (R142). -/
def execMax (d a b : BitVec 5) (w : Bool) (s : State) : Out := ctlWrite s d (alu w opMax (s.sreg a) (s.sreg b))

/-- MINU (R142). -/
def execMinu (d a b : BitVec 5) (w : Bool) (s : State) : Out := ctlWrite s d (alu w opMinu (s.sreg a) (s.sreg b))

/-- MAXU (R142). -/
def execMaxu (d a b : BitVec 5) (w : Bool) (s : State) : Out := ctlWrite s d (alu w opMaxu (s.sreg a) (s.sreg b))

/-- CLZ (R142). -/
def execClz (d a : BitVec 5) (w : Bool) (s : State) : Out := ctlWrite s d (alu w opClz (s.sreg a) 0)

/-- CTZ (R142). -/
def execCtz (d a : BitVec 5) (w : Bool) (s : State) : Out := ctlWrite s d (alu w opCtz (s.sreg a) 0)

/-- POPC (R142). -/
def execPopc (d a : BitVec 5) (w : Bool) (s : State) : Out := ctlWrite s d (alu w opPopc (s.sreg a) 0)

/-- ADDI (R143). -/
def execAddi (d a : BitVec 5) (imm : BitVec 16) (s : State) : Out :=
  ctlWrite s d (alu false opAdd (s.sreg a) (imm16s imm))

/-- SLTI (R143). -/
def execSlti (d a : BitVec 5) (imm : BitVec 16) (s : State) : Out :=
  ctlWrite s d (alu false opSlt (s.sreg a) (imm16s imm))

/-- SLTIU (R143). -/
def execSltiu (d a : BitVec 5) (imm : BitVec 16) (s : State) : Out :=
  ctlWrite s d (alu false opSltu (s.sreg a) (imm16s imm))

/-- ANDI (R143). -/
def execAndi (d a : BitVec 5) (imm : BitVec 16) (s : State) : Out :=
  ctlWrite s d (alu false opAnd (s.sreg a) (imm16z imm))

/-- ORI (R143). -/
def execOri (d a : BitVec 5) (imm : BitVec 16) (s : State) : Out :=
  ctlWrite s d (alu false opOr (s.sreg a) (imm16z imm))

/-- XORI (R143). -/
def execXori (d a : BitVec 5) (imm : BitVec 16) (s : State) : Out :=
  ctlWrite s d (alu false opXor (s.sreg a) (imm16z imm))

/-- SHLI (R143): the amount is a constant. -/
def execShli (d a : BitVec 5) (w : Bool) (imm : BitVec 6) (s : State) : Out :=
  ctlWrite s d (alu w opShl (s.sreg a) (imm.setWidth 64))

/-- SHRI (R143): the amount is a constant. -/
def execShri (d a : BitVec 5) (w : Bool) (imm : BitVec 6) (s : State) : Out :=
  ctlWrite s d (alu w opShr (s.sreg a) (imm.setWidth 64))

/-- SRAI (R143): the amount is a constant. -/
def execSrai (d a : BitVec 5) (w : Bool) (imm : BitVec 6) (s : State) : Out :=
  ctlWrite s d (alu w opSra (s.sreg a) (imm.setWidth 64))

/-- ROLI (R143): the amount is a constant. -/
def execRoli (d a : BitVec 5) (w : Bool) (imm : BitVec 6) (s : State) : Out :=
  ctlWrite s d (alu w opRol (s.sreg a) (imm.setWidth 64))

/-- LUI (R143): the sign extension of imm16 times 2^16. -/
def execLui (d : BitVec 5) (imm : BitVec 16) (s : State) : Out := ctlWrite s d (imm16s imm <<< 16)

/-- LIH (R143): imm16 into bits [47:32], the other bits kept. -/
def execLih (d : BitVec 5) (imm : BitVec 16) (s : State) : Out :=
  ctlWrite s d ((s.sreg d &&& 0xFFFF0000FFFFFFFF) ||| (imm16z imm <<< 32))

/-- MUL (R144). -/
def execMul (d a b : BitVec 5) (w : Bool) (s : State) : Out := ctlWrite s d (alu w opMul (s.sreg a) (s.sreg b))

/-- MULH (R144). -/
def execMulh (d a b : BitVec 5) (s : State) : Out := ctlWrite s d (mulHigh (s.sreg a) (s.sreg b))

/-- MULHU (R144). -/
def execMulhu (d a b : BitVec 5) (s : State) : Out := ctlWrite s d (mulHighU (s.sreg a) (s.sreg b))

/-- A division or remainder (R144): the result is written, and a zero divisor sets CSTAT.DZ. -/
def divide (f : BinOp) (d a b : BitVec 5) (w : Bool) (s : State) : Out :=
  ctlWrite (s.noteDiv (divZero w (s.sreg b))) d (alu w f (s.sreg a) (s.sreg b))

/-- DIV (R144). -/
def execDiv (d a b : BitVec 5) (w : Bool) (s : State) : Out := divide opDiv d a b w s

/-- DIVU (R144). -/
def execDivu (d a b : BitVec 5) (w : Bool) (s : State) : Out := divide opDivu d a b w s

/-- REM (R144). -/
def execRem (d a b : BitVec 5) (w : Bool) (s : State) : Out := divide opRem d a b w s

/-- REMU (R144). -/
def execRemu (d a b : BitVec 5) (w : Bool) (s : State) : Out := divide opRemu d a b w s

end Sys2Proof.Machine
end

