-- ==== Sys2Proof/Machine/CmpCtl.lean ====
section
/-!
DEFINITION. Class 11 words of CMP that set scalars, predicates and the shape, act on semaphores, loop, and empty
granules (R190, R209 to R215).
-/

namespace Sys2Proof.Machine

/-- NOP (R209). -/
def execCmpNop (t : Tok) (s : State) : Out := engSimple s t noCheck id

/-- END (R23, R209). -/
def execCmpEnd (t : Tok) (s : State) : Out := engWord s t noCheck (fun u => u.onHere (fun k => k.endWord .cmp t))

/-! ### SHAPE (R190) -/

/-- SHAPE's reserved bits of k[n] and its bound on VL. -/
def shapeCheck (ty : EType) (k : BitVec 4) (s : State) : Issue :=
  let v := (s.kreg k).toNat
  if v / 2 ^ 10 % 2 ^ 6 != 0 || v / 2 ^ 32 != 0 || lanesOf ty < v % 2 ^ 10 then .fault .reservedField s.engWordBits else .go

/-- SHAPE (R190). -/
def execShape (t : Tok) (ty : EType) (rm : RMode) (sat : Bool) (g : BitVec 3) (k : BitVec 4) (s : State) : Out :=
  engSimple s t (shapeCheck ty k) (fun u =>
    let v := u.kreg k
    u.onHere (fun c => c.onCmp (fun x =>
      { x with shape := { ty := ty, vl := v.setWidth 10, glog := g, rm := rm, sat := sat, rows := v.extractLsb' 16 8,
                          cols := v.extractLsb' 24 8 } })))

/-! ### Scalars (R210) -/

/-- KADD. -/
def execKadd (t : Tok) (d a : BitVec 4) (imm : BitVec 13) (s : State) : Out :=
  engSimple s t noCheck (fun u => u.setKreg d (u.kreg a + imm.signExtend 64))

/-- KLI. -/
def execKli (t : Tok) (d : BitVec 4) (imm : BitVec 17) (s : State) : Out :=
  engSimple s t noCheck (fun u => u.setKreg d (imm.signExtend 64))

/-- KMOV. -/
def execKmov (t : Tok) (d a : BitVec 4) (s : State) : Out := engSimple s t noCheck (fun u => u.setKreg d (u.kreg a))

/-- VLI's lane value by type. -/
def vliLane (ty : EType) (imm : BitVec 16) : Nat :=
  match ty with
  | .i32 => (imm.signExtend 32).toNat
  | .f32 => imm.toNat * 2 ^ 16
  | .u32 => imm.toNat
  | .i16 => imm.toNat
  | .u16 => imm.toNat
  | .f16 => imm.toNat
  | .bf16 => imm.toNat
  | .i8 => imm.toNat % 2 ^ 8
  | .u8 => imm.toNat % 2 ^ 8
  | .k8 => imm.toNat % 2 ^ 8
  | .ks8 => imm.toNat % 2 ^ 8
  | .k4 => imm.toNat % 2 ^ 4
  | .a64 => imm.toNat

/-- VLI: every lane below VL. -/
def execVli (t : Tok) (d : BitVec 5) (imm : BitVec 16) (s : State) : Out :=
  engSimple s t noCheck (fun u =>
    u.setVreg d (setLanes (u.vreg d) u.shape.ty (fun i => if i < u.shape.vl.toNat then some (vliLane u.shape.ty imm) else none)))

/-! ### PSET (R211) -/

/-- The bits that PSET sets: those of the bytes of the lanes that `f` takes. -/
def bitsOfLanes (ty : EType) (f : Nat → Bool) : PReg :=
  BitVec.ofNat 256 (ofDigits 1 ((List.range 256).map (fun j =>
    if ty = .k4 then bit (f (2 * j) || f (2 * j + 1)) else bit (f (j * 8 / ty.bits)))))

/-- PSET's value by mode. -/
def psetValue (s : State) : PsetMode → PReg
  | .all => BitVec.allOnes 256
  | .none => 0
  | .first k => bitsOfLanes s.shape.ty (fun i => decide (i < min (s.kreg k).toNat s.shape.vl.toNat))
  | .bits k => bitsOfLanes s.shape.ty (fun i => decide (i < min 64 s.shape.vl.toNat) && (s.kreg k).getLsbD i)

/-- PSET (R211). -/
def execPset (t : Tok) (d : BitVec 3) (mode : PsetMode) (s : State) : Out :=
  engSimple s t noCheck (fun u => u.setPreg d (psetValue u mode))

/-! ### Semaphores, loops, FRAGSEL (R212 to R214) -/

/-- The target of SEMWAIT. -/
def State.cmpTarget (s : State) : CmpSemArg → DWord
  | .imm v => v.setWidth 64
  | .k r => s.kreg r

/-- The value of SEMADD. -/
def State.cmpAddend (s : State) : CmpSemArg → DWord
  | .imm v => v.signExtend 64
  | .k r => s.kreg r

/-- SEMWAIT of CMP (R212). -/
def execCmpSemwait (t : Tok) (sem : BitVec 4) (arg : CmpSemArg) (s : State) : Out :=
  engWord s t noCheck (fun u => u.onHere (fun k => k.semwaitEng .cmp t sem (u.cmpTarget arg)))

/-- SEMADD of CMP (R212): vector words complete when they retire, so every earlier one has completed. -/
def execCmpSemadd (t : Tok) (sem : BitVec 4) (arg : CmpSemArg) (s : State) : Out :=
  engSimple s t (fun u => semaddCheck sem (u.cmpAddend arg) u)
    (fun u => u.onHere (fun k => k.semaddEng sem (u.cmpAddend arg)))

/-- LOOPK (R213). -/
def execLoopk (t : Tok) (k : BitVec 4) (imm : BitVec 17) (s : State) : Out :=
  engWord s t (loopCheck imm.toNat 32767) (fun u => u.onHere (fun c => c.startLoop .cmp t imm.toNat (u.kreg k).toNat))

/-- FRAGSEL (R214): JSEL, ACCN and semaphore 15 in one step, or SEM_OVERFLOW. -/
def execFragsel (t : Tok) (f a : BitVec 4) (s : State) : Out :=
  engSimple s t (semaddCheck 15 1) (fun u =>
    let set (c : Ctl) : Ctl := { c with jsel := (u.kreg f).setWidth 8, accn := (u.kreg a).setWidth 32 }
    u.onHere (fun k => (k.onCtl set).semaddEng 15 1))

/-! ### FECLR (R215) -/

/-- FECLR's range check: TVAL is the first byte beyond the buffer. -/
def feclrCheck (sp : Space) (o l : BitVec 4) (s : State) : Issue :=
  let off := (s.kreg o).toNat
  let len := (s.kreg l).toNat
  if len = 0 || off + len ≤ bufSize sp then .go else .fault .bufRange (BitVec.ofNat 64 (max off (bufSize sp)))

/-- FECLR (R215). -/
def execFeclr (t : Tok) (sp : Space) (o l : BitVec 4) (s : State) : Out :=
  engSimple s t (feclrCheck sp o l) (fun u =>
    u.onHere (fun k => k.drain sp (granules (u.kreg o).toNat (u.kreg l).toNat)))

end Sys2Proof.Machine
end

