-- ==== Sys2Proof/Machine/Matrix.lean ====
section
/-!
DEFINITION. Stream registers (R220, R221), the issue checks of matrix words (R218, R219), their issue (R222 to R228),
batches (R230, R231) and HISTRD (R229).
-/

namespace Sys2Proof.Machine

/-! ### SLD and SMOD -/

/-- A stream register. -/
def State.streg (s : State) (r : BitVec 4) : BitVec 512 := (s.here).cmp.st[r.toNat]'(r.isLt)

def State.setStreg (s : State) (r : BitVec 4) (d : BitVec 512) : State :=
  s.onHere (fun k => k.onCmp (fun x => { x with st := x.st.set r.toNat d r.isLt }))

/-- What SLD finds: the descriptor's bytes, or the failing check with TVAL k[n] (R220). -/
def sldRead (k : BitVec 4) (sp : Space) (s : State) : Except Issue (List Byte) :=
  let va := s.kreg k
  if va.toNat % 64 != 0 then .error (.fault .misaligned va)
  else if sp = .glob then s.readRecord va 64
  else if va.toNat + 64 ≤ bufSize sp then
    match (s.here).badAt sp va.toNat 64 with
    | some _ => .error (.fault .eccUncorr va)
    | none => .ok ((s.here).bufBytes sp va.toNat 64)
  else .error (.fault .bufRange va)

/-- SLD (R220). -/
def execSld (t : Tok) (st k : BitVec 4) (sp : Space) (s : State) : Out :=
  engSimple s t (fun u => issueOf (sldRead k sp u)) (fun u =>
    match sldRead k sp u with
    | .ok bs => u.setStreg st (BitVec.ofNat 512 (leNat bs))
    | .error _ => u)

/-- SMOD's effect on a descriptor (R221). -/
def smodField (sel : SmodSel) (d : BitVec 512) (k : DWord) : BitVec 512 :=
  match sel with
  | .base => dSet d 0 8 k.toNat
  | .rows => dSet d 12 4 k.toNat
  | .cols => dSet d 16 4 k.toNat
  | .stride => dSet d 20 8 k.toNat
  | .row0 => dSet d 32 4 k.toNat
  | .col0 => dSet d 36 4 k.toNat
  | .sbase => dSet d 40 8 k.toNat
  | .seed => dSet d 56 8 k.toNat
  | .addbase => dSet d 0 8 (dBase d + k.toNat)
  | .addrow0 => dSet d 32 4 (dRow0 d + k.toNat)
  | .addcol0 => dSet d 36 4 (dCol0 d + k.toNat)
  | .addseed => dSet d 56 8 (dSeed d + k.toNat)

/-- SMOD (R221). -/
def execSmod (t : Tok) (st : BitVec 4) (sel : SmodSel) (k : BitVec 4) (s : State) : Out :=
  engSimple s t noCheck (fun u => u.setStreg st (smodField sel (u.streg st) (u.kreg k)))

/-! ### Roles (R218) -/

/-- The operand roles of matrix words. -/
inductive Role where
  | stepA | stepB | mvA | mvB | dst | src
  deriving DecidableEq, Repr, Inhabited

/-- What a role makes of a kind. -/
inductive Verdict where
  | yes | denied | format
  deriving DecidableEq, Repr, Inhabited

/-- The table of R218. -/
def Role.verdict (r : Role) (kind : Nat) : Verdict :=
  match kind, r with
  | 1, .stepB => .denied
  | 1, .mvB => .denied
  | 1, _ => .yes
  | 2, .mvB => .format
  | 2, .dst => .denied
  | 2, _ => .yes
  | 3, _ => .denied
  | 4, _ => .yes
  | 5, .dst => .format
  | 5, _ => .yes
  | 6, .stepA => .yes
  | 6, .stepB => .yes
  | 6, .mvA => .yes
  | 6, _ => .format
  | _, _ => .format

/-- Roles of A and B streams. -/
def Role.isOperand : Role → Bool
  | .dst => false
  | .src => false
  | .stepA => true
  | .stepB => true
  | .mvA => true
  | .mvB => true

/-! ### Issue checks (R219) -/

/-- A descriptor in its role. -/
structure Named where
  d    : BitVec 512
  role : Role
  deriving DecidableEq, Repr, Inhabited

/-- Check 1. -/
def Named.reserved (n : Named) : Bool :=
  !dReservedOk n.d || decide (7 ≤ dKind n.d) || decide (13 ≤ dEtype n.d) ||
    ((dWaitFull n.d || dClearRead n.d) && !(dKind n.d == 1 || dKind n.d == 2))

/-- Element types that A and B streams take (R219). -/
def isOperandType (t : EType) : Bool :=
  isByteClass t || t == .f16 || t == .bf16 || t == .f32 || t == .k4

/-- Check 3 but for the pair. -/
def Named.format (n : Named) : Bool :=
  let t := dType n.d
  n.role.verdict (dKind n.d) == .format || (dT n.d && dKind n.d == 6) ||
    (if n.role.isOperand then !isOperandType t else t == .ks8) ||
    (dScaled n.d && (!(t == .k8 || t == .k4) || dKind n.d == 6 || decide (6 < dBh n.d) || decide (6 < dBw n.d)))

/-- The in-range logical elements of a window. -/
def windowElems (d : BitVec 512) (rows cols : Nat) : List (Nat × Nat) :=
  (List.range (min rows (dRows d - dRow0 d))).flatMap (fun i =>
    (List.range (min cols (dCols d - dCol0 d))).map (fun j => (dRow0 d + i, dCol0 d + j)))

/-- The bytes of elements and of their scales, as runs. -/
def streamRuns (d : BitVec 512) (es : List (Nat × Nat)) : List (Nat × Nat) :=
  joinRuns (es.map (fun e => ((dElemAddr d e.1 e.2).1, elemBytes (dType d)))) ++
    (if dScaled d then joinRuns (es.map (fun e => (dScaleAddr d e.1 e.2, 1))) else [])

/-- The lowest byte beyond a limit among `rows` rows of `len` bytes, `stride` apart from `base` on. -/
def beyondRows (limit base stride rows len : Nat) : Option Nat :=
  if rows = 0 || len = 0 then none
  else
    let first : Option Nat :=
      if limit < base + len then some 0
      else if stride = 0 then none
      else some ((limit - base - len) / stride + 1)
    match first with
    | some r => if r < rows then some (max limit (base + r * stride)) else none
    | none => none

/-- Blocks of 2^b that n indices from 0 on touch. -/
def blocksOf (n b : Nat) : Nat := (n + 2 ^ b - 1) / 2 ^ b

/-- Check 5: the lowest offset beyond the buffer among the bytes of every in-range element and of its scale. -/
def Named.beyond (n : Named) : Option Nat :=
  if dKind n.d = 1 || dKind n.d = 2 then
    let limit := bufSize (dSpace n.d)
    let (rows, cols) := dStored n.d (dRows n.d) (dCols n.d)
    let len := if dType n.d = .k4 then (cols + 1) / 2 else cols * (EType.bits (dType n.d) / 8)
    let elems := beyondRows limit (dBase n.d) (dStride n.d) rows len
    let scales :=
      if dScaled n.d && rows != 0 then
        beyondRows limit (dSbase n.d) (dSstride n.d) (blocksOf rows (dBh n.d)) (blocksOf cols (dBw n.d))
      else none
    lowest (elems.toList ++ scales.toList)
  else none

/-- The slot that a stream of kind 6 names (R242). -/
def dSlot (d : BitVec 512) : BitVec 4 := BitVec.ofNat 4 (dBase d)

/-- Check 4. -/
def State.slotFree (s : State) (n : Named) : Bool := dKind n.d == 6 && ((s.ctx s.myCtx).slot (dSlot n.d)).isNone

/-- The checks of R219, in order; `auto` asks for a scaled destination (R227). -/
def matrixChecks (ns : List Named) (auto : Bool) (s : State) : Issue :=
  let pairBad := match ns with
    | [a, b] => (granuleDepth (dType a.d) (dType b.d)).isNone
    | _ => false
  if ns.any Named.reserved then .fault .reservedField 0
  else if ns.any (fun n => n.role.verdict (dKind n.d) == .denied) then .fault .engineDenied 0
  else if ns.any Named.format || (auto && ns.any (fun n => !dScaled n.d)) || pairBad then .fault .streamFormat 0
  else if ns.any s.slotFree then .fault .genSlot 0
  else
    match lowest (ns.filterMap Named.beyond) with
    | some a => .fault .bufRange (BitVec.ofNat 64 a)
    | none => .go

/-- Matrix words that may be issued and not completed (R225). -/
def matrixDepth : Nat := 16

/-- Issue holds at the limit (R225), or while a task waits to change a slot that the word names (R236). -/
def matrixHeld (ns : List Named) (s : State) : Bool :=
  decide (matrixDepth ≤ (s.here).cmp.mq.length) || ns.any (fun n => dKind n.d == 6 && s.slotWanted s.myCtx (dSlot n.d))

/-- The check of a matrix word at its issue. -/
def matrixCheck (ns : State → List Named) (auto : Bool) (s : State) : Issue :=
  if matrixHeld (ns s) s then .hold .matrixLimit else matrixChecks (ns s) auto s

/-! ### Issue (R222, R225) -/

/-- Whether a matrix word has faulted and CTL has not taken its fault: every word issued after it is discarded (R232). -/
def Core.dooms (k : Core) : Bool :=
  match k.cmp.doomed with
  | some n => k.faults.any (fun f => f.eng == some .cmp && f.serial == n)
  | none => false

/-- A word joins the matrix engine's queue with what it captures, owing its pushes, and CMP goes on. -/
def State.issueMatrix (s : State) (t : Tok) (kind : MKind) (da db : BitVec 512) (acc : BitVec 6) (d8 : BitVec 8) (rm : RMode) :
    State :=
  let slot (d : BitVec 512) : Option GenSlot := if dKind d = 6 then (s.ctx s.myCtx).slot (dSlot d) else none
  s.onHere (fun k =>
    let g := k.cmp.eng
    let r := g.cur.getD default
    let m : MWord :=
      { id := g.nextOp, kind := kind, da := da, db := db, acc := acc, d8 := d8, rm := rm, ga := slot da, gb := slot db,
        batch := k.cmp.batch, next := 0, flags := { }, tag := r.cmd.tag, frag := r.cmd.frag, hyp := r.cmd.hyp,
        waddr := g.pc, serial := r.serial, sees := s.postNum }
    if k.dooms then k.engAdvance .cmp
    else
      let k := k.onCmp (fun x => { x with mq := x.mq ++ [m] })
      let k := k.onEng .cmp (fun g => { g with nextOp := g.nextOp + 1 })
      (k.owe .cmp t .matrix m.id false).engAdvance .cmp)

/-- Rows of a step's A operand (R223). -/
def stepRows : MKind → Nat
  | .mmv => 8
  | .mma => 64
  | .mmaz => 64
  | .mdrain => 64
  | .accz => 64
  | .accld => 64

/-- A step's descriptors in their roles. -/
def stepNamed (kind : MKind) (sa sb : BitVec 4) (s : State) : List Named :=
  let (ra, rb) := if kind = .mmv then (Role.mvA, Role.mvB) else (Role.stepA, Role.stepB)
  [{ d := s.streg sa, role := ra }, { d := s.streg sb, role := rb }]

/-- A step (R223). -/
def matrixStep (kind : MKind) (t : Tok) (sa sb : BitVec 4) (acc : BitVec 6) (depth : BitVec 8) (s : State) : Out :=
  engWord s t (matrixCheck (stepNamed kind sa sb) false) (fun u =>
    u.issueMatrix t kind (u.streg sa) (u.streg sb) acc depth u.shape.rm)

/-- MMA (R223). -/
def execMma (t : Tok) (sa sb : BitVec 4) (acc : BitVec 6) (depth : BitVec 8) (s : State) : Out :=
  matrixStep .mma t sa sb acc depth s

/-- MMAZ (R223). -/
def execMmaz (t : Tok) (sa sb : BitVec 4) (acc : BitVec 6) (depth : BitVec 8) (s : State) : Out :=
  matrixStep .mmaz t sa sb acc depth s

/-- MMV (R223). -/
def execMmv (t : Tok) (sa sb : BitVec 4) (acc : BitVec 6) (depth : BitVec 8) (s : State) : Out :=
  matrixStep .mmv t sa sb acc depth s

/-- One stream in a role. -/
def tileNamed (role : Role) (sa : BitVec 4) (s : State) : List Named := [{ d := s.streg sa, role := role }]

/-- MDRAIN's d8: mode, auto-scale, histogram enable and set (R227). -/
def drainBits (rm : RMode) (auto hist : Bool) (set : BitVec 2) : BitVec 8 :=
  BitVec.ofNat 8 (2 ^ 6 * rm.code + 2 ^ 5 * bit auto + 2 ^ 4 * bit hist + 2 ^ 2 * set.toNat)

/-- MDRAIN (R227). -/
def execMdrain (t : Tok) (sa : BitVec 4) (acc : BitVec 6) (rm : RMode) (auto hist : Bool) (set : BitVec 2) (s : State) : Out :=
  engWord s t (matrixCheck (tileNamed .dst sa) auto) (fun u =>
    u.issueMatrix t .mdrain (u.streg sa) 0 acc (drainBits rm auto hist set) rm)

/-- ACCZ (R228). -/
def execAccz (t : Tok) (acc : BitVec 6) (s : State) : Out :=
  engWord s t (matrixCheck (fun _ => []) false) (fun u => u.issueMatrix t .accz 0 0 acc 0 u.shape.rm)

/-- ACCLD (R228). -/
def execAccld (t : Tok) (sa : BitVec 4) (acc : BitVec 6) (s : State) : Out :=
  engWord s t (matrixCheck (tileNamed .src sa) false) (fun u => u.issueMatrix t .accld (u.streg sa) 0 acc 0 u.shape.rm)

/-! ### Batches (R230, R231) -/

/-- Sealed batches with a word that has not completed. -/
def Cmp.sealedInFlight (c : Cmp) : Nat :=
  (((c.mq.filter (fun m => decide (m.batch < c.batch))).map (fun m => m.batch)).dedup).length

/-- Sealed batches that may be in flight. -/
def batchLimit : Nat := 8

/-- MSEAL holds issue when it would make a ninth sealed batch in flight. -/
def msealCheck (s : State) : Issue :=
  let c := (s.here).cmp
  if c.mq.any (fun m => m.batch == c.batch) && decide (batchLimit ≤ c.sealedInFlight) then .hold .matrixLimit else .go

/-- MSEAL (R230). -/
def execMseal (t : Tok) (s : State) : Out :=
  engSimple s t msealCheck (fun u => u.onHere (fun k => k.onCmp (fun c => { c with batch := c.batch + 1 })))

/-- MSETTLE (R231). -/
def execMsettle (t : Tok) (n : BitVec 8) (s : State) : Out :=
  engWord s t noCheck (fun u =>
    u.onHere (fun k =>
      if k.cmp.sealedInFlight ≤ n.toNat then k.engRetire .cmp t else k.setWait .cmp (.msettle n.toNat)))

/-- MSETTLE_COMPLETE (R231). -/
def execMsettleComplete (c : CoreId) (s : State) : Out :=
  let k := s.core c
  match k.cmp.eng.wait with
  | .msettle n =>
    if k.cmp.sealedInFlight ≤ n && s.engGoes c .cmp then .next (s.onCore c (fun k => k.finishWord .cmp)) else .next s
  | _ => .next s

/-- MATRIX_ISSUE_RESUME (R225, R230, R236): a word held at a limit comes up for issue again. -/
def execMatrixIssueResume (c : CoreId) (s : State) : Out :=
  if (s.core c).cmp.eng.wait = .matrixLimit && s.engGoes c .cmp then .next (s.onCore c (fun k => k.setWait .cmp .none))
  else .next s

/-! ### HISTRD (R229) -/

/-- Whether a word is a drain that counts into a set. -/
def MWord.counts (m : MWord) (set : BitVec 2) : Bool :=
  m.kind == .mdrain && m.d8.getLsbD 4 && m.d8.extractLsb' 2 2 == set

/-- The 64 words of HISTRD's result. -/
def HistSet.words (h : HistSet) : List Nat := (h.ctr.toList.map (fun c => c.toNat)) ++ [h.hmin.toNat] ++ List.replicate 31 0

/-- HISTRD waits for the drains that count into its set; until then it has not issued (R229). -/
def histrdCheck (set : BitVec 2) (s : State) : Issue :=
  if (s.here).cmp.mq.any (fun m => m.counts set) then .hold .deferred else .go

/-- HISTRD's result and its clear. -/
def histrdEffect (d : BitVec 5) (set : BitVec 2) (clr : Bool) (u : State) : State :=
  let h := (u.here).cmp.hist[set.toNat]'(set.isLt)
  let hmin : Word := BitVec.ofNat 32 (laneOf (u.vreg d) .u32 32)
  let u' := u.setVreg d (BitVec.ofNat 2048 (ofDigits 32 h.words))
  if clr then
    u'.onHere (fun k => k.onCmp (fun x =>
      { x with hist := x.hist.set set.toNat { ctr := Vector.replicate 32 0, hmin := hmin } set.isLt }))
  else u'

/-- HISTRD (R229). -/
def execHistrd (t : Tok) (d : BitVec 5) (set : BitVec 2) (clr : Bool) (s : State) : Out :=
  engSimple s t (histrdCheck set) (histrdEffect d set clr)

end Sys2Proof.Machine
end

