-- ==== Sys2Proof/Machine/MatrixRun.lean ====
section
/-!
DEFINITION. The matrix engine's progress, part by part: granules of steps (R93, R223, R226), elements of drains (R97 to
R99, R227), ACCZ and ACCLD (R228), completion (R225), faults and clock hold (R66, R232, R250).
-/

namespace Sys2Proof.Machine

/-! ### Parts of a word -/

/-- The parts a word is made of: granules (before them, for MMAZ, the clearing of its tile), the elements of a tile, or
one. -/
def MWord.parts (m : MWord) : Nat :=
  match m.kind with
  | .mma => m.d8.toNat + 1
  | .mmaz => m.d8.toNat + 2
  | .mmv => m.d8.toNat + 1
  | .mdrain => 4096
  | .accz => 1
  | .accld => 1

/-- The granule that a part of a step is; none for MMAZ's clearing. -/
def MWord.granule (m : MWord) (part : Nat) : Option Nat :=
  match m.kind with
  | .mma => some part
  | .mmv => some part
  | .mmaz => if part = 0 then none else some (part - 1)
  | .mdrain => none
  | .accz => none
  | .accld => none

/-- Granule depth of a step (R94). -/
def MWord.depth (m : MWord) : Nat := (granuleDepth (dType m.da) (dType m.db)).getD 0

/-- The k of a granule. -/
def MWord.ks (m : MWord) (g : Nat) : List Nat := (List.range m.depth).map (fun i => g * m.depth + i)

/-- The k of a granule for which A has an element that some product takes: B has one in range beside it (R93). -/
def MWord.kA (m : MWord) (g : Nat) : List Nat :=
  (m.ks g).filter (fun k => dInRange m.db (dRow0 m.db + k) (dCol0 m.db))

/-- The same for B. -/
def MWord.kB (m : MWord) (g : Nat) : List Nat :=
  (m.ks g).filter (fun k => dInRange m.da (dRow0 m.da) (dCol0 m.da + k))

/-- The logical A elements that a granule reads. -/
def MWord.elemsA (m : MWord) (g : Nat) : List (Nat × Nat) :=
  (List.range (min (stepRows m.kind) (dRows m.da - dRow0 m.da))).flatMap (fun i =>
    ((m.kA g).filter (fun k => decide (dCol0 m.da + k < dCols m.da))).map (fun k => (dRow0 m.da + i, dCol0 m.da + k)))

/-- The logical B elements that a granule reads. -/
def MWord.elemsB (m : MWord) (g : Nat) : List (Nat × Nat) :=
  ((m.kB g).filter (fun k => decide (dRow0 m.db + k < dRows m.db))).flatMap (fun k =>
    (List.range (min 64 (dCols m.db - dCol0 m.db))).map (fun j => (dRow0 m.db + k, dCol0 m.db + j)))

/-! ### Element values (R90) -/

/-- Bytes of a stream at an address: a buffer's, or memory's under the word's hypothesis. -/
def State.streamBytes (s : State) (c : CoreId) (who : Who) (d : BitVec 512) (a n : Nat) : List Byte :=
  if dSpace d = .glob then
    match s.load who .load a n with
    | .ok (bs, _) => bs
    | .error _ => []
  else s.bufSeen (s.core c) who (dSpace d) a n

/-- The stored bits of a logical element. -/
def State.streamBits (s : State) (c : CoreId) (who : Who) (d : BitVec 512) (r col : Nat) : Nat :=
  let (a, hi) := dElemAddr d r col
  let v := leNat (s.streamBytes c who d a (elemBytes (dType d)))
  if dType d = .k4 then v / 16 ^ bit hi % 16 else v

/-- The scale byte of a logical element. -/
def State.streamScale (s : State) (c : CoreId) (who : Who) (d : BitVec 512) (r col : Nat) : Nat :=
  leNat (s.streamBytes c who d (dScaleAddr d r col) 1)

/-- A decoded value times a scale (R86, R89). -/
def scaledBy (x : XVal) (sc : Nat) : XVal :=
  if sc = 0xFF then .nan false
  else
    match x with
    | .nan g => .nan g
    | .inf n => .inf n
    | .fin n m e => .fin n (m * (ks8Mag sc).1) (e + (ks8Mag sc).2)

/-- The exact value of a logical element (R90); `sl` is the slot of a stream of kind 6. -/
def State.streamVal (s : State) (c : CoreId) (who : Who) (d : BitVec 512) (sl : Option GenSlot) (r col : Nat) : XVal :=
  match sl with
  | some g => EType.value (dType d) ((genElement g (dType d) (dSeed d) r col).getD 0)
  | none =>
    let x := EType.value (dType d) (s.streamBits c who d r col)
    if dScaled d then scaledBy x (s.streamScale c who d r col) else x

/-! ### Steps (R93) -/

/-- The sum of a granule at one element, with its invalid flag. -/
def granuleSum (mode : RMode) (ps : List (XVal × XVal)) : XVal × Bool :=
  let sum := (exactSum mode (ps.map (fun p => (p.1.mul p.2).1))).1
  let sig := ps.any (fun p => p.1.isSig || p.2.isSig)
  let nan := ps.any (fun p => p.1.isNan || p.2.isNan)
  (sum, sig || (sum.isNan && !nan))

/-- The bits of tile element (i, j). -/
def Core.tileBits (k : Core) (t : BitVec 6) (i j : Nat) : DWord := Cells.read 0 k.cbuf (4096 * t.toNat + 64 * i + j)

/-- Writes rows of a tile from row 0 on (R41). -/
def Core.putTile (k : Core) (t : BitVec 6) (vs : List DWord) : Core :=
  { k with cbuf := Cells.splice 0 k.cbuf (4096 * t.toNat) vs,
           badSram := k.stillBad .cbuf (32768 * t.toNat) (8 * vs.length) }

/-- An accumulator element after a granule: one rounding (R93). -/
def accUpdate (mode : RMode) (old : DWord) (ps : List (XVal × XVal)) : DWord × FFlags :=
  let (sum, nv) := granuleSum mode ps
  let (r, fl) := addIn .a64 mode (Fmt.a64.value old.toNat) sum
  (BitVec.ofNat 64 r, { fl with nv := fl.nv || nv })

/-- Values of one operand over a granule: a row for each i or j, an entry for each k, none out of range. -/
abbrev Grid := List (List (Option XVal))

/-- A operand of a granule, by row. -/
def State.gridA (s : State) (c : CoreId) (who : Who) (m : MWord) (g : Nat) : Grid :=
  (List.range (stepRows m.kind)).map (fun i => (m.ks g).map (fun k =>
    if (m.elemsA g).contains (dRow0 m.da + i, dCol0 m.da + k) then
      some (s.streamVal c who m.da m.ga (dRow0 m.da + i) (dCol0 m.da + k)) else none))

/-- B operand of a granule, by column. -/
def State.gridB (s : State) (c : CoreId) (who : Who) (m : MWord) (g : Nat) : Grid :=
  (List.range 64).map (fun j => (m.ks g).map (fun k =>
    if (m.elemsB g).contains (dRow0 m.db + k, dCol0 m.db + j) then
      some (s.streamVal c who m.db m.gb (dRow0 m.db + k) (dCol0 m.db + j)) else none))

/-- The products of a row and a column. -/
def pairUp (a b : List (Option XVal)) : List (XVal × XVal) :=
  (a.zip b).filterMap (fun p => match p with
    | (some x, some y) => some (x, y)
    | _ => none)

/-- A granule of a step. -/
def State.doGranule (s : State) (c : CoreId) (who : Who) (m : MWord) (g : Nat) : State × FFlags :=
  let ga := s.gridA c who m g
  let gb := s.gridB c who m g
  let k := s.core c
  let out := (List.range (stepRows m.kind)).flatMap (fun i => (List.range 64).map (fun j =>
    accUpdate m.rm (k.tileBits m.acc i j) (pairUp ((ga[i]?).getD []) ((gb[j]?).getD []))))
  (s.onCore c (fun k => k.putTile m.acc (out.map (·.1))), out.foldl (fun f r => f.or r.2) { })

/-! ### Drains (R97 to R99, R227) -/

/-- Tile element number e as logical coordinates of the destination. -/
def MWord.drainAt (m : MWord) (e : Nat) : Nat × Nat := (dRow0 m.da + e / 64, dCol0 m.da + e % 64)

/-- Whether tile element (i, j), integers, lies in the tile and in range; the number of the element if so. -/
def MWord.drainElem (m : MWord) (i j : Int) : Option Nat :=
  if 0 ≤ i && i < 64 && 0 ≤ j && j < 64 && dInRange m.da (dRow0 m.da + i.toNat) (dCol0 m.da + j.toNat) then
    some (64 * i.toNat + j.toNat) else none

/-- The element that shares a K4 element's byte, when the drain writes it too (R92, R227). -/
def MWord.partner (m : MWord) (e : Nat) : Option Nat :=
  let (r, col) := m.drainAt e
  let (_, sc) := dStored m.da r col
  let d : Int := if sc % 2 = 0 then 1 else -1
  if dT m.da then m.drainElem ((e / 64 : Nat) + d) (e % 64 : Nat) else m.drainElem (e / 64 : Nat) ((e % 64 : Nat) + d)

/-- Whether part e of a drain writes an element: one in range. -/
def MWord.drains (m : MWord) (e : Nat) : Bool := dInRange m.da (m.drainAt e).1 (m.drainAt e).2

/-- Whether part e writes one nibble of a byte and keeps the other (R227, R260). -/
def MWord.keeps (m : MWord) (e : Nat) : Bool := m.drains e && dType m.da == .k4 && (m.partner e).isNone

/-- Auto-scale (R227). -/
def MWord.auto (m : MWord) : Bool := m.d8.getLsbD 5

/-- The rows or columns of the tile that lie in the block of one of them: stored index `x` of a tile index `i` whose
origin is `o`, blocks of 2^b. -/
def blockMates (o b i : Nat) : List Nat := (List.range 64).filter (fun k => (o + k) / 2 ^ b == (o + i) / 2 ^ b)

/-- log2 of a block's extent along logical rows and columns: T exchanges them (R88). -/
def blockLogs (d : BitVec 512) : Nat × Nat := if dT d then (dBw d, dBh d) else (dBh d, dBw d)

/-- The drained elements of the block of an element (R98). -/
def MWord.block (m : MWord) (e : Nat) : List Nat :=
  let (br, bc) := blockLogs m.da
  (blockMates (dRow0 m.da) br (e / 64)).flatMap (fun (i : Nat) =>
    (blockMates (dCol0 m.da) bc (e % 64)).filterMap (fun (j : Nat) => m.drainElem i j))

/-- The value of a drained accumulator element. -/
def Core.drainVal (k : Core) (m : MWord) (e : Nat) : XVal := Fmt.a64.value (k.tileBits m.acc (e / 64) (e % 64)).toNat

/-- Whether |x| of a block's element is at most MAX times a scale (R98); NaNs are left out. -/
def underScale (max : Nat × Int) (sc : Nat) (x : XVal) : Bool :=
  match x with
  | .nan _ => true
  | .inf _ => false
  | .fin _ m e => magCmp m e (max.1 * (ks8Mag sc).1) (max.2 + (ks8Mag sc).2) != .gt

/-- MAX of R84. -/
def krytipMax (t : EType) : Nat × Int := if t = .k4 then (3, 0) else (31, -2)

/-- The scale of a block (R98). -/
def autoScale (t : EType) (xs : List XVal) : Nat :=
  ((List.range 0xFF).find? (fun sc => xs.all (underScale (krytipMax t) sc))).getD 0xFE

/-- The scale under which an element is stored: none when the destination is not scaled. -/
def State.drainScale (s : State) (c : CoreId) (who : Who) (m : MWord) (e : Nat) : Option Nat :=
  if !dScaled m.da then none
  else if m.auto then some (autoScale (dType m.da) ((m.block e).map ((s.core c).drainVal m)))
  else some (s.streamScale c who m.da (m.drainAt e).1 (m.drainAt e).2)

/-- x / value(s) into K8 or K4 (R98); under the invalid scale a NaN, and a signalling one still sets MNV (R72, R227). -/
def krytipUnder (t : EType) (mode : RMode) (sc : Nat) (x : XVal) : Nat × FFlags :=
  let y : XVal := match x with
    | .nan g => .nan g
    | .inf n => .inf n
    | .fin n m e => .fin n m (e - (ks8Mag sc).2)
  let z : XVal := if sc = 0xFF then .nan x.isSig else y
  if t = .k4 then toK4 mode z (ks8Mag sc).1 else toK8 mode z (ks8Mag sc).1

/-- The stored bits of a drained element and its flags (R97, R98). -/
def State.drainBitsOf (s : State) (c : CoreId) (who : Who) (m : MWord) (e : Nat) : Nat × FFlags :=
  let x := (s.core c).drainVal m e
  match s.drainScale c who m e with
  | some sc => krytipUnder (dType m.da) m.rm sc x
  | none =>
    if dType m.da = .a64 then (((s.core c).tileBits m.acc (e / 64) (e % 64)).toNat, { })
    else convert false x (dType m.da) m.rm false

/-- The scale byte that part e of an auto-scaled drain writes: that of a block of which it is the first element. -/
def State.scaleWrite (s : State) (c : CoreId) (who : Who) (m : MWord) (e : Nat) : Option (Nat × Nat) :=
  if dScaled m.da && m.auto && (m.block e).head? == some e then
    (s.drainScale c who m e).map (fun sc => (dScaleAddr m.da (m.drainAt e).1 (m.drainAt e).2, sc))
  else none

/-- A byte of a destination as it stands. -/
def State.destByte (s : State) (c : CoreId) (who : Who) (d : BitVec 512) (a : Nat) : Byte :=
  if dSpace d = .glob then
    match s.translate who a with
    | .ok l => s.readOwn who l a l.pa
    | .error _ => 0
  else (s.core c).bufByte (dSpace d) a

/-- The address and nibble of part e's element. -/
def MWord.elemAt (m : MWord) (e : Nat) : Nat × Bool := dElemAddr m.da (m.drainAt e).1 (m.drainAt e).2

/-- The leaf of a byte of a destination; none in a buffer. -/
def State.destLeaf (s : State) (who : Who) (d : BitVec 512) (a : Nat) : Option Leaf :=
  if dSpace d = .glob then
    match s.access who .store a 1 with
    | .ok l => some l
    | .error _ => none
  else none

/-- A whole byte to be written. -/
def wholeByte (a : Nat) (l : Option Leaf) (v : Nat) : PendByte :=
  { a := a, leaf := l, lo := some (BitVec.ofNat 4 v), hi := some (BitVec.ofNat 4 (v / 16)) }

/-- The bytes that part e converts: its element's, with the nibble that it keeps as it was read, and its block's scale. -/
def State.drainPend (s : State) (c : CoreId) (who : Who) (m : MWord) (e : Nat) : List PendByte :=
  let (a, hi) := m.elemAt e
  let v := (s.drainBitsOf c who m e).1
  let elem :=
    if dType m.da = .k4 then
      let kept := m.nib.map (fun b => setNibble b hi v)
      match kept with
      | some b => [wholeByte a (s.destLeaf who m.da a) b.toNat]
      | none =>
        let n := some (BitVec.ofNat 4 v)
        [{ a := a, leaf := s.destLeaf who m.da a, lo := if hi then none else n, hi := if hi then n else none }]
    else
      (List.range (elemBytes (dType m.da))).map (fun i =>
        wholeByte (a + i) (s.destLeaf who m.da (a + i)) (v / 256 ^ i % 256))
  elem ++ ((s.scaleWrite c who m e).map (fun p => wholeByte p.1 (s.destLeaf who m.da p.1) p.2)).toList

/-! #### When a granule of a destination is complete -/

/-- The lines of a tile in storage: how many, and how many elements each has in range. T exchanges rows and columns. -/
def MWord.lines (m : MWord) : Nat × Nat :=
  let nr := min 64 (dRows m.da - dRow0 m.da)
  let nc := min 64 (dCols m.da - dCol0 m.da)
  if dT m.da then (nc, nr) else (nr, nc)

/-- The number of element t of line x. -/
def MWord.lineElem (m : MWord) (x t : Nat) : Nat := if dT m.da then 64 * t + x else 64 * x + t

/-- How far a granule lies above an address; addresses of memory wrap. -/
def granuleGap (glob : Bool) (g a : Nat) : Int :=
  if glob then (BitVec.ofNat 64 (16 * g) - BitVec.ofNat 64 a).toInt else (16 * g : Int) - a

/-- Of `len` items, `num` bytes for every `den` of them, the first with stored index c, which begins `gap` below a granule:
the last one that touches the granule with its w bytes. -/
def lastTouching (num den w c len : Nat) (gap : Int) : Option Nat :=
  let top := gap + 15
  if top < 0 || len = 0 then none
  else
    let t := min (len - 1) (((top.toNat + c * num / den + 1) * den - 1) / num - c)
    if gap < ((c + t) * num / den - c * num / den + w : Nat) then some t else none

/-- The last part of a drain that touches a granule of its destination, with its element or its block's scale. -/
def MWord.lastPart (m : MWord) (g : Nat) : Option Nat :=
  let d := m.da
  let glob := dSpace d == .glob
  let (count, len) := m.lines
  let c := if dT d then dRow0 d else dCol0 d
  let (num, den) := if dType d = .k4 then (1, 2) else (elemBytes (dType d), 1)
  let parts := (List.range count).flatMap (fun x =>
    let (r, col) := m.drainAt (m.lineElem x 0)
    let elem := lastTouching num den (elemBytes (dType d)) c len (granuleGap glob g (dElemAddr d r col).1)
    let scale :=
      if dScaled d && m.auto then lastTouching 1 (2 ^ dBw d) 1 c len (granuleGap glob g (dScaleAddr d r col)) else none
    (elem.toList ++ scale.toList).map (m.lineElem x))
  parts.foldl (fun (b : Option Nat) (e : Nat) => some (max e (b.getD e))) none

/-- The granules that part e touches. -/
def MWord.touches (m : MWord) (e : Nat) : List Nat :=
  let a := (m.elemAt e).1
  (granules a (elemBytes (dType m.da)) ++
    (if dScaled m.da && m.auto then [dScaleAddr m.da (m.drainAt e).1 (m.drainAt e).2 / 16] else [])).dedup

/-- The granules that part e completes. -/
def MWord.completes (m : MWord) (e : Nat) : List Nat := (m.touches e).filter (fun g => m.lastPart g == some e)

/-! #### Writing granules -/

/-- The byte that pending ones make of an address: the latest of each nibble; one that none sets stays. -/
def State.pendByte (s : State) (c : CoreId) (who : Who) (m : MWord) (a : Nat) : Option Byte :=
  let ps := m.pend.filter (fun p => p.a == a)
  let lo := ps.reverse.findSome? (fun p => p.lo)
  let hi := ps.reverse.findSome? (fun p => p.hi)
  match lo, hi with
  | none, none => none
  | some l, some h => some (BitVec.ofNat 8 (l.toNat + 16 * h.toNat))
  | some l, none => some (setNibble (s.destByte c who m.da a) false l.toNat)
  | none, some h => some (setNibble (s.destByte c who m.da a) true h.toNat)

/-- Whether an agent is another matrix word of the same task. -/
def Agent.matBeside (a b : Agent) : Bool :=
  match a, b with
  | .mat u i, .mat v j => u == v && i != j
  | _, _ => false

/-- A matrix word writes n bytes: what later words have read of them ahead is forgotten, for its effects come before theirs
(R225, R257). -/
def State.dropLater (s : State) (who : Who) (sp : Space) (dev : Option Nat) (addr n : Nat) : State :=
  if s.peeks.isEmpty then s
  else
    { s with peeks := s.peeks.filter (fun p =>
        !(p.agent.matBeside who.agent &&
          (!s.windows.isEmpty || (p.sp == sp && p.dev == dev && (granules addr n).contains p.g)))) }

/-- Writes bytes of a destination: those of a W- or A-buffer make their granules FULL (R46). -/
def State.putDest (s : State) (c : CoreId) (who : Who) (m : MWord) (a : Nat) (bs : List Byte) : State :=
  if dSpace m.da = .glob then
    match (m.pend.find? (fun p => p.a == a)).bind (fun p => p.leaf) with
    | some l => ((s.dropLater who .glob l.dev l.pa bs.length).writeLeaf who l a bs).fillWindows [(a, bs.length, l)]
    | none => s
  else
    (s.dropLater who (dSpace m.da) none a bs.length).onCore c (fun k =>
      (k.putBuf (dSpace m.da) a bs).fill (dSpace m.da) (granules a bs.length))

/-- What a drain has converted of a granule is written at one point: no read sees a part of it (R45, R257). -/
def State.putGranule (s : State) (c : CoreId) (who : Who) (m : MWord) (g : Nat) : State :=
  let bs := (List.range 16).filterMap (fun i => (s.pendByte c who m (16 * g + i)).map (fun b => (16 * g + i, b)))
  (byteRuns bs).foldl (fun t r => t.putDest c who m r.1 r.2) s

/-- Everything that a drain has converted is written: it ends here. -/
def State.flushPend (s : State) (c : CoreId) (who : Who) (m : MWord) : State :=
  ((m.pend.map (fun p => p.a / 16)).dedup).foldl (fun t g => t.putGranule c who m g) s

/-- The bin of a value (R99). -/
def histBin (hmin : Int) (x : XVal) : Nat :=
  match x with
  | .nan _ => 31
  | .inf _ => 31
  | .fin _ m e => if m = 0 then 0 else (clampInt 1 30 (magLog2 m e - hmin + 1)).toNat

/-- A counter saturates (R99). -/
def satInc (w : Word) : Word := if w = BitVec.allOnes 32 then w else w + 1

/-- The set of a drain counts a value (R99). -/
def Core.countHist (k : Core) (m : MWord) (x : XVal) : Core :=
  if m.d8.getLsbD 4 then
    k.onCmp (fun q =>
      let set := m.d8.extractLsb' 2 2
      let h := q.hist[set.toNat]'(set.isLt)
      let b := histBin h.hmin.toInt x
      let h' : HistSet := if hb : b < 32 then { h with ctr := h.ctr.set b (satInc (h.ctr[b]'hb)) hb } else h
      { q with hist := q.hist.set set.toNat h' set.isLt })
  else k

/-- A part of a drain: its element is converted and counted, and the granules that it completes are written. -/
def State.doDrain (s : State) (c : CoreId) (who : Who) (m : MWord) (e : Nat) : State × MWord :=
  if m.drains e then
    let m' := { m with pend := m.pend ++ s.drainPend c who m e, flags := m.flags.or (s.drainBitsOf c who m e).2 }
    let gs := m.completes e
    let t := gs.foldl (fun t g => t.putGranule c who m' g) s
    (t.onCore c (fun k => k.countHist m ((s.core c).drainVal m e)), { m' with pend := m'.pend.filter (fun p => !gs.contains (p.a / 16)) })
  else (s, m)

/-! ### ACCZ and ACCLD (R228) -/

/-- ACCLD's element: convert into a64, +0 out of range. -/
def State.accldElem (s : State) (c : CoreId) (who : Who) (m : MWord) (e : Nat) : DWord × FFlags :=
  let (r, col) := m.drainAt e
  if dInRange m.da r col then
    let v := convert false (s.streamVal c who m.da none r col) .a64 .rne false
    (BitVec.ofNat 64 v.1, v.2)
  else (0, { })

/-- ACCLD. -/
def State.doAccld (s : State) (c : CoreId) (who : Who) (m : MWord) : State × FFlags :=
  let out := (List.range 4096).map (s.accldElem c who m)
  (s.onCore c (fun k => k.putTile m.acc (out.map (·.1))), out.foldl (fun f r => f.or r.2) { })

/-! ### Accesses of a part -/

/-- The runs of bytes that a part reads, by stream in the order A, B. -/
def MWord.reads (m : MWord) (part : Nat) : List (BitVec 512 × List (Nat × Nat)) :=
  match m.kind with
  | .accz => []
  | .accld => [(m.da, streamRuns m.da (windowElems m.da 64 64))]
  | .mdrain =>
    if dScaled m.da && !m.auto && m.drains part then
      [(m.da, [(dScaleAddr m.da (m.drainAt part).1 (m.drainAt part).2, 1)])]
    else []
  | .mma => stepReads part
  | .mmaz => stepReads part
  | .mmv => stepReads part
where
  stepReads (part : Nat) : List (BitVec 512 × List (Nat × Nat)) :=
    match m.granule part with
    | none => []
    | some g =>
      (if m.ga.isSome then [] else [(m.da, streamRuns m.da (m.elemsA g))]) ++
        (if m.gb.isSome then [] else [(m.db, streamRuns m.db (m.elemsB g))])

/-- The global accesses of a part: reads by stream, then a drain's writes. -/
def State.partReqs (s : State) (c : CoreId) (who : Who) (m : MWord) (part : Nat) : List Req :=
  let reads := ((m.reads part).zipIdx).flatMap (fun p =>
    if dSpace p.1.1 = .glob then p.1.2.map (fun (r : Nat × Nat) => ({ kind := .load, group := p.2, va := r.1, n := r.2 } : Req)) else [])
  let writes : List (Nat × Nat) :=
    if m.kind = .mdrain && dSpace m.da = .glob && m.drains part then
      ((m.elemAt part).1, elemBytes (dType m.da)) :: ((s.scaleWrite c who m part).map (fun p => (p.1, 1))).toList
    else []
  reads ++ writes.map (fun r => { kind := .store, group := 2, va := r.1, n := r.2 })

/-- The buffer granules that a part reads, with their buffer. -/
def MWord.granules (m : MWord) (part : Nat) : List (BitVec 512 × List Nat) :=
  (m.reads part).filterMap (fun p =>
    if dSpace p.1 = .glob then none else some (p.1, runGranules p.2))

/-- A part waits while a granule of a wait-full or clear-on-read stream is EMPTY and has not been read ahead (R46, R226). -/
def State.partWaits (s : State) (c : CoreId) (who : Who) (m : MWord) (part : Nat) : Bool :=
  (m.granules part).any (fun p => (dWaitFull p.1 || dClearRead p.1) &&
    !(s.core c).allFull (dSpace p.1)
      (p.2.filter (fun g => (s.peekByte who.agent (s.peekTag who) (dSpace p.1) none (16 * g)).isNone)))

/-- A clear-on-read stream empties the granules that this part is the last of its word to read (R46, R226). -/
def Core.partClears (k : Core) (m : MWord) (part : Nat) : Core :=
  (m.granules part).foldl (fun k p =>
    if dClearRead p.1 then
      let later := (List.range (m.parts - (part + 1))).flatMap (fun i =>
        (m.granules (part + 1 + i)).flatMap (fun q => if dSpace q.1 == dSpace p.1 then q.2 else []))
      k.drain (dSpace p.1) (p.2.filter (fun g => !later.contains g))
    else k) k

/-- TVAL after GEN_BOUND (R250). -/
def boundTval (slot : BitVec 4) (isB : Bool) (r col : Nat) : DWord :=
  BitVec.ofNat 64 (slot.toNat + 2 ^ 4 * bit isB + 2 ^ 8 * (r % 2 ^ 28) + 2 ^ 36 * (col % 2 ^ 28))

/-- The first element of a generated stream that raises GEN_BOUND, by row and column (R249, R250). -/
def boundIn (d : BitVec 512) (sl : Option GenSlot) (isB : Bool) (es : List (Nat × Nat)) : Option DWord :=
  match sl with
  | none => none
  | some g =>
    (es.find? (fun e => (genElement g (dType d) (dSeed d) e.1 e.2).isNone)).map (fun e => boundTval (dSlot d) isB e.1 e.2)

/-- GEN_BOUND in a part: A before B. -/
def MWord.bound (m : MWord) (part : Nat) : Option DWord :=
  match m.granule part with
  | none => none
  | some g =>
    match boundIn m.da m.ga false (m.elemsA g) with
    | some v => some v
    | none => boundIn m.db m.gb true (m.elemsB g)

/-- What stands in the way of the next part of a word. -/
inductive PartBar where
  | none
  /-- A granule is EMPTY. -/
  | empty
  | shadow (va : Nat) (ats : Bool)
  | fault (c : Cause) (tval : DWord)
  | tag (w : BitVec 4) (va : Nat)
  deriving DecidableEq, Repr, Inhabited

/-- A matrix word as a source of accesses. -/
def State.matWho (s : State) (c : CoreId) (m : MWord) : Who :=
  { s.whoOf c m.hyp with agent := .mat (s.core c).theTask.uid m.id, sees := m.sees }

/-- The bytes of its tile that a part reads: a drain's element, or the rows of a step. -/
def MWord.tileReads (m : MWord) (part : Nat) : Nat × Nat :=
  match m.kind with
  | .mdrain => if m.drains part then (32768 * m.acc.toNat + 8 * part, 8) else (0, 0)
  | .accz => (0, 0)
  | .accld => (0, 0)
  | .mma => (32768 * m.acc.toNat, 512 * stepRows m.kind)
  | .mmv => (32768 * m.acc.toNat, 512 * stepRows m.kind)
  | .mmaz => if part = 0 then (0, 0) else (32768 * m.acc.toNat, 512 * stepRows m.kind)

/-- The first uncorrectable byte that a part reads of a buffer, its streams before its tile (R312). -/
def Core.partBad (k : Core) (m : MWord) (part : Nat) : Option Nat :=
  if k.badSram.isEmpty then none
  else
    match (m.reads part).findSome? (fun p =>
        if dSpace p.1 = .glob then none else lowest (p.2.filterMap (fun r => k.badAt (dSpace p.1) r.1 r.2))) with
    | some a => some a
    | none => k.badAt .cbuf (m.tileReads part).1 (m.tileReads part).2

/-- Where a drain under a hypothesis runs out of records, with what it has converted and not yet written (R275). -/
def State.pendOver (s : State) (c : CoreId) (who : Who) (m : MWord) : Option Nat :=
  if m.pend.isEmpty then none
  else
    let next := (s.partReqs c who m m.next).flatMap (fun r =>
      match r.kind, s.accessAll who .store (pagesOf r.va r.n) with
      | .store, .ok ls => ls
      | _, _ => [])
    s.overflows who (m.pend.filterMap (fun p => p.leaf.map (fun l => (p.a, 1, l))) ++ next)

/-- Why the byte of which the next part of a drain keeps a nibble cannot be read (R260, R312). -/
def State.partKeep (s : State) (c : CoreId) (who : Who) (m : MWord) : Option (AccFault × Nat) :=
  if m.kind == .mdrain && m.keeps m.next && m.nib.isNone then
    s.keepFault (s.core c) who (dSpace m.da) (m.elemAt m.next).1
  else none

/-- What a fault is to a part. -/
def AccFault.partBar (f : AccFault) (a : Nat) : PartBar :=
  match f with
  | .trap c => .fault c (BitVec.ofNat 64 a)
  | .shadow ats => .shadow a ats
  | .tag w => .tag w a

/-- The checks of the next part: its global accesses, its granules, its generated elements (R232, R46, R250). -/
def State.partBar (s : State) (c : CoreId) (m : MWord) : PartBar :=
  let who := s.matWho c m
  match s.firstFault who (s.partReqs c who m m.next) with
  | some (f, a) => f.partBar a
  | none =>
    match s.pendOver c who m with
    | some a => .fault .hypFull (BitVec.ofNat 64 a)
    | none =>
      if s.partWaits c who m m.next then .empty
      else
        match (s.core c).partBad m m.next, s.partKeep c who m with
        | some a, _ => .fault .eccUncorr (BitVec.ofNat 64 a)
        | none, some (f, a) => f.partBar a
        | none, none =>
          match m.bound m.next with
          | some v => .fault .genBound v
          | none => .none

/-- The effect of the next part of a word, its checks passed, with the word's flags and pending bytes after it. -/
def State.partEffect (s : State) (c : CoreId) (who : Who) (m : MWord) : State × MWord :=
  let zero (t : State) : State := t.onCore c (fun k => k.putTile m.acc (List.replicate 4096 0))
  let flag (r : State × FFlags) : State × MWord := (r.1, { m with flags := m.flags.or r.2 })
  match m.kind with
  | .mdrain => s.doDrain c who m m.next
  | .accz => (zero s, m)
  | .accld => flag (s.doAccld c who m)
  | .mma => flag (s.doGranule c who m m.next)
  | .mmv => flag (s.doGranule c who m m.next)
  | .mmaz => if m.next = 0 then (zero s, m) else flag (s.doGranule c who m (m.next - 1))

/-- The next part of a word, its checks passed: a drain's nibble that keeps its partner is read first and written at a
later point (R260). -/
def State.doPart (s : State) (c : CoreId) (m : MWord) : State × MWord :=
  let who := s.matWho c m
  if m.kind == .mdrain && m.keeps m.next && m.nib.isNone then
    (s, { m with nib := some (s.destByte c who m.da (m.elemAt m.next).1) })
  else
    let r := s.partEffect c who m
    let filled := (s.partReqs c who m m.next).foldl (fun t q => t.fillAll who (pagesOf q.va q.n)) r.1
    (filled.onCore c (fun k => k.partClears m m.next), { r.2 with next := m.next + 1, nib := none })

/-! ### Progress of the queue -/

/-- Replaces the oldest word. -/
def Cmp.setHead (q : Cmp) (m : MWord) : Cmp := { q with mq := m :: q.mq.drop 1 }

/-- Whether a word's hypothesis is refuted: its pushes are not made (R277). -/
def State.wordRefuted (s : State) (c : CoreId) (m : MWord) : Bool :=
  m.hyp != 0 && (s.ctx (s.core c).theTask.ctx).isRefuted m.hyp

/-- The oldest word's parts are done: once its writes elsewhere have been performed (R261) it pushes, and once its pushes
have been made it completes with its flags (R76, R225). -/
def State.completeHead (s : State) (c : CoreId) (m : MWord) : State :=
  let refuted := s.wordRefuted c m
  if s.quiet (s.matWho c m).agent then
    s.onCore c (fun k =>
      let k := if refuted then k.dropPushes .cmp m.id else k.settle .cmp m.id false
      if (k.eng .cmp).signals m.id then k
      else (k.onCmp (fun q => { q with mq := q.mq.drop 1 })).raiseM m.flags)
  else s

/-- Up to n parts of progress. -/
def State.runMatrix (s : State) (c : CoreId) : Nat → State
  | 0 => s
  | n + 1 =>
    match (s.core c).cmp.mq with
    | [] => s
    | m :: _ =>
      if m.next < m.parts then
        match s.partBar c m with
        | .none =>
          let r := s.doPart c m
          (r.1.onCore c (fun k => k.onCmp (fun q => q.setHead r.2))).runMatrix c n
        | .empty => s
        | .shadow _ _ => s
        | .fault _ _ => s
        | .tag _ _ => s
      else (s.completeHead c m).runMatrix c n

/-- MATRIX_WORD_COMPLETE (R225): the matrix engine makes up to `parts` parts of progress, in program order. -/
def execMatrixWordComplete (c : CoreId) (parts : Nat) (s : State) : Out :=
  if s.halts c || (s.core c).hold then .next s else .next (s.runMatrix c parts)

/-- A matrix word ends by a fault (R232): the flags of what it kept are set, it and every word after it are discarded
with their pushes, and the fault is reported. What CMP issues until CTL takes it is discarded too. -/
def Core.failMatrix (k : Core) (cause : Cause) (tval : DWord) : Core :=
  match k.cmp.mq with
  | [] => k
  | m :: _ =>
    let f : EngFault :=
      { eng := some .cmp, serial := m.serial, cause := cause, tval := tval, waddr := m.waddr, frag := m.frag, tag := m.tag,
        hyp := m.hyp }
    let k := k.cmp.mq.foldl (fun k w => k.dropPushes .cmp w.id) k
    ((k.onCmp (fun q => { q with mq := [], doomed := some m.serial })).raiseM m.flags).post f

/-- The oldest word ends by a fault: what a drain has converted is written (R232). -/
def State.failHead (s : State) (c : CoreId) (m : MWord) (cause : Cause) (tval : DWord) : State :=
  (s.flushPend c (s.matWho c m) m).onCore c (fun k => k.failMatrix cause tval)

/-- MATRIX_WORD_FAULT (R232): the next part of the oldest word meets a fault that no service resolves. -/
def execMatrixWordFault (c : CoreId) (s : State) : Out :=
  let k := s.core c
  match k.cmp.mq with
  | [] => .next s
  | m :: _ =>
    if s.halts c || k.hold || m.parts ≤ m.next then .next s
    else
      match s.partBar c m with
      | .fault cause v => .next (s.failHead c m cause v)
      | .tag w a => .next ((s.tagError w).failHead c m .eccUncorr (BitVec.ofNat 64 a))
      | .shadow a _ => if s.shlim = 0 then .next (s.failHead c m .pageNotPresent (BitVec.ofNat 64 a)) else .next s
      | .none => .next s
      | .empty => .next s

/-- CLOCK_HOLD (R66): the next part of the oldest word finds V = 0, and the core's clocks are held while the shadow
control context serves it. -/
def execClockHold (c : CoreId) (s : State) : Out :=
  let k := s.core c
  match k.cmp.mq with
  | [] => .next s
  | m :: _ =>
    if s.halts c || k.hold || m.parts ≤ m.next || s.shlim = 0 then .next s
    else
      match s.partBar c m with
      | .shadow a ats =>
        .next (s.onCore c (fun k =>
          { k with hold := true, holdAt := s.clock }.offer
            { who := .matrix, va := BitVec.ofNat 64 a, ats := ats, arr := s.clock }))
      | .none => .next s
      | .empty => .next s
      | .fault _ _ => .next s
      | .tag _ _ => .next s

/-- The streams that a word reads. -/
def MWord.streams (m : MWord) : List (BitVec 512) :=
  match m.kind with
  | .mma => [m.da, m.db]
  | .mmaz => [m.da, m.db]
  | .mmv => [m.da, m.db]
  | .mdrain => [m.da]
  | .accz => []
  | .accld => [m.da]

/-- The matrix engine reads a granule of a buffer, or a line of memory, for a word in flight ahead (R226); one of a wait-full
or clear-on-read stream only while it is FULL, and not where an earlier word's reads are yet to empty granules (R46). -/
def State.peekMat (s : State) (c : CoreId) (id : Nat) (sp : Space) (g : Nat) : State :=
  let k := s.core c
  match k.cmp.mq.find? (fun m => m.id == id) with
  | none => s
  | some m =>
    let full := m.streams.any (fun d => dSpace d == sp && (dWaitFull d || dClearRead d))
    let empties := (k.cmp.mq.takeWhile (fun w => w.id != id)).any (fun w => w.streams.any (fun d => dSpace d == sp && dClearRead d))
    if s.halts c || k.hold || (sp != .glob && full && (empties || !k.allFull sp [g])) then s
    else if sp = .glob then
      (List.range 8).foldl (fun (t : State) i => t.ahead k (s.matWho c m) sp (g / 8 * 8 + i)) s
    else s.ahead k (s.matWho c m) sp g

end Sys2Proof.Machine
end

