-- ==== Sys2Proof/Machine/Service.lean ====
section
/-!
DEFINITION. The steps that end an engine's waits (R26, R170, R177, R229), the shadow control context's service of faults
(R66, R67, R311), and the answers of the host to address translation requests (R65).
-/

namespace Sys2Proof.Machine

/-! ### Tokens (R26) -/

/-- TOKEN_WAIT_ISSUE (R26): every FIFO that a waiting word waits on holds a token; the word may issue. -/
def execTokenWaitIssue (c : CoreId) (e : Engine) (s : State) : Out :=
  let k := s.core c
  if (k.eng e).wait = .tokens && k.tokensPresent (wordPops e (k.engWordBits e)) && s.engGoes c e then
    .next (s.onCore c (fun k => k.setWait e.seqr .none))
  else .next s

/-- TOKEN_PUSH_DELAYED (R26): pushes that waited for space are made. -/
def execTokenPushDelayed (c : CoreId) (e : Engine) (s : State) : Out := .next (s.onCore c (fun k => k.drainPushes e))

/-- DEFERRED_RETIRE (R170, R177, R212, R214, R229): a SEMADD, TUSE or HISTRD that waits looks again whether the work before
it has completed, and then issues. SEMADD and FRAGSEL of CMP wait for earlier vector words, which complete with their own
step here. -/
def execDeferredRetire (c : CoreId) (e : Engine) (s : State) : Out :=
  let k := s.core c
  if (k.eng e).wait = .deferred && s.engGoes c e then
    let u := { s.onCore c (fun k => k.setWait e.seqr .none) with actCore := c, actSeq := e.seqr }
    match k.instrAt e.seqr (fetchOf e) (engWords e) (k.eng e).pc with
    | .xferSemadd t n arg => execXferSemadd t n arg u
    | .tuse t x => execTuse t x u
    | .histrd t d set clr => execHistrd t d set clr u
    | _ => .next s
  else .next s

/-! ### Resolving a fault (R311) -/

/-- The record address of the SPAWN at CTL's PC. -/
def State.spawnVa (s : State) (c : CoreId) : DWord :=
  match (s.core c).instrAt .ctl .ctl ctlWords (s.core c).ctl.pc with
  | .spawn a => (s.core c).ctl.reg a
  | _ => 0

/-- CTL goes on from a fault: its word runs again, or traps (R146, R19, R36). -/
def State.endCtlFault (s : State) (c : CoreId) (ok : Bool) (cause : Cause) (tval : DWord) : State :=
  if (s.core c).ctl.wait = .shadow then
    let u := { s.onCore c (fun k => k.setWait .ctl .none) with actCore := c, actSeq := .ctl }
    if ok then u else u.ctlTrap cause tval
  else s

/-- An engine's word goes on from a fault. -/
def State.endWordFault (s : State) (c : CoreId) (e : Engine) (ok : Bool) (va : DWord) : State :=
  if ((s.core c).eng e).wait = .shadow then
    s.onCore c (fun k => if ok then k.setWait e.seqr .none else k.stopAt e .pageNotPresent va)
  else s

/-- The job of a step hears what came of its fault (R187). -/
def State.endJobFault (s : State) (uid : Nat) (sts : Bool) (op : Nat) (ok : Bool) (va : DWord) : State :=
  let mine (j : MdecJob) : Bool := j.uid == uid && j.sts == sts && j.op == op && j.held
  let at_ (i : Fin 4) : Option (Fin 4 × MdecJob) := (s.media[i].job.filter mine).map (fun j => (i, j))
  match [at_ 0, at_ 1, at_ 2, at_ 3].findSome? id with
  | some (i, j) => s.jobVerdict i j ok va
  | none => s

/-- An asynchronous step goes on from a fault, or ends by it (R179, R300, R184). -/
def State.endStepFault (s : State) (c : CoreId) (e : Engine) (op : Nat) (ok : Bool) (va : DWord) : State :=
  match stsOf e with
  | none => s
  | some sts =>
    match ((s.core c).xfer sts).op op with
    | none => s
    | some o =>
      match o.kind with
      | .copy p =>
        if ok then s.onCore c (fun k => k.onXfer sts (fun x => x.setOp { o with kind := .copy { p with held := false } }))
        else s.opFault c e sts o .pageNotPresent va.toNat
      | .coll num _ =>
        match s.inst num with
        | none => s
        | some i => if ok then s.setInst { i with held := false } else s.walkFault i o .pageNotPresent va.toNat
      | .mdec => s.endJobFault (s.core c).theTask.uid sts op ok va

/-- A matrix word under clock hold goes on, or ends by its fault. When its next stream finds V = 0 too, that fault is
served within the same hold (R66). -/
def State.endMatrixFault (s : State) (c : CoreId) (ok : Bool) (va : DWord) : State :=
  let free := s.onCore c (fun k => { k with hold := false })
  if !(s.core c).hold then s
  else
    match (s.core c).cmp.mq with
    | [] => free
    | m :: _ =>
      if !ok then free.failHead c m .pageNotPresent va
      else
        match s.partBar c m with
        | .shadow a ats =>
          s.onCore c (fun k => k.offer { who := .matrix, va := BitVec.ofNat 64 a, ats := ats, arr := s.clock })
        | .none => free
        | .empty => free
        | .fault _ _ => free
        | .tag _ _ => free

/-- A collective's destination fault has been served, or drops its arrival (R300). -/
def State.endDestFault (s : State) (id : Nat) (ok : Bool) : State :=
  match s.collData.find? (fun a => a.id == id) with
  | none => s
  | some a =>
    match a.inst.bind s.inst with
    | none => s.setArrival { a with held := false }
    | some i => if ok then s.setArrival { a with held := false } else s.dropArrival a i .pageNotPresent

/-- An event increment's fault has been served, or loses it (R297). -/
def State.endEventFault (s : State) (id : Nat) (ok : Bool) : State :=
  match s.collEvents.find? (fun e => e.id == id) with
  | none => s
  | some e =>
    let s := { s with collEvents := s.collEvents.filter (fun f => f.id != id) }
    if ok then s.raiseWord e.inst e.va else s.collFault e.inst .pageNotPresent e.va

/-- The outcome of a service reaches the operation that faulted (R19, R36, R66, R146, R179, R297, R300, R309). -/
def State.endFault (s : State) (c : CoreId) (r : ShadowReq) (ok : Bool) : State :=
  match r.who with
  | .ctl => s.endCtlFault c ok .pageNotPresent r.va
  | .ring => s.endCtlFault c ok .queueSpillFault r.va
  | .spawn => s.endCtlFault c ok .spawnFull (s.spawnVa c)
  | .word e => s.endWordFault c e ok r.va
  | .step e op => s.endStepFault c e op ok r.va
  | .matrix => s.endMatrixFault c ok r.va
  | .save => if ok then s.trySave c else s.failSave c r.va
  | .collDst id => s.endDestFault id ok
  | .collEvent id => s.endEventFault id ok

/-- The service under way on a core ends. -/
def State.endService (s : State) (c : CoreId) (ok : Bool) : State :=
  match (s.core c).serving with
  | none => s
  | some (r, _) => (s.onCore c (fun k => { k with serving := none })).endFault c r ok

/-- The first pending fault that the shadow control context of a core may serve: while the core's world is sealed, only
one that belongs to no sequencer of its task, or the save of the task that has left (R311, R327). -/
def Core.nextReq (k : Core) : Option ShadowReq :=
  k.shadowQ.find? (fun r => !k.sealed || r.who.ofDevice || r.who == .save)

/-- SHADOW_FAULT_SERVICE (R311): the shadow control context of a core begins with the next pending fault. -/
def execShadowFaultService (c : CoreId) (s : State) : Out :=
  let k := s.core c
  match k.serving, k.nextReq with
  | none, some r => .next (s.setCore c { k with serving := some (r, s.clock), shadowQ := k.shadowQ.erase r })
  | _, _ => .next s

/-- What the handler writes: 64-bit entries at aligned addresses of HBM that exist, as plaintext (R66, R324, log 13). The
hardware lets no firmware write host memory, which is reached through ATS alone (R331). -/
def State.firmwareWrites (s : State) (ws : List (Nat × DWord)) : State :=
  ws.foldl (fun t (w : Nat × DWord) =>
    if w.1 % 8 = 0 && t.paExists w.1 && !isPcie w.1 then t.homeStore w.1 (leBytes 8 w.2.toNat) else t) s

/-- A change that the handler makes to its own context (R311). -/
def Shadow.write (h : Shadow) (w : ShadowWrite) : Shadow :=
  match w with
  | .reg n v => if n = 0 then h else { h with s := h.s.set n.toNat v n.isLt }
  | .pc v => { h with pc := v }
  | .csr n v => { h with csrs := Cells.write 0 h.csrs (0x800 + n.toNat) v }

/-- What the handler leaves in its own registers and CSRs. -/
def State.ownWrites (s : State) (c : CoreId) (ws : List ShadowWrite) : State :=
  s.onCore c (fun k => { k with shadow := ws.foldl Shadow.write k.shadow })

/-- The clock from which the limit of a service counts: under clock hold that at which the hold began (R67), else its own
beginning (R311). -/
def Core.limitFrom (k : Core) (r : ShadowReq) (began : Nat) : Nat := if r.who == .matrix then k.holdAt else began

/-- Whether the service under way on a core has outlasted SHLIM (R67, R311). -/
def State.outlasted (s : State) (c : CoreId) (r : ShadowReq) (began : Nat) : Bool :=
  decide (s.shlim.toNat < s.clock - (s.core c).limitFrom r began)

/-- SHADOW_SERVICE_DONE (R311): the handler ends, having written page-table entries and its own registers and CSRs, and
reports the fault resolved or not. A fault of an ATS answer waits for the PRG response instead (R65). -/
def execShadowServiceDone (c : CoreId) (resolved : Bool) (writes : HandlerWrites) (s : State) : Out :=
  match (s.core c).serving with
  | none => .next s
  | some (r, began) =>
    if r.ats then .next s
    else .next (((s.firmwareWrites writes.mem).ownWrites c writes.own).endService c (resolved && !s.outlasted c r began))

/-- A clock hold that has outlasted SHLIM before its service began, while another is under way, is unresolvable (R67). -/
def State.expireHold (s : State) (c : CoreId) : State :=
  let k := s.core c
  match k.shadowQ.find? (fun r => r.who == .matrix) with
  | none => s
  | some r =>
    if k.hold && s.outlasted c r 0 && !k.sealed then
      (s.onCore c (fun k => { k with shadowQ := k.shadowQ.erase r })).endFault c r false
    else s

/-- SHADOW_LIMIT_EXPIRY (R67, R311): a service, or a clock hold, that has outlasted SHLIM is unresolvable. -/
def execShadowLimitExpiry (c : CoreId) (s : State) : Out :=
  match (s.core c).serving with
  | none => .next (s.expireHold c)
  | some (r, began) => if s.outlasted c r began then .next (s.endService c false) else .next (s.expireHold c)

/-! ### Address translation services (R65) -/

/-- PRG_RESPONSE (R65): on Success the access asks for its translation again; any other response makes the fault
unresolvable. -/
def execPrgResponse (c : CoreId) (success : Bool) (s : State) : Out :=
  match (s.core c).serving with
  | none => .next s
  | some (r, began) => if r.ats then .next (s.endService c (success && !s.outlasted c r began)) else .next s

/-- Whether a cached translation is one of a PASID whose host pages meet a range. -/
def atsCovers (pasid : BitVec 20) (addr len : Nat) (t : TlbEnt) : Bool :=
  let pa := ptePa t.leaf.toNat
  let size := if t.big then 2 ^ 29 else 2 ^ 16
  t.pasid == pasid && isPcie pa && decide (pa < addr + len) && decide (addr < pa + size)

/-- Whether an access of PCIe space that has issued under such an entry has yet to be performed (R64, R261). -/
def State.atsBusy (s : State) (pasid : BitVec 20) (addr len : Nat) : Bool :=
  s.posted.any (fun p => p.who.desc.pasid == pasid &&
    p.touches.any (fun t => t.1.isNone && isPcie t.2.1 && decide (t.2.1 < addr + len) && decide (addr < t.2.1 + t.2.2)))

/-- ATS_INVALIDATION (R65, R64): the host withdraws translations of a PASID over a range of frames, once no access under
them is under way. -/
def execAtsInvalidation (pasid : BitVec 20) (addr len : DWord) (s : State) : Out :=
  if s.atsBusy pasid addr.toNat len.toNat then .next s
  else .next (s.forget (atsCovers pasid addr.toNat len.toNat))

end Sys2Proof.Machine
end

