-- ==== Sys2Proof/Machine/Dispatch.lean ====
section
/-!
DEFINITION. The dispatch of every instruction and every step of the device to its meaning.
-/

namespace Sys2Proof.Machine

def exec (i : Instr) (s : State) : Host.Outcome State Fault Refusal :=
  match i with
  | .add d a b w => Sys2Proof.Machine.execAdd d a b w s
  | .sub d a b w => Sys2Proof.Machine.execSub d a b w s
  | .and d a b w => Sys2Proof.Machine.execAnd d a b w s
  | .or d a b w => Sys2Proof.Machine.execOr d a b w s
  | .xor d a b w => Sys2Proof.Machine.execXor d a b w s
  | .shl d a b w => Sys2Proof.Machine.execShl d a b w s
  | .shr d a b w => Sys2Proof.Machine.execShr d a b w s
  | .sra d a b w => Sys2Proof.Machine.execSra d a b w s
  | .rol d a b w => Sys2Proof.Machine.execRol d a b w s
  | .slt d a b w => Sys2Proof.Machine.execSlt d a b w s
  | .sltu d a b w => Sys2Proof.Machine.execSltu d a b w s
  | .min d a b w => Sys2Proof.Machine.execMin d a b w s
  | .max d a b w => Sys2Proof.Machine.execMax d a b w s
  | .minu d a b w => Sys2Proof.Machine.execMinu d a b w s
  | .maxu d a b w => Sys2Proof.Machine.execMaxu d a b w s
  | .clz d a w => Sys2Proof.Machine.execClz d a w s
  | .ctz d a w => Sys2Proof.Machine.execCtz d a w s
  | .popc d a w => Sys2Proof.Machine.execPopc d a w s
  | .addi d a imm => Sys2Proof.Machine.execAddi d a imm s
  | .slti d a imm => Sys2Proof.Machine.execSlti d a imm s
  | .sltiu d a imm => Sys2Proof.Machine.execSltiu d a imm s
  | .andi d a imm => Sys2Proof.Machine.execAndi d a imm s
  | .ori d a imm => Sys2Proof.Machine.execOri d a imm s
  | .xori d a imm => Sys2Proof.Machine.execXori d a imm s
  | .shli d a w imm => Sys2Proof.Machine.execShli d a w imm s
  | .shri d a w imm => Sys2Proof.Machine.execShri d a w imm s
  | .srai d a w imm => Sys2Proof.Machine.execSrai d a w imm s
  | .roli d a w imm => Sys2Proof.Machine.execRoli d a w imm s
  | .lui d imm => Sys2Proof.Machine.execLui d imm s
  | .lih d imm => Sys2Proof.Machine.execLih d imm s
  | .mul d a b w => Sys2Proof.Machine.execMul d a b w s
  | .mulh d a b => Sys2Proof.Machine.execMulh d a b s
  | .mulhu d a b => Sys2Proof.Machine.execMulhu d a b s
  | .div d a b w => Sys2Proof.Machine.execDiv d a b w s
  | .divu d a b w => Sys2Proof.Machine.execDivu d a b w s
  | .rem d a b w => Sys2Proof.Machine.execRem d a b w s
  | .remu d a b w => Sys2Proof.Machine.execRemu d a b w s
  | .ldb d a imm => Sys2Proof.Machine.execLdb d a imm s
  | .ldbu d a imm => Sys2Proof.Machine.execLdbu d a imm s
  | .ldh d a imm => Sys2Proof.Machine.execLdh d a imm s
  | .ldhu d a imm => Sys2Proof.Machine.execLdhu d a imm s
  | .ldw d a imm => Sys2Proof.Machine.execLdw d a imm s
  | .ldwu d a imm => Sys2Proof.Machine.execLdwu d a imm s
  | .ldd d a imm => Sys2Proof.Machine.execLdd d a imm s
  | .stb b a imm => Sys2Proof.Machine.execStb b a imm s
  | .sth b a imm => Sys2Proof.Machine.execSth b a imm s
  | .stw b a imm => Sys2Proof.Machine.execStw b a imm s
  | .std b a imm => Sys2Proof.Machine.execStd b a imm s
  | .amoadd d a b ms sz => Sys2Proof.Machine.execAmoadd d a b ms sz s
  | .amoand d a b ms sz => Sys2Proof.Machine.execAmoand d a b ms sz s
  | .amoor d a b ms sz => Sys2Proof.Machine.execAmoor d a b ms sz s
  | .amoxor d a b ms sz => Sys2Proof.Machine.execAmoxor d a b ms sz s
  | .amomin d a b ms sz => Sys2Proof.Machine.execAmomin d a b ms sz s
  | .amomax d a b ms sz => Sys2Proof.Machine.execAmomax d a b ms sz s
  | .amominu d a b ms sz => Sys2Proof.Machine.execAmominu d a b ms sz s
  | .amomaxu d a b ms sz => Sys2Proof.Machine.execAmomaxu d a b ms sz s
  | .amoswap d a b ms sz => Sys2Proof.Machine.execAmoswap d a b ms sz s
  | .amocas d a b ms sz => Sys2Proof.Machine.execAmocas d a b ms sz s
  | .amofadd d a b ms sz => Sys2Proof.Machine.execAmofadd d a b ms sz s
  | .amonswap d a b hi ms => Sys2Proof.Machine.execAmonswap d a b hi ms s
  | .cwb a imm => Sys2Proof.Machine.execCwb a imm s
  | .cinv a imm => Sys2Proof.Machine.execCinv a imm s
  | .cwbinv a imm => Sys2Proof.Machine.execCwbinv a imm s
  | .cpref a imm => Sys2Proof.Machine.execCpref a imm s
  | .beq a b off => Sys2Proof.Machine.execBeq a b off s
  | .bne a b off => Sys2Proof.Machine.execBne a b off s
  | .blt a b off => Sys2Proof.Machine.execBlt a b off s
  | .bge a b off => Sys2Proof.Machine.execBge a b off s
  | .bltu a b off => Sys2Proof.Machine.execBltu a b off s
  | .bgeu a b off => Sys2Proof.Machine.execBgeu a b off s
  | .jal off => Sys2Proof.Machine.execJal off s
  | .jalr d a imm => Sys2Proof.Machine.execJalr d a imm s
  | .loop a imm => Sys2Proof.Machine.execLoop a imm s
  | .disp eng frag n g => Sys2Proof.Machine.execDisp eng frag n g s
  | .dispx eng n g => Sys2Proof.Machine.execDispx eng n g s
  | .qcancel a => Sys2Proof.Machine.execQcancel a s
  | .qdrain => Sys2Proof.Machine.execQdrain s
  | .qstatrd d => Sys2Proof.Machine.execQstatrd d s
  | .semadd a b => Sys2Proof.Machine.execSemadd a b s
  | .semwait a b => Sys2Proof.Machine.execSemwait a b s
  | .rflag d a b => Sys2Proof.Machine.execRflag d a b s
  | .mflag d a b => Sys2Proof.Machine.execMflag d a b s
  | .spawn a => Sys2Proof.Machine.execSpawn a s
  | .waitev a b => Sys2Proof.Machine.execWaitev a b s
  | .exit => Sys2Proof.Machine.execExit s
  | .sigev a b => Sys2Proof.Machine.execSigev a b s
  | .hopen d a => Sys2Proof.Machine.execHopen d a s
  | .hwin d a => Sys2Proof.Machine.execHwin d a s
  | .hset a => Sys2Proof.Machine.execHset a s
  | .hresolve a confirm => Sys2Proof.Machine.execHresolve a confirm s
  | .hcommit a b => Sys2Proof.Machine.execHcommit a b s
  | .hstat d a => Sys2Proof.Machine.execHstat d a s
  | .gload a b => Sys2Proof.Machine.execGload a b s
  | .gfree b => Sys2Proof.Machine.execGfree b s
  | .gparam a b => Sys2Proof.Machine.execGparam a b s
  | .palloc d a => Sys2Proof.Machine.execPalloc d a s
  | .pfree a => Sys2Proof.Machine.execPfree a s
  | .tltset d a b => Sys2Proof.Machine.execTltset d a b s
  | .tltuse a => Sys2Proof.Machine.execTltuse a s
  | .mapw d a b => Sys2Proof.Machine.execMapw d a b s
  | .unmapw d => Sys2Proof.Machine.execUnmapw d s
  | .csrd d csr => Sys2Proof.Machine.execCsrd d csr s
  | .cswr a csr => Sys2Proof.Machine.execCswr a csr s
  | .trap a => Sys2Proof.Machine.execTrap a s
  | .rett => Sys2Proof.Machine.execRett s
  | .brk => Sys2Proof.Machine.execBrk s
  | .fence a => Sys2Proof.Machine.execFence a s
  | .wfe => Sys2Proof.Machine.execWfe s
  | .xferNop t => Sys2Proof.Machine.execXferNop t s
  | .xferEnd t => Sys2Proof.Machine.execXferEnd t s
  | .copy t x y z src dst use => Sys2Proof.Machine.execCopy t x y z src dst use s
  | .gath t x y z src dst use => Sys2Proof.Machine.execGath t x y z src dst use s
  | .scat t x y z src dst use => Sys2Proof.Machine.execScat t x y z src dst use s
  | .boxld t x y => Sys2Proof.Machine.execBoxld t x y s
  | .aadd t x y z => Sys2Proof.Machine.execAadd t x y z s
  | .ali t x imm => Sys2Proof.Machine.execAli t x imm s
  | .amov t x y => Sys2Proof.Machine.execAmov t x y s
  | .xferSemwait t sem arg => Sys2Proof.Machine.execXferSemwait t sem arg s
  | .xferSemadd t sem arg => Sys2Proof.Machine.execXferSemadd t sem arg s
  | .loopt t x imm => Sys2Proof.Machine.execLoopt t x imm s
  | .coll t x => Sys2Proof.Machine.execColl t x s
  | .mdec t x => Sys2Proof.Machine.execMdec t x s
  | .pref t x z src => Sys2Proof.Machine.execPref t x z src s
  | .zero t x z dst => Sys2Proof.Machine.execZero t x z dst s
  | .tuse t x => Sys2Proof.Machine.execTuse t x s
  | .vadd t p d a b => Sys2Proof.Machine.execVadd t p d a b s
  | .vsub t p d a b => Sys2Proof.Machine.execVsub t p d a b s
  | .vmul t p d a b => Sys2Proof.Machine.execVmul t p d a b s
  | .vmulh t p d a b => Sys2Proof.Machine.execVmulh t p d a b s
  | .vfma t p d a b => Sys2Proof.Machine.execVfma t p d a b s
  | .vfms t p d a b => Sys2Proof.Machine.execVfms t p d a b s
  | .vmin t p d a b => Sys2Proof.Machine.execVmin t p d a b s
  | .vmax t p d a b => Sys2Proof.Machine.execVmax t p d a b s
  | .vabs t p d a => Sys2Proof.Machine.execVabs t p d a s
  | .vneg t p d a => Sys2Proof.Machine.execVneg t p d a s
  | .vdiv t p d a b => Sys2Proof.Machine.execVdiv t p d a b s
  | .vsqrt t p d a => Sys2Proof.Machine.execVsqrt t p d a s
  | .vrcp t p d a => Sys2Proof.Machine.execVrcp t p d a s
  | .vrsq t p d a => Sys2Proof.Machine.execVrsq t p d a s
  | .vexp2 t p d a => Sys2Proof.Machine.execVexp2 t p d a s
  | .vlog2 t p d a => Sys2Proof.Machine.execVlog2 t p d a s
  | .vand t p d a b => Sys2Proof.Machine.execVand t p d a b s
  | .vor t p d a b => Sys2Proof.Machine.execVor t p d a b s
  | .vxor t p d a b => Sys2Proof.Machine.execVxor t p d a b s
  | .vnot t p d a => Sys2Proof.Machine.execVnot t p d a s
  | .vshl t p d a b => Sys2Proof.Machine.execVshl t p d a b s
  | .vshr t p d a b => Sys2Proof.Machine.execVshr t p d a b s
  | .vsra t p d a b => Sys2Proof.Machine.execVsra t p d a b s
  | .vfshl t p d a b => Sys2Proof.Machine.execVfshl t p d a b s
  | .vfshr t p d a b => Sys2Proof.Machine.execVfshr t p d a b s
  | .vclz t p d a => Sys2Proof.Machine.execVclz t p d a s
  | .vpopc t p d a => Sys2Proof.Machine.execVpopc t p d a s
  | .vsel t p d a b => Sys2Proof.Machine.execVsel t p d a b s
  | .vmov t p d a => Sys2Proof.Machine.execVmov t p d a s
  | .vcvt t p d a src => Sys2Proof.Machine.execVcvt t p d a src s
  | .vcmpeq t p d a b => Sys2Proof.Machine.execVcmpeq t p d a b s
  | .vcmplt t p d a b => Sys2Proof.Machine.execVcmplt t p d a b s
  | .vcmple t p d a b => Sys2Proof.Machine.execVcmple t p d a b s
  | .vcmpne t p d a b => Sys2Proof.Machine.execVcmpne t p d a b s
  | .vadds t p d a b => Sys2Proof.Machine.execVadds t p d a b s
  | .vsubs t p d a b => Sys2Proof.Machine.execVsubs t p d a b s
  | .vredsum t p d a => Sys2Proof.Machine.execVredsum t p d a s
  | .vredmax t p d a => Sys2Proof.Machine.execVredmax t p d a s
  | .vredmin t p d a => Sys2Proof.Machine.execVredmin t p d a s
  | .vscan t p d a => Sys2Proof.Machine.execVscan t p d a s
  | .vscanx t p d a => Sys2Proof.Machine.execVscanx t p d a s
  | .vbcast t p d a b => Sys2Proof.Machine.execVbcast t p d a b s
  | .viota t p d => Sys2Proof.Machine.execViota t p d s
  | .vaccept t p d a b => Sys2Proof.Machine.execVaccept t p d a b s
  | .vfirst t p d a => Sys2Proof.Machine.execVfirst t p d a s
  | .vhash t p d a b => Sys2Proof.Machine.execVhash t p d a b s
  | .vunif t p d a => Sys2Proof.Machine.execVunif t p d a s
  | .vld t p v k sp q => Sys2Proof.Machine.execVld t p v k sp q s
  | .vst t p v k sp q => Sys2Proof.Machine.execVst t p v k sp q s
  | .vldi t p v k sp q => Sys2Proof.Machine.execVldi t p v k sp q s
  | .vsti t p v k sp q => Sys2Proof.Machine.execVsti t p v k sp q s
  | .vstu t p v k sp q => Sys2Proof.Machine.execVstu t p v k sp q s
  | .vgath t p v vi k sp => Sys2Proof.Machine.execVgath t p v vi k sp s
  | .vscat t p v vi k sp => Sys2Proof.Machine.execVscat t p v vi k sp s
  | .vpart t p v vi m => Sys2Proof.Machine.execVpart t p v vi m s
  | .vperm t p v vi => Sys2Proof.Machine.execVperm t p v vi s
  | .vldb t p v k sp q => Sys2Proof.Machine.execVldb t p v k sp q s
  | .mma t sa sb acc depth => Sys2Proof.Machine.execMma t sa sb acc depth s
  | .mmaz t sa sb acc depth => Sys2Proof.Machine.execMmaz t sa sb acc depth s
  | .mmv t sa sb acc depth => Sys2Proof.Machine.execMmv t sa sb acc depth s
  | .mdrain t sa acc rm auto hist set => Sys2Proof.Machine.execMdrain t sa acc rm auto hist set s
  | .mseal t => Sys2Proof.Machine.execMseal t s
  | .msettle t n => Sys2Proof.Machine.execMsettle t n s
  | .accz t acc => Sys2Proof.Machine.execAccz t acc s
  | .accld t sa acc => Sys2Proof.Machine.execAccld t sa acc s
  | .cmpNop t => Sys2Proof.Machine.execCmpNop t s
  | .cmpEnd t => Sys2Proof.Machine.execCmpEnd t s
  | .shape t ty rm sat g k => Sys2Proof.Machine.execShape t ty rm sat g k s
  | .sld t st k sp => Sys2Proof.Machine.execSld t st k sp s
  | .smod t st sel k => Sys2Proof.Machine.execSmod t st sel k s
  | .kadd t d a imm => Sys2Proof.Machine.execKadd t d a imm s
  | .kli t d imm => Sys2Proof.Machine.execKli t d imm s
  | .kmov t d a => Sys2Proof.Machine.execKmov t d a s
  | .vli t d imm => Sys2Proof.Machine.execVli t d imm s
  | .pset t d mode => Sys2Proof.Machine.execPset t d mode s
  | .cmpSemwait t sem arg => Sys2Proof.Machine.execCmpSemwait t sem arg s
  | .cmpSemadd t sem arg => Sys2Proof.Machine.execCmpSemadd t sem arg s
  | .loopk t k imm => Sys2Proof.Machine.execLoopk t k imm s
  | .fragsel t f a => Sys2Proof.Machine.execFragsel t f a s
  | .histrd t d set clr => Sys2Proof.Machine.execHistrd t d set clr s
  | .feclr t sp o l => Sys2Proof.Machine.execFeclr t sp o l s
  | .gstat t d slot => Sys2Proof.Machine.execGstat t d slot s
  | .genAdd d a b => Sys2Proof.Machine.execGenAdd d a b s
  | .genSub d a b => Sys2Proof.Machine.execGenSub d a b s
  | .genMul d a b => Sys2Proof.Machine.execGenMul d a b s
  | .genMulhu d a b => Sys2Proof.Machine.execGenMulhu d a b s
  | .genAnd d a b => Sys2Proof.Machine.execGenAnd d a b s
  | .genOr d a b => Sys2Proof.Machine.execGenOr d a b s
  | .genXor d a b => Sys2Proof.Machine.execGenXor d a b s
  | .genShl d a b => Sys2Proof.Machine.execGenShl d a b s
  | .genShr d a b => Sys2Proof.Machine.execGenShr d a b s
  | .genSra d a b => Sys2Proof.Machine.execGenSra d a b s
  | .genRotl d a b => Sys2Proof.Machine.execGenRotl d a b s
  | .genAddi d a imm => Sys2Proof.Machine.execGenAddi d a imm s
  | .genXori d a imm => Sys2Proof.Machine.execGenXori d a imm s
  | .genLi d imm => Sys2Proof.Machine.execGenLi d imm s
  | .genLui d imm => Sys2Proof.Machine.execGenLui d imm s
  | .genHash d a b => Sys2Proof.Machine.execGenHash d a b s
  | .genSel d a b => Sys2Proof.Machine.execGenSel d a b s
  | .genSltu d a b => Sys2Proof.Machine.execGenSltu d a b s
  | .genSlt d a b => Sys2Proof.Machine.execGenSlt d a b s
  | .genFadd d a b => Sys2Proof.Machine.execGenFadd d a b s
  | .genFmul d a b => Sys2Proof.Machine.execGenFmul d a b s
  | .genFfma d a b => Sys2Proof.Machine.execGenFfma d a b s
  | .genI2f d a => Sys2Proof.Machine.execGenI2f d a s
  | .genUnif d a => Sys2Proof.Machine.execGenUnif d a s
  | .genRade d a => Sys2Proof.Machine.execGenRade d a s
  | .genFneg d a => Sys2Proof.Machine.execGenFneg d a s
  | .genFmin d a b => Sys2Proof.Machine.execGenFmin d a b s
  | .genFmax d a b => Sys2Proof.Machine.execGenFmax d a b s
  | .genLoop a imm => Sys2Proof.Machine.execGenLoop a imm s
  | .genOut a => Sys2Proof.Machine.execGenOut a s
  | .genOuti a => Sys2Proof.Machine.execGenOuti a s
  | .illegalInstrFetch reserved tval => Sys2Proof.Machine.execIllegalInstrFetch reserved tval s
  | .commandPop c e => Sys2Proof.Machine.execCommandPop c e s
  | .tokenWaitIssue c e => Sys2Proof.Machine.execTokenWaitIssue c e s
  | .tokenPushDelayed c e => Sys2Proof.Machine.execTokenPushDelayed c e s
  | .semwaitSatisfied c q => Sys2Proof.Machine.execSemwaitSatisfied c q s
  | .waitevSatisfied c => Sys2Proof.Machine.execWaitevSatisfied c s
  | .wfeWake c => Sys2Proof.Machine.execWfeWake c s
  | .wfeTimeout c => Sys2Proof.Machine.execWfeTimeout c s
  | .dispPlace c => Sys2Proof.Machine.execDispPlace c s
  | .qdrainComplete c => Sys2Proof.Machine.execQdrainComplete c s
  | .qcancelComplete c => Sys2Proof.Machine.execQcancelComplete c s
  | .taskEnd c => Sys2Proof.Machine.execTaskEnd c s
  | .deferredRetire c e => Sys2Proof.Machine.execDeferredRetire c e s
  | .fullEmptyWaitDone c => Sys2Proof.Machine.execFullEmptyWaitDone c s
  | .copyComplete c e op units => Sys2Proof.Machine.execCopyComplete c e op units s
  | .copyUnitFault c e op => Sys2Proof.Machine.execCopyUnitFault c e op s
  | .matrixWordComplete c parts => Sys2Proof.Machine.execMatrixWordComplete c parts s
  | .matrixIssueResume c => Sys2Proof.Machine.execMatrixIssueResume c s
  | .msettleComplete c => Sys2Proof.Machine.execMsettleComplete c s
  | .matrixWordFault c => Sys2Proof.Machine.execMatrixWordFault c s
  | .clockHold c => Sys2Proof.Machine.execClockHold c s
  | .slotChangeRetire c => Sys2Proof.Machine.execSlotChangeRetire c s
  | .trapEntry c => Sys2Proof.Machine.execTrapEntry c s
  | .shadowFaultService c => Sys2Proof.Machine.execShadowFaultService c s
  | .shadowServiceDone c resolved writes => Sys2Proof.Machine.execShadowServiceDone c resolved writes s
  | .shadowLimitExpiry c => Sys2Proof.Machine.execShadowLimitExpiry c s
  | .prgResponse c success => Sys2Proof.Machine.execPrgResponse c success s
  | .atsInvalidation pasid addr len => Sys2Proof.Machine.execAtsInvalidation pasid addr len s
  | .tltDrainComplete entry => Sys2Proof.Machine.execTltDrainComplete entry s
  | .mdecQueuePlace c e => Sys2Proof.Machine.execMdecQueuePlace c e s
  | .mediaDecodeJob m => Sys2Proof.Machine.execMediaDecodeJob m s
  | .mediaDecodeComplete m => Sys2Proof.Machine.execMediaDecodeComplete m s
  | .srcFree c e op steps => Sys2Proof.Machine.execSrcFree c e op steps s
  | .collArrival p => Sys2Proof.Machine.execCollArrival p s
  | .collCombine p => Sys2Proof.Machine.execCollCombine p s
  | .localDone x => Sys2Proof.Machine.execLocalDone x s
  | .collReport x => Sys2Proof.Machine.execCollReport x s
  | .allDone x => Sys2Proof.Machine.execAllDone x s
  | .termiteCommand q => Sys2Proof.Machine.execTermiteCommand q s
  | .rflagDelivery c => Sys2Proof.Machine.execRflagDelivery c s
  | .mflagDelivery c tgt => Sys2Proof.Machine.execMflagDelivery c tgt s
  | .fireflyArm => Sys2Proof.Machine.execFireflyArm s
  | .fireflyRound x => Sys2Proof.Machine.execFireflyRound x s
  | .lqtailDoorbell q v => Sys2Proof.Machine.execLqtailDoorbell q v s
  | .launchRecordRead => Sys2Proof.Machine.execLaunchRecordRead s
  | .spawnSpillMove slot => Sys2Proof.Machine.execSpawnSpillMove slot s
  | .launchReady slot => Sys2Proof.Machine.execLaunchReady slot s
  | .containerLoad slot => Sys2Proof.Machine.execContainerLoad slot s
  | .launchSelection => Sys2Proof.Machine.execLaunchSelection s
  | .taskSave c => Sys2Proof.Machine.execTaskSave c s
  | .priorityAging slot => Sys2Proof.Machine.execPriorityAging slot s
  | .launchCompletion slot => Sys2Proof.Machine.execLaunchCompletion slot s
  | .tlbInvalidation v => Sys2Proof.Machine.execTlbInvalidation v s
  | .tlbInvalidationComplete => Sys2Proof.Machine.execTlbInvalidationComplete s
  | .ctxDestroy ctx => Sys2Proof.Machine.execCtxDestroy ctx s
  | .ctxUnload ctx => Sys2Proof.Machine.execCtxUnload ctx s
  | .warmDeviceReset => Sys2Proof.Machine.execWarmDeviceReset s
  | .warmDieReset die => Sys2Proof.Machine.execWarmDieReset die s
  | .coreReset c => Sys2Proof.Machine.execCoreReset c s
  | .coldReset up => Sys2Proof.Machine.execColdReset up s
  | .thermalTrip => Sys2Proof.Machine.execThermalTrip s
  | .throttleChange power thermal => Sys2Proof.Machine.execThrottleChange power thermal s
  | .ucieLinkFailure a b => Sys2Proof.Machine.execUcieLinkFailure a b s
  | .nudonPortTrain port authenticated => Sys2Proof.Machine.execNudonPortTrain port authenticated s
  | .configRequest fn => Sys2Proof.Machine.execConfigRequest fn s
  | .registerWrite fn off v => Sys2Proof.Machine.execRegisterWrite fn off v s
  | .violcntRead fn => Sys2Proof.Machine.execViolcntRead fn s
  | .ldropRead => Sys2Proof.Machine.execLdropRead s
  | .untrustedPrivateAccess fn isWrite => Sys2Proof.Machine.execUntrustedPrivateAccess fn isWrite s
  | .ideIntegrityFailure fn => Sys2Proof.Machine.execIdeIntegrityFailure fn s
  | .functionLevelReset fn => Sys2Proof.Machine.execFunctionLevelReset fn s
  | .debugEnable => Sys2Proof.Machine.execDebugEnable s
  | .lockDigestWalk => Sys2Proof.Machine.execLockDigestWalk s
  | .frameSeal c => Sys2Proof.Machine.execFrameSeal c s
  | .frameStart c => Sys2Proof.Machine.execFrameStart c s
  | .channelReset fn ch base => Sys2Proof.Machine.execChannelReset fn ch base s
  | .chdoorWrite fn ch tail => Sys2Proof.Machine.execChdoorWrite fn ch tail s
  | .bounceSlotCopy fn ch => Sys2Proof.Machine.execBounceSlotCopy fn ch s
  | .getVersion => Sys2Proof.Machine.execGetVersion s
  | .getCapabilities => Sys2Proof.Machine.execGetCapabilities s
  | .negotiateAlgorithms supported => Sys2Proof.Machine.execNegotiateAlgorithms supported s
  | .getDigests => Sys2Proof.Machine.execGetDigests s
  | .getCertificate slot => Sys2Proof.Machine.execGetCertificate slot s
  | .challenge slot => Sys2Proof.Machine.execChallenge slot s
  | .getMeasurements block => Sys2Proof.Machine.execGetMeasurements block s
  | .keyExchange => Sys2Proof.Machine.execKeyExchange s
  | .finish => Sys2Proof.Machine.execFinish s
  | .keyUpdate => Sys2Proof.Machine.execKeyUpdate s
  | .heartbeat => Sys2Proof.Machine.execHeartbeat s
  | .endSession => Sys2Proof.Machine.execEndSession s
  | .spdmUnsupportedRequest code => Sys2Proof.Machine.execSpdmUnsupportedRequest code s
  | .ideKm fn => Sys2Proof.Machine.execIdeKm fn s
  | .kSetGo fn set => Sys2Proof.Machine.execKSetGo fn set s
  | .getTdispVersion fn => Sys2Proof.Machine.execGetTdispVersion fn s
  | .getTdispCapabilities fn => Sys2Proof.Machine.execGetTdispCapabilities fn s
  | .lockInterfaceRequest fn queues ctxs => Sys2Proof.Machine.execLockInterfaceRequest fn queues ctxs s
  | .getDeviceInterfaceReport fn => Sys2Proof.Machine.execGetDeviceInterfaceReport fn s
  | .getDeviceInterfaceState fn => Sys2Proof.Machine.execGetDeviceInterfaceState fn s
  | .startInterfaceRequest fn => Sys2Proof.Machine.execStartInterfaceRequest fn s
  | .stopInterfaceRequest fn => Sys2Proof.Machine.execStopInterfaceRequest fn s
  | .tdispUnsupportedRequest fn code => Sys2Proof.Machine.execTdispUnsupportedRequest fn code s
  | .mctpControl cmd eid => Sys2Proof.Machine.execMctpControl cmd eid s
  | .pldmDiscovery => Sys2Proof.Machine.execPldmDiscovery s
  | .pldmMonitoring sensor => Sys2Proof.Machine.execPldmMonitoring sensor s
  | .pldmFirmwareUpdate part image => Sys2Proof.Machine.execPldmFirmwareUpdate part image s
  | .mctpUnsupportedType ty => Sys2Proof.Machine.execMctpUnsupportedType ty s
  | .remoteHomeAccess dev acc => Sys2Proof.Machine.execRemoteHomeAccess dev acc s
  | .trustedSharedPageAccess fn => Sys2Proof.Machine.execTrustedSharedPageAccess fn s

end Sys2Proof.Machine
end

