-- ==== Sys2Proof/Machine/Turn.lean ====
section
/-!
DEFINITION. What a step of the device is made of: the next move of the schedule, a sequencer's turn, what each act does, what
settles after it, and how a word is placed where a sequencer fetches.
-/

namespace Sys2Proof.Machine

/-! ### A sequencer's turn

An orphan ends (R277), a due engine fault is taken (R160), otherwise the word at the PC is fetched and runs. -/

/-- CTL's turn. Nothing of it moves while the core's clocks are held (R66), and an orphan ends, its copies and its store
between two accesses at their boundaries (R277). -/
def State.ctlTurn (s : State) (c : CoreId) : Turn :=
  let k := s.core c
  let s := { s with actCore := c, actSeq := .ctl }
  if k.still || k.hold then .done s
  else if s.orphan c then .done ((s.toStop c).endTask c .orphaned)
  else
    match k.ctl.answer with
    | some a => .done (s.takeAnswer a)
    | none =>
      if k.faultDue then .done (s.takeEngineFault c)
      else if k.ctl.wait = .none then
        let i := k.instrAt .ctl .ctl ctlWords k.ctl.pc
        if s.pending (k.seqAgent .ctl) i then .done s else .run i s
      else .done s

/-- An engine's turn; a command whose hypothesis is refuted is abandoned at a word boundary and pushes nothing more
(R277). DEDUCED (log 30): a word that waits, or that a push holds, stands at such a boundary. -/
def State.engTurn (s : State) (c : CoreId) (e : Engine) : Turn :=
  let k := s.core c
  let s := { s with actCore := c, actSeq := e.seqr }
  if s.halts c || k.hold || (k.eng e).cur.isNone || (k.eng e).halted then .done s
  else if (k.eng e).wait = .nibble then .done s.finishNib
  else if s.runRefuted c e then
    .done (s.onCore c (fun k => (k.dropSerial e).abandon e))
  else if k.mayIssue e then
    let i := k.instrAt e.seqr (fetchOf e) (engWords e) (k.eng e).pc
    if s.pending (k.seqAgent e.seqr) i then .done s else .run i s
  else .done s

/-- A sequencer's turn. -/
def State.turnOf (s : State) (c : CoreId) (q : Sequencer) : Turn :=
  match q with
  | .ctl => s.ctlTurn c
  | .lds => s.engTurn c .lds
  | .cmp => s.engTurn c .cmp
  | .sts => s.engTurn c .sts

/-- The next move: the head of the schedule, or Config.move when the schedule is empty (log 4). -/
def State.nextMove (s : State) : Move × State :=
  match s.schedule with
  | m :: ms => (m, { s with schedule := ms })
  | [] => (Config.move s.turn, { s with turn := s.turn + 1 })

/-- What a turn does. -/
def runTurn : Turn → Out
  | .run i s => exec i s
  | .done s => .next s

/-- What an act does. -/
def runAct (a : Act) (s : State) : Out :=
  match a with
  | .seq c q => runTurn (s.turnOf c q)
  | .ogu c => runTurn (s.oguTurn c)
  | .event i => if i.sect = .event then exec i s else .refused .notAnEvent
  | .hostWrite pa bs => .next (s.outside (.hostWrite pa bs))
  | .remoteWrite dev pa bs => .next (s.outside (.remoteWrite dev pa bs))
  | .remoteLink dev up => .next (s.outside (.remoteLink dev up))
  | .atsPage pasid page present => .next (s.outside (.atsPage pasid page present))
  | .barRead fn t off => .next (s.readBar fn t off.toNat)
  | .debugAccess => .next s.debugAccess
  | .dieReadmit d => .next (s.readmit d.toNat)
  | .flashChange p i => .next (s.outside (.flashChange p i))
  | .upset line bad => .next (s.outside (.upset line bad))
  | .perform n => .next (s.perform n)
  | .peekCmp c g => .next (s.peekCmp c g.toNat)
  | .peekRec c sts g => .next (s.peekRec c sts g.toNat)
  | .peekCopy c sts op g => .next (s.peekStep c sts op g.toNat)
  | .peekMat c id sp g => .next (s.peekMat c id sp g.toNat)
  | .peekJob m g => .next (s.peekJob m g.toNat)
  | .jobPart m n => .next (s.jobPart m n)
  | .copyPart c sts op g => .next (s.copyPart c sts op g.toNat)
  | .sramUpset c sp g bad => .next (s.outside (.sramUpset c sp g bad))
  | .flagIn slot tgt sem val => .next (s.flagIn slot tgt sem val)
  | .collData x => .next (s.outside (.collData x))
  | .collReportIn ctx collid root member => .next (s.outside (.collReportIn ctx collid root member))
  | .collNoteIn ctx collid tgt => .next (s.outside (.collNoteIn ctx collid tgt))
  | .idle => .next s

/-- Whether a suspended task is an orphan: its HCUR is REFUTED (R277). -/
def State.orphaned (s : State) (u : Suspended) : Bool :=
  !u.sealed && u.core.ctl.hcur != 0 && (s.ctx u.core.theTask.ctx).isRefuted u.core.ctl.hcur

/-- The orphans among the suspended tasks of the launch in a slot end; a save of one that is under way is given up. -/
def State.endOrphansOf (s : State) (x : BitVec 8) : State :=
  match s.slot x with
  | none => s
  | some l =>
    (l.susp.filter s.orphaned).foldl (fun (t : State) u =>
      let saving := match (t.core u.left).saving with
        | some (y, tid) => y == x && u.isOf tid
        | none => false
      let t := t.endSuspended x (t.core u.left) u .orphaned
      if saving then t.onCore u.left Core.dropSave else t) s

/-- Suspended orphans end (R277). DEDUCED (log 30): one that a seal has taken from its core ends in its world's next
frame. -/
def State.endOrphans (s : State) : State :=
  if s.ctxs.any (fun c => c.hyps.any (fun y => y.state == .refuted)) then allSlots.foldl (fun t x => t.endOrphansOf x) s else s

/-- After an act, the worlds that left RUN in it end (R320), suspended orphans end (R277), and resolved hypothesis ids that
no one holds become FREE (R264). -/
def afterAct : Out → Out
  | .next s => .next s.settleFalls.endOrphans.settleFalls.sweep
  | .fault f => .fault f
  | .refused r => .refused r

/-- Core 0 with a word placed where its CTL fetches next, and a task to run it. -/
def Core.placeCtl (k : Core) (w : Word) : Core :=
  { k.setWait .ctl .none with task := some k.theTask, imemCtl := Cells.write 0 k.imemCtl k.ctl.pc w }

/-- Core 0 with a command running on an engine and a word placed where it fetches next. -/
def Core.placeEng (k : Core) (e : Engine) (w : Word) : Core :=
  let k := { (k.setWait e.seqr .none).onEng e (fun g =>
    { g with cur := some (g.cur.getD { cmd := { count := 1 }, iter := 0, serial := g.serial }), halted := false }) with
    task := some k.theTask }
  let pc := (k.eng e).pc
  match e with
  | .lds => { k with imemLds := Cells.write 0 k.imemLds pc w }
  | .cmp => { k with imemCmp := Cells.write 0 k.imemCmp pc w }
  | .sts => { k with imemSts := Cells.write 0 k.imemSts pc w }

/-- Core 0 with a generator word as the image its OGU evaluates. -/
def Core.placeGen (k : Core) (w : Word) : Core :=
  { k with
    task := some k.theTask
    ogu := some { slot := { name := [], bound := 256, params := 0, words := [w], p := Vector.replicate 4 0 }, ety := .f32,
                  g := Vector.replicate 16 0, pc := 0, loops := [], count := 0, out := none } }

end Sys2Proof.Machine
end

