-- ==== Sys2Proof/Machine/Step.lean ====
section
/-!
DEFINITION. One step of the device, and the placing of an instruction where the next step runs it.
-/

namespace Sys2Proof.Machine

/-- One step of the device. -/
def step (s : State) : Out :=
  let m := s.nextMove
  afterAct (runAct m.1.act { m.2 with clock := m.2.clock + m.1.clocks })

/-- s with the instruction of an opcode-table word placed where the next step fetches it: in the memory whose decoder
takes it (log 7), on core 0, with the schedule saying that this sequencer moves next (log 6). -/
def State.withFetchWord (s : State) (nbits w : Nat) : State :=
  let ww := BitVec.ofNat 32 (w % 2 ^ nbits)
  match (tableFetch ww).getD .ctl with
  | .ctl => { s.onCore 0 (fun k => k.placeCtl ww) with schedule := { clocks := 0, act := .seq 0 .ctl } :: s.schedule }
  | .lds => { s.onCore 0 (fun k => k.placeEng .lds ww) with schedule := { clocks := 0, act := .seq 0 .lds } :: s.schedule }
  | .cmp => { s.onCore 0 (fun k => k.placeEng .cmp ww) with schedule := { clocks := 0, act := .seq 0 .cmp } :: s.schedule }
  | .sts => { s.onCore 0 (fun k => k.placeEng .sts ww) with schedule := { clocks := 0, act := .seq 0 .sts } :: s.schedule }
  | .gen => { s.onCore 0 (fun k => k.placeGen ww) with schedule := { clocks := 0, act := .ogu 0 } :: s.schedule }

end Sys2Proof.Machine
end

