-- ==== Sys2Proof/Safety.lean ====
section
/-!
DEFINITION. What the statements about the machine are said with: its invariants, what it means for a word to leave the
rest alone, an engine word that takes its tokens, and the specification's tables of results in plain arithmetic.
-/

namespace Sys2Proof

/-- The token bits of an engine's word (R26, R132, R137). -/
def Instr.tok : Instr → Option Tok
  | .xferNop t => some t
  | .xferEnd t => some t
  | .copy t _ _ _ _ _ _ => some t
  | .gath t _ _ _ _ _ _ => some t
  | .scat t _ _ _ _ _ _ => some t
  | .boxld t _ _ => some t
  | .aadd t _ _ _ => some t
  | .ali t _ _ => some t
  | .amov t _ _ => some t
  | .xferSemwait t _ _ => some t
  | .xferSemadd t _ _ => some t
  | .loopt t _ _ => some t
  | .coll t _ => some t
  | .mdec t _ => some t
  | .pref t _ _ _ => some t
  | .zero t _ _ _ => some t
  | .tuse t _ => some t
  | .vadd t _ _ _ _ => some t
  | .vsub t _ _ _ _ => some t
  | .vmul t _ _ _ _ => some t
  | .vmulh t _ _ _ _ => some t
  | .vfma t _ _ _ _ => some t
  | .vfms t _ _ _ _ => some t
  | .vmin t _ _ _ _ => some t
  | .vmax t _ _ _ _ => some t
  | .vabs t _ _ _ => some t
  | .vneg t _ _ _ => some t
  | .vdiv t _ _ _ _ => some t
  | .vsqrt t _ _ _ => some t
  | .vrcp t _ _ _ => some t
  | .vrsq t _ _ _ => some t
  | .vexp2 t _ _ _ => some t
  | .vlog2 t _ _ _ => some t
  | .vand t _ _ _ _ => some t
  | .vor t _ _ _ _ => some t
  | .vxor t _ _ _ _ => some t
  | .vnot t _ _ _ => some t
  | .vshl t _ _ _ _ => some t
  | .vshr t _ _ _ _ => some t
  | .vsra t _ _ _ _ => some t
  | .vfshl t _ _ _ _ => some t
  | .vfshr t _ _ _ _ => some t
  | .vclz t _ _ _ => some t
  | .vpopc t _ _ _ => some t
  | .vsel t _ _ _ _ => some t
  | .vmov t _ _ _ => some t
  | .vcvt t _ _ _ _ => some t
  | .vcmpeq t _ _ _ _ => some t
  | .vcmplt t _ _ _ _ => some t
  | .vcmple t _ _ _ _ => some t
  | .vcmpne t _ _ _ _ => some t
  | .vadds t _ _ _ _ => some t
  | .vsubs t _ _ _ _ => some t
  | .vredsum t _ _ _ => some t
  | .vredmax t _ _ _ => some t
  | .vredmin t _ _ _ => some t
  | .vscan t _ _ _ => some t
  | .vscanx t _ _ _ => some t
  | .vbcast t _ _ _ _ => some t
  | .viota t _ _ => some t
  | .vaccept t _ _ _ _ => some t
  | .vfirst t _ _ _ => some t
  | .vhash t _ _ _ _ => some t
  | .vunif t _ _ _ => some t
  | .vld t _ _ _ _ _ => some t
  | .vst t _ _ _ _ _ => some t
  | .vldi t _ _ _ _ _ => some t
  | .vsti t _ _ _ _ _ => some t
  | .vstu t _ _ _ _ _ => some t
  | .vgath t _ _ _ _ _ => some t
  | .vscat t _ _ _ _ _ => some t
  | .vpart t _ _ _ _ => some t
  | .vperm t _ _ _ => some t
  | .vldb t _ _ _ _ _ => some t
  | .mma t _ _ _ _ => some t
  | .mmaz t _ _ _ _ => some t
  | .mmv t _ _ _ _ => some t
  | .mdrain t _ _ _ _ _ _ => some t
  | .mseal t => some t
  | .msettle t _ => some t
  | .accz t _ => some t
  | .accld t _ _ => some t
  | .cmpNop t => some t
  | .cmpEnd t => some t
  | .shape t _ _ _ _ _ => some t
  | .sld t _ _ _ => some t
  | .smod t _ _ _ => some t
  | .kadd t _ _ _ => some t
  | .kli t _ _ => some t
  | .kmov t _ _ => some t
  | .vli t _ _ => some t
  | .pset t _ _ => some t
  | .cmpSemwait t _ _ => some t
  | .cmpSemadd t _ _ => some t
  | .loopk t _ _ => some t
  | .fragsel t _ _ => some t
  | .histrd t _ _ _ => some t
  | .feclr t _ _ _ => some t
  | .gstat t _ _ => some t
  | .add _ _ _ _ | .sub _ _ _ _ | .and _ _ _ _ | .or _ _ _ _ | .xor _ _ _ _ | .shl _ _ _ _ | .shr _ _ _ _
  | .sra _ _ _ _ | .rol _ _ _ _ | .slt _ _ _ _ | .sltu _ _ _ _ | .min _ _ _ _ | .max _ _ _ _ | .minu _ _ _ _
  | .maxu _ _ _ _ | .clz _ _ _ | .ctz _ _ _ | .popc _ _ _ | .addi _ _ _ | .slti _ _ _ | .sltiu _ _ _ | .andi _ _ _
  | .ori _ _ _ | .xori _ _ _ | .shli _ _ _ _ | .shri _ _ _ _ | .srai _ _ _ _ | .roli _ _ _ _ | .lui _ _ | .lih _ _
  | .mul _ _ _ _ | .mulh _ _ _ | .mulhu _ _ _ | .div _ _ _ _ | .divu _ _ _ _ | .rem _ _ _ _ | .remu _ _ _ _
  | .ldb _ _ _ | .ldbu _ _ _ | .ldh _ _ _ | .ldhu _ _ _ | .ldw _ _ _ | .ldwu _ _ _ | .ldd _ _ _ | .stb _ _ _
  | .sth _ _ _ | .stw _ _ _ | .std _ _ _ | .amoadd _ _ _ _ _ | .amoand _ _ _ _ _ | .amoor _ _ _ _ _
  | .amoxor _ _ _ _ _ | .amomin _ _ _ _ _ | .amomax _ _ _ _ _ | .amominu _ _ _ _ _ | .amomaxu _ _ _ _ _
  | .amoswap _ _ _ _ _ | .amocas _ _ _ _ _ | .amofadd _ _ _ _ _ | .amonswap _ _ _ _ _ | .cwb _ _ | .cinv _ _
  | .cwbinv _ _ | .cpref _ _ | .beq _ _ _ | .bne _ _ _ | .blt _ _ _ | .bge _ _ _ | .bltu _ _ _ | .bgeu _ _ _
  | .jal _ | .jalr _ _ _ | .loop _ _ | .disp _ _ _ _ | .dispx _ _ _ | .qcancel _ | .qdrain | .qstatrd _
  | .semadd _ _ | .semwait _ _ | .rflag _ _ _ | .mflag _ _ _ | .spawn _ | .waitev _ _ | .exit | .sigev _ _
  | .hopen _ _ | .hwin _ _ | .hset _ | .hresolve _ _ | .hcommit _ _ | .hstat _ _ | .gload _ _ | .gfree _
  | .gparam _ _ | .palloc _ _ | .pfree _ | .tltset _ _ _ | .tltuse _ | .mapw _ _ _ | .unmapw _ | .csrd _ _
  | .cswr _ _ | .trap _ | .rett | .brk | .fence _ | .wfe | .genAdd _ _ _ | .genSub _ _ _ | .genMul _ _ _
  | .genMulhu _ _ _ | .genAnd _ _ _ | .genOr _ _ _ | .genXor _ _ _ | .genShl _ _ _ | .genShr _ _ _ | .genSra _ _ _
  | .genRotl _ _ _ | .genAddi _ _ _ | .genXori _ _ _ | .genLi _ _ | .genLui _ _ | .genHash _ _ _ | .genSel _ _ _
  | .genSltu _ _ _ | .genSlt _ _ _ | .genFadd _ _ _ | .genFmul _ _ _ | .genFfma _ _ _ | .genI2f _ _ | .genUnif _ _
  | .genRade _ _ | .genFneg _ _ | .genFmin _ _ _ | .genFmax _ _ _ | .genLoop _ _ | .genOut _ | .genOuti _
  | .illegalInstrFetch _ _ | .commandPop _ _ | .tokenWaitIssue _ _ | .tokenPushDelayed _ _ | .semwaitSatisfied _ _
  | .waitevSatisfied _ | .wfeWake _ | .wfeTimeout _ | .dispPlace _ | .qdrainComplete _ | .qcancelComplete _
  | .taskEnd _ | .deferredRetire _ _ | .fullEmptyWaitDone _ | .copyComplete _ _ _ _ | .copyUnitFault _ _ _
  | .matrixWordComplete _ _ | .matrixIssueResume _ | .msettleComplete _ | .matrixWordFault _ | .clockHold _
  | .slotChangeRetire _ | .trapEntry _ | .shadowFaultService _ | .shadowServiceDone _ _ _ | .shadowLimitExpiry _
  | .prgResponse _ _ | .atsInvalidation _ _ _ | .tltDrainComplete _ | .mdecQueuePlace _ _ | .mediaDecodeJob _
  | .mediaDecodeComplete _ | .srcFree _ _ _ _ | .collArrival _ | .collCombine _ | .localDone _ | .collReport _
  | .allDone _ | .termiteCommand _ | .rflagDelivery _ | .mflagDelivery _ _ | .fireflyArm | .fireflyRound _
  | .lqtailDoorbell _ _ | .launchRecordRead | .spawnSpillMove _ | .launchReady _ | .containerLoad _
  | .launchSelection | .taskSave _ | .priorityAging _ | .launchCompletion _ | .tlbInvalidation _
  | .tlbInvalidationComplete | .ctxDestroy _ | .ctxUnload _ | .warmDeviceReset | .warmDieReset _ | .coreReset _
  | .coldReset _ | .thermalTrip | .throttleChange _ _ | .ucieLinkFailure _ _ | .nudonPortTrain _ _
  | .configRequest _ | .registerWrite _ _ _ | .violcntRead _ | .ldropRead | .untrustedPrivateAccess _ _
  | .ideIntegrityFailure _ | .functionLevelReset _ | .debugEnable | .lockDigestWalk | .frameSeal _ | .frameStart _
  | .channelReset _ _ _ | .chdoorWrite _ _ _ | .bounceSlotCopy _ _ | .getVersion | .getCapabilities
  | .negotiateAlgorithms _ | .getDigests | .getCertificate _ | .challenge _ | .getMeasurements _ | .keyExchange
  | .finish | .keyUpdate | .heartbeat | .endSession | .spdmUnsupportedRequest _ | .ideKm _ | .kSetGo _ _
  | .getTdispVersion _ | .getTdispCapabilities _ | .lockInterfaceRequest _ _ _ | .getDeviceInterfaceReport _
  | .getDeviceInterfaceState _ | .startInterfaceRequest _ | .stopInterfaceRequest _ | .tdispUnsupportedRequest _ _
  | .mctpControl _ _ | .pldmDiscovery | .pldmMonitoring _ | .pldmFirmwareUpdate _ _ | .mctpUnsupportedType _
  | .remoteHomeAccess _ _ | .trustedSharedPageAccess _ => none

end Sys2Proof

namespace Sys2Proof.Machine

/-! ### Invariants -/

/-- A memory in canonical form: addresses strictly rise and no zero byte is listed. -/
abbrev Memory.wf (m : List Host.Cell) : Prop := Cells.wf 0 m

/-- The physical memory of a state is in canonical form. -/
abbrev State.memWf (s : State) : Prop := Memory.wf s.mem

/-- R264: every id that has been resolved is held by some task of the device; one that nothing holds is FREE. -/
def State.idsHeld (s : State) : Prop :=
  ∀ x : BitVec 6, ∀ y ∈ (s.ctx x).hyps, y.state = .live ∨ s.held x y.id = true

/-! ### Frames -/

/-- t differs from s in nothing but the general registers, PC and loop stack of the running CTL. -/
def CtlOnly (s t : State) : Prop :=
  ∃ (r : Vector DWord 32) (pc : Nat) (ls : List LoopEnt), t = s.onCtl (fun k => { k with s := r, pc := pc, loops := ls })

/-- The frame of a CTL word whose one destination is s[d]: the other general registers, every other register of the
core, every other core, and every byte of memory are as they were. -/
def CtlFrame (s t : State) (d : BitVec 5) : Prop :=
  CtlOnly s t ∧ (∀ r, r ≠ d → t.sreg r = s.sreg r) ∧ (∀ pa, t.phys pa = s.phys pa)

/-- The pieces of memory, each with its leaf, to which the running word stores runs of bytes one after another. -/
def State.storesTo (s : State) : List (Nat × List Byte) → List (Nat × Nat × Leaf)
  | [] => []
  | r :: rs =>
    (match s.accessAll s.engWho .store (pagesOf r.1 r.2.length) with
     | .ok ls => ls
     | .error _ => []) ++ (s.putAt .glob r.1 r.2).storesTo rs

/-! ### CTL results in plain arithmetic (R142 to R144) -/

/-- A result r of width n from operands x and y. -/
abbrev Rel := (n : Nat) → BitVec n → BitVec n → BitVec n → Prop

/-- R142's W: the relation on bits [31:0] with the result sign-extended, or on all 64 bits. -/
def ResultOf (w : Bool) (R : Rel) (x y v : DWord) : Prop :=
  if w then ∃ r : BitVec 32, R 32 (x.setWidth 32) (y.setWidth 32) r ∧ v = r.signExtend 64 else R 64 x y v

def relAdd : Rel := fun n x y r => r.toNat = (x.toNat + y.toNat) % 2 ^ n
def relSub : Rel := fun n x y r => (r.toNat + y.toNat) % 2 ^ n = x.toNat
def relAnd : Rel := fun n x y r => ∀ i < n, r.getLsbD i = (x.getLsbD i && y.getLsbD i)
def relOr : Rel := fun n x y r => ∀ i < n, r.getLsbD i = (x.getLsbD i || y.getLsbD i)
def relXor : Rel := fun n x y r => ∀ i < n, r.getLsbD i = (x.getLsbD i != y.getLsbD i)
def relShl : Rel := fun n x y r => r.toNat = x.toNat * 2 ^ (y.toNat % n) % 2 ^ n
def relShr : Rel := fun n x y r => r.toNat = x.toNat / 2 ^ (y.toNat % n)
def relSra : Rel := fun n x y r => r.toInt = x.toInt / 2 ^ (y.toNat % n)
def relRol : Rel := fun n x y r => ∀ i < n, r.getLsbD ((i + y.toNat % n) % n) = x.getLsbD i
def relSlt : Rel := fun _ x y r => r.toNat = if x.toInt < y.toInt then 1 else 0
def relSltu : Rel := fun _ x y r => r.toNat = if x.toNat < y.toNat then 1 else 0
def relMin : Rel := fun _ x y r => r.toInt = min x.toInt y.toInt
def relMax : Rel := fun _ x y r => r.toInt = max x.toInt y.toInt
def relMinu : Rel := fun _ x y r => r.toNat = min x.toNat y.toNat
def relMaxu : Rel := fun _ x y r => r.toNat = max x.toNat y.toNat

/-- Leading zeros: n for zero, else the number of clear bits above the highest set one. -/
def relClz : Rel := fun n x _ r =>
  if x.toNat = 0 then r.toNat = n else r.toNat < n ∧ 2 ^ (n - 1 - r.toNat) ≤ x.toNat ∧ x.toNat < 2 ^ (n - r.toNat)

/-- Trailing zeros: n for zero, else the number of the lowest set bit. -/
def relCtz : Rel := fun n x _ r =>
  if x.toNat = 0 then r.toNat = n else x.getLsbD r.toNat = true ∧ ∀ j < r.toNat, x.getLsbD j = false

/-- Set bits. -/
def relPopc : Rel := fun n x _ r => r.toNat = ((List.range n).map (fun i => bit (x.getLsbD i))).sum

def relMul : Rel := fun n x y r => r.toNat = x.toNat * y.toNat % 2 ^ n

/-- Division truncates toward zero; by zero it gives 0; the least number by -1 gives itself (R144). -/
def relDiv : Rel := fun n x y r => r.toNat = if y.toNat = 0 then 0 else (x.toInt.tdiv y.toInt % 2 ^ n).toNat
def relDivu : Rel := fun _ x y r => r.toNat = if y.toNat = 0 then 0 else x.toNat / y.toNat

/-- The remainder has the dividend's sign; by zero it is the dividend (R144). -/
def relRem : Rel := fun n x y r => r.toNat = if y.toNat = 0 then x.toNat else (x.toInt.tmod y.toInt % 2 ^ n).toNat
def relRemu : Rel := fun _ x y r => r.toNat = if y.toNat = 0 then x.toNat else x.toNat % y.toNat

/-- The ALU-R words of two operands with R142's relation. -/
def aluRows : List ((BitVec 5 → BitVec 5 → BitVec 5 → Bool → Instr) × Rel) :=
  [(.add, relAdd), (.sub, relSub), (.and, relAnd), (.or, relOr), (.xor, relXor), (.shl, relShl), (.shr, relShr),
   (.sra, relSra), (.rol, relRol), (.slt, relSlt), (.sltu, relSltu), (.min, relMin), (.max, relMax), (.minu, relMinu),
   (.maxu, relMaxu)]

/-- The ALU-R words of one operand (R142). -/
def aluRows1 : List ((BitVec 5 → BitVec 5 → Bool → Instr) × Rel) := [(.clz, relClz), (.ctz, relCtz), (.popc, relPopc)]

/-- The immediate forms (R143): whether the immediate is signed (R128), and the relation. -/
def immRows : List ((BitVec 5 → BitVec 5 → BitVec 16 → Instr) × Bool × Rel) :=
  [(.addi, true, relAdd), (.slti, true, relSlt), (.sltiu, true, relSltu), (.andi, false, relAnd), (.ori, false, relOr),
   (.xori, false, relXor)]

/-- The shifts by a constant (R143). -/
def shiftRows : List ((BitVec 5 → BitVec 5 → Bool → BitVec 6 → Instr) × Rel) :=
  [(.shli, relShl), (.shri, relShr), (.srai, relSra), (.roli, relRol)]

/-- Divisions and remainders (R144). -/
def divRows : List ((BitVec 5 → BitVec 5 → BitVec 5 → Bool → Instr) × Rel) :=
  [(.div, relDiv), (.divu, relDivu), (.rem, relRem), (.remu, relRemu)]

/-- The branches with their comparisons (R149). -/
def branchRows : List ((BitVec 5 → BitVec 5 → BitVec 16 → Instr) × (DWord → DWord → Bool)) :=
  [(.beq, fun x y => decide (x.toNat = y.toNat)), (.bne, fun x y => decide (x.toNat ≠ y.toNat)),
   (.blt, fun x y => decide (x.toInt < y.toInt)), (.bge, fun x y => decide (y.toInt ≤ x.toInt)),
   (.bltu, fun x y => decide (x.toNat < y.toNat)), (.bgeu, fun x y => decide (y.toNat ≤ x.toNat))]

/-! ### Accesses of CTL (R145, R147) -/

/-- A load with its size and its extension. -/
structure LoadRow where
  word   : BitVec 5 → BitVec 5 → BitVec 16 → Instr
  n      : Nat
  signed : Bool

def loadRows : List LoadRow :=
  [⟨.ldb, 1, true⟩, ⟨.ldbu, 1, false⟩, ⟨.ldh, 2, true⟩, ⟨.ldhu, 2, false⟩, ⟨.ldw, 4, true⟩, ⟨.ldwu, 4, false⟩,
   ⟨.ldd, 8, false⟩]

/-- A store with its size. -/
structure StoreRow where
  word : BitVec 5 → BitVec 5 → BitVec 16 → Instr
  n    : Nat

def storeRows : List StoreRow := [⟨.stb, 1⟩, ⟨.sth, 2⟩, ⟨.stw, 4⟩, ⟨.std, 8⟩]

/-- What an atomic makes of the old value, the operand and the expected value, as numbers of a width: the new value, or
none when nothing is written (R147). -/
abbrev AmoSpec := AmoSize → Nat → Nat → Nat → Nat → Option Nat → Prop

/-- An atomic whose result always replaces the old value. -/
def always (r : Rel) : AmoSpec := fun _ n old x _ new =>
  ∃ v : BitVec n, r n (BitVec.ofNat n old) (BitVec.ofNat n x) v ∧ new = some v.toNat

/-- An atomic with its operation and its rule. -/
structure AmoRow where
  word : BitVec 5 → BitVec 5 → BitVec 5 → Bool → AmoSize → Instr
  op   : AmoOp
  spec : AmoSpec

/-- R147's table; FADD rounds to nearest even in f32 or a64 and drops its flags. -/
def amoRows : List AmoRow :=
  [⟨.amoadd, .add, always relAdd⟩, ⟨.amoand, .and, always relAnd⟩, ⟨.amoor, .or, always relOr⟩,
   ⟨.amoxor, .xor, always relXor⟩, ⟨.amomin, .min, always relMin⟩, ⟨.amomax, .max, always relMax⟩,
   ⟨.amominu, .minu, always relMinu⟩, ⟨.amomaxu, .maxu, always relMaxu⟩,
   ⟨.amoswap, .swap, fun _ _ _ x _ new => new = some x⟩,
   ⟨.amocas, .cas, fun _ _ old x exp new => new = if old = exp then some x else none⟩,
   ⟨.amofadd, .fadd, fun sz _ old x _ new =>
      let f := match sz with
        | .w => Fmt.f32
        | .d => Fmt.a64
      new = some (addIn f .rne (f.value old) (f.value x)).1⟩]

/-! ### Engine words (R26) -/

/-- Every FIFO that a word waits on holds a token, and no token that it takes is poisoned. -/
def State.takes (s : State) (t : Tok) : Prop :=
  (s.here).tokensPresent (popFifos s.actEng t) = true ∧ (s.here).poisoned (popFifos s.actEng t) = none

/-- The state with a word's tokens taken. -/
def State.taken (s : State) (t : Tok) : State :=
  s.onHere (fun k => (k.popTokens (popFifos s.actEng t)).onEng s.actEng (fun g => { g with tok := t }))

/-- The word of s retires from u: its own pushes are made or wait, and its engine moves past it. -/
def State.past (s u : State) (t : Tok) : State := u.onHere (fun k => k.engRetire s.actEng t)

/-- An engine word that takes its tokens, gives each enabled lane its value, keeps every other lane of v[d], moves past
its word, and changes nothing else. -/
def WritesLanes (s : State) (o : Out) (t : Tok) (p : Pred) (d : BitVec 5) (f : Nat → Nat) : Prop :=
  ∃ v : VReg, o = .next (s.past ((s.taken t).setVreg d v) t) ∧
    ∀ i < lanesOf s.shape.ty, laneOf v s.shape.ty i = if i ∈ s.lanesOn p then f i else laneOf (s.vreg d) s.shape.ty i

/-- The same for float lanes, each with its flags, which together are set in FPSTAT (R75, R76). -/
def WritesFloats (s : State) (o : Out) (t : Tok) (p : Pred) (d : BitVec 5) (f : Nat → Nat × FFlags) : Prop :=
  ∃ v : VReg,
    o = .next (s.past (((s.taken t).setVreg d v).onHere (fun k =>
      k.raiseV (orFlags ((s.lanesOn p).map (fun i => (f i).2))))) t) ∧
    ∀ i < lanesOf s.shape.ty,
      laneOf v s.shape.ty i = if i ∈ s.lanesOn p then (f i).1 % 2 ^ s.shape.ty.bits else laneOf (s.vreg d) s.shape.ty i

/-- A class 00 word of two vector operands with its integer result as a function of signedness, width, x, y and the old
z (R193, R194). -/
structure IntRow where
  word : Tok → Pred → BitVec 5 → BitVec 5 → VSrc → Instr
  f    : Bool → Nat → Int → Int → Int → Int

/-- The least and the greatest number of a type. -/
def leastInt (sg : Bool) (w : Nat) : Int := if sg then -2 ^ (w - 1) else 0
def greatestInt (sg : Bool) (w : Nat) : Int := if sg then 2 ^ (w - 1) - 1 else 2 ^ w - 1

/-- The table of R193 and R194 for integer types. -/
def intRows : List IntRow :=
  [⟨.vadd, fun _ _ x y _ => x + y⟩, ⟨.vsub, fun _ _ x y _ => x - y⟩, ⟨.vmul, fun _ _ x y _ => x * y⟩,
   ⟨.vmulh, fun _ w x y _ => x * y / 2 ^ w⟩, ⟨.vfma, fun _ _ x y z => z + x * y⟩, ⟨.vfms, fun _ _ x y z => z - x * y⟩,
   ⟨.vmin, fun _ _ x y _ => min x y⟩, ⟨.vmax, fun _ _ x y _ => max x y⟩,
   ⟨.vdiv, fun _ _ x y _ => if y = 0 then 0 else x.tdiv y⟩,
   ⟨.vadds, fun sg w x y _ => max (leastInt sg w) (min (greatestInt sg w) (x + y))⟩,
   ⟨.vsubs, fun sg w x y _ => max (leastInt sg w) (min (greatestInt sg w) (x - y))⟩]

/-- A class 00 word with its result as a function of width and bits (R193, R194). -/
structure BitRow where
  word : Tok → Pred → BitVec 5 → BitVec 5 → VSrc → Instr
  f    : Nat → Nat → Nat → Nat → Nat

/-- Logic on every type. -/
def logicRows : List BitRow :=
  [⟨.vand, fun _ x y _ => x.land y⟩, ⟨.vor, fun _ x y _ => x.lor y⟩, ⟨.vxor, fun _ x y _ => x.xor y⟩,
   ⟨.vsel, fun w x y z => (z.land x).lor ((2 ^ w - 1 - z).land y)⟩]

/-- Shifts and funnel shifts on integer types: amounts of w or more shift everything out. -/
def shiftLaneRows : List BitRow :=
  [⟨.vshl, fun w x y _ => if w ≤ y then 0 else x * 2 ^ y⟩, ⟨.vshr, fun w x y _ => if w ≤ y then 0 else x / 2 ^ y⟩,
   ⟨.vsra, fun w x y _ => if x < 2 ^ (w - 1) then (if w ≤ y then 0 else x / 2 ^ y)
      else if w ≤ y then 2 ^ w - 1 else 2 ^ w - 1 - (2 ^ w - 1 - x) / 2 ^ y⟩,
   ⟨.vfshl, fun w x y z => (x * 2 ^ w + y) * 2 ^ (z % w) / 2 ^ w⟩, ⟨.vfshr, fun w x y z => (x * 2 ^ w + y) / 2 ^ (z % w)⟩]

/-- A word of one operand: signedness, width and bits. -/
structure BitRow1 where
  word : Tok → Pred → BitVec 5 → BitVec 5 → Instr
  f    : Bool → Nat → Nat → Nat

def intRows1 : List BitRow1 :=
  [⟨.vabs, fun sg w x => (intValue sg w x).natAbs⟩, ⟨.vneg, fun _ w x => 2 ^ w - x⟩,
   ⟨.vclz, fun _ w x => ((List.range w).find? (fun i => x.testBit (w - 1 - i))).getD w⟩,
   ⟨.vpopc, fun _ w x => ((List.range w).map (fun i => bit (x.testBit i))).sum⟩]

/-- A word of one operand on the bits of every type. -/
structure LogicRow1 where
  word : Tok → Pred → BitVec 5 → BitVec 5 → Instr
  f    : Nat → Nat → Nat

def logicRows1 : List LogicRow1 := [⟨.vnot, fun w x => 2 ^ w - 1 - x⟩, ⟨.vmov, fun _ x => x⟩]

/-- A float word with its rounded result and flags, from the bits of x, y and the old z (R193, R194, R101). -/
structure FloatRow where
  word : Tok → Pred → BitVec 5 → BitVec 5 → VSrc → Instr
  f    : Fmt → RMode → Nat → Nat → Nat → Nat × FFlags

/-- The table of R193 and R194 for float types: exact values, one rounding. -/
def floatRows : List FloatRow :=
  [⟨.vadd, fun f m x y _ => addIn f m (f.value x) (f.value y)⟩, ⟨.vsub, fun f m x y _ => addIn f m (f.value x) (f.value y).neg⟩,
   ⟨.vmul, fun f m x y _ => mulIn f m (f.value x) (f.value y)⟩,
   ⟨.vfma, fun f m x y z => fmaIn f m (f.value x) (f.value y) (f.value z)⟩,
   ⟨.vfms, fun f m x y z => fmaIn f m (f.value x).neg (f.value y) (f.value z)⟩,
   ⟨.vdiv, fun f m x y _ => deliver f m ((f.value x).div (f.value y))⟩,
   ⟨.vmin, fun f _ x y _ => minMaxF false f x y⟩, ⟨.vmax, fun f _ x y _ => minMaxF true f x y⟩]

/-- A float word of one operand (R193, R101). -/
structure FloatRow1 where
  word : Tok → Pred → BitVec 5 → BitVec 5 → Instr
  f    : Fmt → RMode → Nat → Nat × FFlags

/-- The table of R193 and R101 for the float functions. -/
def floatRows1 : List FloatRow1 :=
  [⟨.vsqrt, fun f m x => deliver f m (f.value x).sqrt⟩, ⟨.vrcp, fun f m x => deliver f m ((XVal.fin false 1 0).div (f.value x))⟩,
   ⟨.vrsq, fun f m x => deliver f m (f.value x).rsqrt⟩, ⟨.vexp2, fun f m x => deliver f m (f.value x).exp2⟩,
   ⟨.vlog2, fun f m x => deliver f m (f.value x).log2⟩,
   ⟨.vabs, fun f _ x => if (f.value x).isNan then (f.qnan, { nv := (f.value x).isSig }) else (x % f.signBit, { })⟩,
   ⟨.vneg, fun f _ x => if (f.value x).isNan then (f.qnan, { nv := (f.value x).isSig }) else (x ^^^ f.signBit, { })⟩]

/-- A compare: what holds, what a NaN gives, and whether only a signalling NaN sets VNV (R195). -/
structure CompareRow where
  word  : Tok → Pred → BitVec 3 → BitVec 5 → VSrc → Instr
  test  : Ordering → Bool
  nan   : Bool
  quiet : Bool

def compareRows : List CompareRow :=
  [⟨.vcmpeq, fun o => o == .eq, false, true⟩, ⟨.vcmplt, fun o => o == .lt, false, false⟩,
   ⟨.vcmple, fun o => o != .gt, false, false⟩, ⟨.vcmpne, fun o => o != .eq, true, true⟩]

/-! ### Generator words (R244) -/

/-- A generator word with the relation of R244 between its operands and what it writes. -/
structure GenRow where
  word : BitVec 4 → BitVec 4 → BitVec 4 → Instr
  r    : Rel

/-- The integer rows of R244. -/
def genRows : List GenRow :=
  [⟨.genAdd, relAdd⟩, ⟨.genSub, relSub⟩, ⟨.genMul, relMul⟩,
   ⟨.genMulhu, fun _ x y r => r.toNat = x.toNat * y.toNat / 2 ^ 32⟩, ⟨.genAnd, relAnd⟩, ⟨.genOr, relOr⟩, ⟨.genXor, relXor⟩,
   ⟨.genShl, relShl⟩, ⟨.genShr, relShr⟩, ⟨.genSra, relSra⟩, ⟨.genRotl, relRol⟩, ⟨.genSltu, relSltu⟩, ⟨.genSlt, relSlt⟩]

/-! ### Numbers as reals (R71 to R74, R84, R90) -/

/-- An exact value is finite, of this sign and this real value; a zero has a sign too. -/
def XVal.Is (x : XVal) (neg : Bool) (r : ℝ) : Prop :=
  ∃ (m : Nat) (e : Int), x = .fin neg m e ∧ r = (if neg then -1 else 1) * m * (2 : ℝ) ^ e

/-- The bit pattern of a format with this sign, exponent field and fraction (R71). -/
def Fmt.pattern (f : Fmt) (neg : Bool) (ex frac : Nat) : Nat := (if neg then f.signBit else 0) + ex * 2 ^ (f.p - 1) + frac

/-- An output is what rounding a nonzero real value into a format delivers (R73): y, found between the two neighbouring
multiples of the value's quantum by the mode, or the mode's overflow value, with the flags. -/
def Rounds (f : Fmt) (mode : RMode) (neg : Bool) (x : ℝ) (o : Nat × FFlags) : Prop :=
  let top : ℝ := (2 - (2 : ℝ) ^ (1 - (f.p : Int))) * (2 : ℝ) ^ f.emax
  x ≠ 0 → (neg = true ↔ x < 0) → ∀ l : Int, (2 : ℝ) ^ l ≤ |x| → |x| < (2 : ℝ) ^ (l + 1) →
    let q : ℝ := (2 : ℝ) ^ (max l f.emin - f.p + 1)
    let lo : ℝ := ⌊x / q⌋ * q
    let hi : ℝ := lo + q
    ∃ y : ℝ, (x = lo → y = x) ∧
      (x ≠ lo → match mode with
        | .rne => (x - lo < hi - x → y = lo) ∧ (hi - x < x - lo → y = hi) ∧
            (x - lo = hi - x → (y = lo ∨ y = hi) ∧ ∃ k : Int, y = 2 * k * q)
        | .rz => y = if 0 < x then lo else hi
        | .rd => y = lo
        | .ru => y = hi) ∧
      (|y| ≤ top → (f.value o.1).Is neg y ∧ o.2.of = false ∧ (o.2.nx = true ↔ y ≠ x)) ∧
      (top < |y| → o.2.of = true ∧ o.2.nx = true ∧
        if mode = .rz ∨ (mode = .rd ∧ neg = false) ∨ (mode = .ru ∧ neg = true) then
          (f.value o.1).Is neg (if neg then -top else top)
        else f.value o.1 = .inf neg) ∧
      (o.2.uf = true ↔ y ≠ x ∧ |x| < (2 : ℝ) ^ f.emin) ∧ o.2.nv = false ∧ o.2.dz = false

/-- Whether a mode takes the upper of two neighbouring magnitudes (R84): to nearest, on a tie the one whose code is even. -/
def Chooses (mode : RMode) (neg : Bool) (x lo hi : ℝ) (even up : Bool) : Prop :=
  match mode with
  | .rne => (x - lo < hi - x → up = false) ∧ (hi - x < x - lo → up = true) ∧ (x - lo = hi - x → up = !even)
  | .rz => up = false
  | .rd => up = neg
  | .ru => up = !neg

/-- An output is the Krytip code, of a type whose largest magnitude has code `top`, that a magnitude x with a sign converts
into (R84). -/
def Krytip (t : EType) (top : Nat) (mode : RMode) (neg : Bool) (x : ℝ) (o : Nat × FFlags) : Prop :=
  ∃ mag : Nat → ℝ, (∀ c ≤ top, (EType.value t c).Is false (mag c)) ∧
    (x = 0 → o = (0, { })) ∧
    (mag top < x → o = ((if neg then top + 1 else 0) + top, { of := true, nx := true })) ∧
    (∀ c ≤ top, 0 < c → x = mag c → o = ((if neg then top + 1 else 0) + c, { })) ∧
    (∀ c < top, mag c < x → x < mag (c + 1) → ∃ up, Chooses mode neg x (mag c) (mag (c + 1)) (c % 2 == 0) up ∧
      (let r := if up then c + 1 else c
      o = (if r = 0 then 0 else (if neg then top + 1 else 0) + r, { nx := true, uf := c == 0 })))

end Sys2Proof.Machine
end

