-- ==== Sys2Proof/Certificates/Slice0/Obligations.lean ====
section
/-!
DEFINITION. The statements for the provers. Each docstring names the rules that it formalises, or says that a clause is the
model's own and names its log entry.
-/

open Sys2Proof Sys2Proof.Machine

/-- Words printed in the specification's examples (R143, R251, R252 and the tables of the transfer, matrix and
generator chapters) decode to the instruction printed beside them. -/
def Obligations.DecodeWords : Prop :=
  decodeWord .ctl 0x2420789B = .ok (.lui 1 0x789B) ∧ decodeWord .ctl 0x20420020 = .ok (.shli 2 2 false 32) ∧
    decodeWord .ctl 0x04211003 = .ok (.or 1 1 2 false) ∧ decodeWord .ctl 0xCC041800 = .ok (.gload 4 3) ∧
    decodeWord .lds 0x10900002 = .ok (.copy { sn := true } 4 0 0 .glob .abuf false) ∧
    decodeWord .sts 0x48400001 = .ok (.xferSemwait { } 0 (.imm 1)) ∧
    decodeWord .cmp 0xA0404005 = .ok (.mmaz { wp := true } 0 1 0 5) ∧
    decodeWord .cmp 0xC0832800 = .ok (.smod { } 1 .addrow0 4) ∧
    decodeWord .cmp 0x40002034 = .ok (.vld { } { } 1 3 .abuf .plain) ∧
    decodeWord .cmp 0x80C80000 = .ok (.mdrain { } 2 0 .rne false false 0) ∧
    decodeWord .gen 0x0E454000 = .ok (.genMul 9 1 5) ∧ decodeWord .gen 0x66A40000 = .ok (.genRade 10 9)

/-- R123 to R131: no bit of a CTL encoding is dropped or shared. -/
def Obligations.RoundTripCtl : Prop :=
  ∀ i : Instr, i.sect = .ctl → i.wf = true → decodeWord .ctl (encode i) = .ok i

/-- R26, R132 to R138: LDS takes the token bits WN and SN, STS takes WP and SP; a word without token bits is one of
both. -/
def Obligations.RoundTripEngines : Prop :=
  ∀ i : Instr, i.wf = true →
    (i.sect = .xfer → ∃ t, i.tok = some t ∧ (t.fitsLds = true ∨ t.fitsSts = true) ∧
      (t.fitsLds = true → decodeWord .lds (encode i) = .ok i) ∧ (t.fitsSts = true → decodeWord .sts (encode i) = .ok i)) ∧
    (i.sect = .cmp → decodeWord .cmp (encode i) = .ok i) ∧
    (i.sect = .gen → decodeWord .gen (encode i) = .ok i)

/-- The fetch of CTL (R123 to R125, R139), in the model's schedule (log 4). That a word waits for loads under way into
its registers, and a release for every access of CTL under way, is log 10. -/
def Obligations.CtlTurnRuns : Prop :=
  ∀ (s : State) (c : CoreId) (n : Nat) (ms : List Move) (t : Task),
    s.schedule = { clocks := n, act := .seq c .ctl } :: ms → (s.core c).task = some t → (s.core c).sealed = false →
    (s.core c).hold = false → ((s.core c).ctl.hcur ≠ 0 → (s.ctx t.ctx).isRefuted (s.core c).ctl.hcur = false) →
    (s.core c).ctl.answer = none → (s.core c).faultDue = false → (s.core c).ctl.wait = .none → (s.core c).ctl.pc < 16384 →
    let w := Cells.read 0 (s.core c).imemCtl (s.core c).ctl.pc
    let u := { s with schedule := ms, clock := s.clock + n, actCore := c, actSeq := .ctl }
    (∀ i, decodeWord .ctl w = .ok i → u.pending (.seq t.uid .ctl) i = false → step s = afterAct (exec i u)) ∧
    (∀ i, decodeWord .ctl w = .ok i → u.pending (.seq t.uid .ctl) i = true → step s = afterAct (.next u)) ∧
    (∀ r, decodeWord .ctl w = .error r → step s = afterAct (exec (.illegalInstrFetch r.isReserved (w.setWidth 64)) u)) ∧
    (s.posted = [] → ∀ i, u.pending (.seq t.uid .ctl) i = false)

/-- The fetch of an engine (R24, R123 to R125), in the model's schedule (log 4); what makes a word wait is log 10. -/
def Obligations.EngineTurnRuns : Prop :=
  ∀ (s : State) (c : CoreId) (e : Engine) (n : Nat) (ms : List Move),
    s.schedule = { clocks := n, act := .seq c e.seqr } :: ms → s.halts c = false → (s.core c).mayIssue e = true →
    (((s.core c).eng e).hyp ≠ 0 → (s.ctx (s.core c).theTask.ctx).isRefuted ((s.core c).eng e).hyp = false) →
    ((s.core c).eng e).pc < engWords e →
    let w := Cells.read 0 ((s.core c).imem e.seqr) ((s.core c).eng e).pc
    let u := { s with schedule := ms, clock := s.clock + n, actCore := c, actSeq := e.seqr }
    (∀ i, decodeWord (fetchOf e) w = .ok i → u.pending ((s.core c).seqAgent e.seqr) i = false → step s = afterAct (exec i u)) ∧
    (∀ i, decodeWord (fetchOf e) w = .ok i → u.pending ((s.core c).seqAgent e.seqr) i = true → step s = afterAct (.next u)) ∧
    (∀ r, decodeWord (fetchOf e) w = .error r → s.posted = [] →
      step s = afterAct (exec (.illegalInstrFetch r.isReserved (w.setWidth 64)) u)) ∧
    (s.posted = [] → ∀ i, u.pending ((s.core c).seqAgent e.seqr) i = false)

/-- The remaining moves of the model's schedule (log 4); the generator's fetch is R243 and R249. -/
def Obligations.EventAndGeneratorRun : Prop :=
  (∀ (s : State) (i : Instr) (n : Nat) (ms : List Move), s.schedule = { clocks := n, act := .event i } :: ms →
      step s = if i.sect = .event then afterAct (exec i { s with schedule := ms, clock := s.clock + n })
        else .refused .notAnEvent) ∧
    (∀ (s : State) (c : CoreId) (n : Nat) (ms : List Move) (v : GenEval) (w : Word) (i : Instr),
      s.schedule = { clocks := n, act := .ogu c } :: ms → (s.core c).hold = false → (s.core c).sealed = false →
      (s.core c).ogu = some v → v.out = none → v.count < v.slot.bound → v.slot.words[v.pc]? = some w →
      decodeWord .gen w = .ok i →
      step s = afterAct (exec i { s with schedule := ms, clock := s.clock + n, actCore := c, actSeq := .cmp })) ∧
    (∀ s : State, s.schedule = [] →
      step s = step { s with schedule := [Config.move s.turn], turn := s.turn + 1 }) ∧
    (∀ s t : State, afterAct (.next s) = .next t → t.cores = s.settleFalls.endOrphans.settleFalls.cores ∧
      t.mem = s.settleFalls.endOrphans.settleFalls.mem)

/-- R24, R125 (check 1 in every section), R160. -/
def Obligations.BadWordFaults : Prop :=
  (∀ f : Fetch, decodeWord f 0 = .error .zeroWord ∧ Reject.zeroWord.isReserved = false) ∧
    ∀ (s : State) (b : Bool) (v : DWord),
      let cause := if b then Cause.reservedField else Cause.illegalInstr
      exec (.illegalInstrFetch b v) s =
        .next (if s.actSeq = .ctl then s.takeTrap s.actCore cause v { } (s.here).ctl.pc
          else s.onHere (fun k => k.stopAt s.actEng cause v))

/-- The Reset columns of R13 and R337, and R318. For the semaphores, the cores' tasks and the launch slots the
specification states no value at power-on: zero and none are the model's choice (log 3). -/
def Obligations.ResetValues : Prop :=
  State.reset.boot = .boot ∧ State.reset.caps = capsReset ∧ State.reset.shlim = 1800000 ∧
    (∀ i : Fin 8, State.reset.copywt[i] = 0x1111111111111111) ∧
    (∀ c : CoreId, (State.reset.core c).task = none ∧ ∀ n : BitVec 4, (State.reset.core c).sem n = 0) ∧
    (∀ x : BitVec 8, State.reset.slot x = none) ∧ (∀ w : BitVec 4, (State.reset.tdiOf w).state = .unlocked)

/-- The first states of the invariants that StepKeepsMemory and StepReleasesIds state of every step. -/
def Obligations.ResetInvariants : Prop :=
  State.reset.memWf ∧ State.reset.idsHeld ∧ State.reset.falls = []

/-- R264's last row, over every instruction and event of the device; R319 and R320 for the worlds. That a world's
tasks end at the end of the step in which its TDI falls is the model's order (log 48). -/
def Obligations.StepReleasesIds : Prop :=
  ∀ s t : State, step s = .next t → t.idsHeld ∧ t.falls = []

/-- R253: one value for each byte of the device's map. The canonical form is the model's (log 1); every write of every
unit keeps it. -/
def Obligations.StepKeepsMemory : Prop :=
  ∀ s t : State, s.memWf → step s = .next t → t.memWf

/-- The model's memory (log 1): the three operations that write it; R253 for what a read returns. -/
def Obligations.MemoryCanonical : Prop :=
  (∀ (s : State) (pa : Nat) (bs : List Byte), s.memWf → (s.commit pa bs).memWf) ∧
    (∀ (s : State) (x : BitVec 6) (v : Ver), s.memWf → (s.settleVer x v).memWf) ∧
    (∀ s : State, s.memWf → s.powerLoss.memWf) ∧
    (∀ (s : State) (pa : Nat) (bs : List Byte), s.windowAt pa = none →
      (∀ i, i < bs.length → s.windowAt (pa + i) = none → some ((s.commit pa bs).phys (pa + i)) = bs[i]?) ∧
      (∀ q, q < pa ∨ pa + bs.length ≤ q → s.windowAt q = none → (s.commit pa bs).phys q = s.phys q))

/-- R142's table, in plain arithmetic; s0 as R126 says. -/
def Obligations.AluRegister : Prop :=
  ∀ (s : State) (d a b : BitVec 5) (w : Bool),
    (∀ p ∈ aluRows, ∃ v, ResultOf w p.2 (s.sreg a) (s.sreg b) v ∧ exec (p.1 d a b w) s = .next (s.setSreg d v).retire) ∧
    (∀ p ∈ aluRows1, ∃ v, ResultOf w p.2 (s.sreg a) 0 v ∧ exec (p.1 d a w) s = .next (s.setSreg d v).retire)

/-- R143 with the extensions of R128. -/
def Obligations.AluImmediate : Prop :=
  ∀ (s : State) (d a : BitVec 5) (w : Bool) (imm : BitVec 16) (sh : BitVec 6),
    (∀ p ∈ immRows, ∃ v, p.2.2 64 (s.sreg a) (if p.2.1 then BitVec.ofInt 64 imm.toInt else BitVec.ofNat 64 imm.toNat) v ∧
      exec (p.1 d a imm) s = .next (s.setSreg d v).retire) ∧
    (∀ p ∈ shiftRows, ∃ v, ResultOf w p.2 (s.sreg a) (BitVec.ofNat 64 sh.toNat) v ∧
      exec (p.1 d a w sh) s = .next (s.setSreg d v).retire) ∧
    (∃ v : DWord, v.toInt = imm.toInt * 2 ^ 16 ∧ exec (.lui d imm) s = .next (s.setSreg d v).retire) ∧
    (∃ v : DWord, (∀ i < 64, v.getLsbD i = if 32 ≤ i ∧ i < 48 then imm.getLsbD (i - 32) else (s.sreg d).getLsbD i) ∧
      exec (.lih d imm) s = .next (s.setSreg d v).retire)

/-- R144 in plain arithmetic. -/
def Obligations.MulDiv : Prop :=
  ∀ (s : State) (d a b : BitVec 5) (w : Bool),
    (∃ v, ResultOf w relMul (s.sreg a) (s.sreg b) v ∧ exec (.mul d a b w) s = .next (s.setSreg d v).retire) ∧
    (∃ v : DWord, v.toInt = (s.sreg a).toInt * (s.sreg b).toInt / 2 ^ 64 ∧
      exec (.mulh d a b) s = .next (s.setSreg d v).retire) ∧
    (∃ v : DWord, v.toNat = (s.sreg a).toNat * (s.sreg b).toNat / 2 ^ 64 ∧
      exec (.mulhu d a b) s = .next (s.setSreg d v).retire) ∧
    (∀ p ∈ divRows, ∃ v z, (z = true ↔ if w then ((s.sreg b).setWidth 32).toNat = 0 else (s.sreg b).toNat = 0) ∧
      ResultOf w p.2 (s.sreg a) (s.sreg b) v ∧
      exec (p.1 d a b w) s =
        .next (((if z then s.onCtl (fun k => { k with dz := true }) else s).setSreg d v).retire)) ∧
    (∀ n : Nat, 0 < n → ∀ x : BitVec n, x.toInt = -2 ^ (n - 1) →
      relDiv n x (BitVec.ofInt n (-1)) x ∧ relRem n x (BitVec.ofInt n (-1)) 0)

/-- R126. -/
def Obligations.S0Discards : Prop :=
  (∀ s : State, s.sreg 0 = 0) ∧ (∀ (s : State) (v : DWord), (s.setSreg 0 v).sreg = s.sreg) ∧
    (∀ (s : State) (d r : BitVec 5) (v : DWord), d ≠ 0 → (s.setSreg d v).sreg r = if r = d then v else s.sreg r) ∧
    (∀ v : GenEval, v.reg 0 = 0) ∧ (∀ (v : GenEval) (x : Word), v.setReg 0 x = v) ∧
    (∀ (v : GenEval) (d r : BitVec 4) (x : Word), d ≠ 0 → (v.setReg d x).reg r = if r = d then x else v.reg r)

/-- The frames of R141 to R144. -/
def Obligations.CtlRegisterFrame : Prop :=
  ∀ (s : State) (d a b : BitVec 5) (w : Bool) (imm : BitVec 16) (sh : BitVec 6) (csr : BitVec 12),
    (∀ p ∈ aluRows, ∃ t, exec (p.1 d a b w) s = .next t ∧ CtlFrame s t d) ∧
    (∀ p ∈ aluRows1, ∃ t, exec (p.1 d a w) s = .next t ∧ CtlFrame s t d) ∧
    (∀ p ∈ immRows, ∃ t, exec (p.1 d a imm) s = .next t ∧ CtlFrame s t d) ∧
    (∀ p ∈ shiftRows, ∃ t, exec (p.1 d a w sh) s = .next t ∧ CtlFrame s t d) ∧
    (∃ t, exec (.lui d imm) s = .next t ∧ CtlFrame s t d) ∧ (∃ t, exec (.lih d imm) s = .next t ∧ CtlFrame s t d) ∧
    (∃ t, exec (.mul d a b w) s = .next t ∧ CtlFrame s t d) ∧ (∃ t, exec (.mulh d a b) s = .next t ∧ CtlFrame s t d) ∧
    (∃ t, exec (.mulhu d a b) s = .next t ∧ CtlFrame s t d) ∧
    (∀ p ∈ divRows, ∃ t z, exec (p.1 d a b w) s = .next t ∧
      CtlFrame (s.onCtl (fun k => { k with dz := k.dz || z })) t d) ∧
    (csrKind csr.toNat = .defined → ∃ t, exec (.csrd d csr) s = .next t ∧ CtlFrame s t d)

/-- R149; what a taken jump does to the loop stack is R150, in Ctl.jump. -/
def Obligations.BranchAndJump : Prop :=
  ∀ (s : State) (d a b : BitVec 5) (off imm : BitVec 16) (off26 : BitVec 26),
    let pc : Int := (s.here).ctl.pc
    (∀ p ∈ branchRows, exec (p.1 a b off) s =
      if p.2 (s.sreg a) (s.sreg b) then
        if 0 ≤ pc + off.toInt ∧ pc + off.toInt ≤ 16383 then .next (s.onCtl (fun k => k.jump (pc + off.toInt).toNat))
        else .next (s.ctlTrap .illegalInstr (BitVec.ofInt 64 (pc + off.toInt)))
      else .next s.retire) ∧
    (exec (.jal off26) s =
      if 0 ≤ pc + off26.toInt ∧ pc + off26.toInt ≤ 16383 then
        .next ((s.setSreg 31 (BitVec.ofInt 64 (pc + 1))).onCtl (fun k => k.jump (pc + off26.toInt).toNat))
      else .next (s.ctlTrap .illegalInstr (BitVec.ofInt 64 (pc + off26.toInt)))) ∧
    (∃ t : DWord, (t.toNat : Int) = ((s.sreg a).toNat + imm.toInt) % 2 ^ 64 ∧
      exec (.jalr d a imm) s =
        if t.toNat ≤ 16383 then
          .next ((s.setSreg d (BitVec.ofInt 64 (pc + 1))).onCtl (fun k => k.jump t.toNat))
        else .next (s.ctlTrap .illegalInstr t))

/-- R150's two programs. -/
def Obligations.LoopRules : Prop :=
  (∀ (s : State) (a : BitVec 5) (imm : BitVec 16),
      let k := (s.here).ctl
      let last := k.pc + imm.toNat
      let n := (s.sreg a).toNat
      exec (.loop a imm) s =
        if 16383 < last ∨ 4 ≤ k.loops.length ∨ (∃ top ∈ k.loops.head?, top.last < last) then
          .next (s.ctlTrap .illegalInstr ((Cells.read 0 (s.here).imemCtl k.pc).setWidth 64))
        else if n = 0 then
          .next (s.onCtl (fun k => { k with pc := (nextWord last k.loops).1, loops := (nextWord last k.loops).2 }))
        else .next (s.onCtl (fun k => { k with pc := k.pc + 1, loops := { first := k.pc + 1, last := last, count := n } :: k.loops }))) ∧
    (∀ w, nextWord w [] = (w + 1, [])) ∧
    (∀ w e es, w ≠ e.last → nextWord w (e :: es) = (w + 1, e :: es)) ∧
    (∀ e es, 1 < e.count → nextWord e.last (e :: es) = (e.first, { e with count := e.count - 1 } :: es)) ∧
    (∀ e es, e.count ≤ 1 → nextWord e.last (e :: es) = nextWord e.last es) ∧
    (∀ (k : Ctl) t, (k.jump t).pc = t ∧ ∀ e, e ∈ (k.jump t).loops ↔ e ∈ k.loops ∧ e.first ≤ t ∧ t ≤ e.last)

/-- R145, R146 and R253; that a load elsewhere reaches its register at a later point, and what vector loads read
ahead, is R257 and R261 as log 10 reads them. -/
def Obligations.CtlLoads : Prop :=
  ∀ (s : State) (d a : BitVec 5) (imm : BitVec 16), ∀ p ∈ loadRows,
    let ea : DWord := s.sreg a + imm.signExtend 64
    let who := s.ctlWho
    let reads (bs : List Byte) (v : DWord) : Prop :=
      if p.signed then v.toInt = (BitVec.ofNat (8 * p.n) (leNat bs)).toInt else v.toNat = leNat bs
    (ea.toNat % p.n ≠ 0 → exec (p.word d a imm) s = .next (s.ctlTrap .misaligned ea)) ∧
    (∀ l, ea.toNat % p.n = 0 → s.access who .load ea.toNat p.n = .ok l → l.mside = false → s.away l = false →
      ∃ v : DWord, reads (s.readLeaf who l ea.toNat p.n) v ∧
        exec (p.word d a imm) s = .next ((s.dropAhead.fillTlb who ea.toNat).setSreg d v).retire ∧
        ∀ pa, (((s.dropAhead.fillTlb who ea.toNat).setSreg d v).retire).phys pa = s.phys pa) ∧
    (∀ l, ea.toNat % p.n = 0 → s.access who .load ea.toNat p.n = .ok l → l.mside = true → l.dev = none → l.pa < hbmEnd →
      exec (p.word d a imm) s = .next (s.sendTermite who l ea (.load d p.n p.signed))) ∧
    (∀ l, ea.toNat % p.n = 0 → s.access who .load ea.toNat p.n = .ok l → s.away l = true →
      let x : Post := { num := s.postNum, who := { who with hyp := 0 }, leaf := l, va := ea.toNat, kind := .load d p.n p.signed }
      exec (p.word d a imm) s =
        .next ({ s with posted := s.posted ++ [x], postNum := s.postNum + 1 }.fillTlb who ea.toNat).retire) ∧
    (∀ (x : Post) (c : CoreId) (n : Nat), x.kind = .load d p.n p.signed → x.who.agent = .seq n .ctl → s.postCore x = some c → s.mayPerform x = true →
      s.posted.find? (fun y => y.num == x.num) = some x → (s.core c).hold = false → (s.core c).still = false →
      ∃ v : DWord, reads (s.readLeaf x.who x.leaf x.va p.n) v ∧
        s.perform x.num = { s with posted := s.posted.filter (fun y => y.num != x.num) }.onCore c (fun k =>
          k.onCtl (fun y => y.setReg d v)))

/-- R145, R253, and the frame of a store: the address stored to is that of the leaf which the meaning's own check
gives. The later point of an access elsewhere is R261 as log 10 reads it. -/
def Obligations.CtlStores : Prop :=
  ∀ (s : State) (b a : BitVec 5) (imm : BitVec 16), ∀ p ∈ storeRows,
    let ea : DWord := s.sreg a + imm.signExtend 64
    let who := s.ctlWho
    (ea.toNat % p.n ≠ 0 → exec (p.word b a imm) s = .next (s.ctlTrap .misaligned ea)) ∧
    (∀ l, ea.toNat % p.n = 0 → s.access who .store ea.toNat p.n = .ok l → l.mside = false → l.dev = none →
      s.windowAt l.pa = none → isPcie l.pa = false → (s.here).ctl.hcur = 0 →
      ∃ t, exec (p.word b a imm) s = .next t ∧
        (∀ i < p.n, (t.phys (l.pa + i)).toNat = (s.sreg b).toNat / 256 ^ i % 256) ∧
        (∀ q, q / 128 ≠ l.pa / 128 → t.phys q = s.phys q) ∧
        (s.tlt = [] → s.stale = [] → s.tags = [] → l.enc = 0 → ∀ q, q < l.pa ∨ l.pa + p.n ≤ q → t.phys q = s.phys q) ∧
        (∀ r, t.sreg r = s.sreg r) ∧
        (t.here).ctl = { (s.here).ctl with pc := (nextWord (s.here).ctl.pc (s.here).ctl.loops).1,
                                           loops := (nextWord (s.here).ctl.pc (s.here).ctl.loops).2 }) ∧
    (∀ l, ea.toNat % p.n = 0 → s.access who .store ea.toNat p.n = .ok l → l.mside = true → l.dev = none → l.pa < hbmEnd →
      exec (p.word b a imm) s = .next (s.sendTermite who l ea (.store (leBytes p.n (s.sreg b).toNat)))) ∧
    (∀ l, ea.toNat % p.n = 0 → s.access who .store ea.toNat p.n = .ok l → s.away l = true → (s.here).ctl.hcur = 0 →
      let x : Post := { num := s.postNum, who := { who with hyp := 0 }, leaf := l, va := ea.toNat,
                        kind := .write (leBytes p.n (s.sreg b).toNat) }
      exec (p.word b a imm) s =
        .next ({ s with posted := s.posted ++ [x], postNum := s.postNum + 1 }.fillTlb who ea.toNat).retire)

/-- R147 in plain arithmetic; FADD under RNE. An atomic is performed as it issues wherever its home is, being a
release and an acquire (R256, R261; log 10). That an AMOADD of 64 bits counts as an increment of an event, as SIGEV
does, is log 78. -/
def Obligations.CtlAtomics : Prop :=
  ∀ (s : State) (d a b : BitVec 5) (ms hi : Bool) (sz : AmoSize),
    let va := s.sreg a
    let who := s.ctlWho
    let now : Who := { s.ctlWho with late := false }
    let n := amoBytes sz
    let done (l : Leaf) (new : Option (List Byte)) (bumps : Bool) : State :=
      (match new with
        | some bs =>
          let t := s.writeLeaf now l va.toNat bs
          if bumps then t.wakeEvent l.dev l.pa (BitVec.ofNat 64 (leNat bs)) else t
        | none => s).dropAhead.fillTlb now va.toNat
    (∀ p ∈ amoRows, (s.here).ctl.hcur ≠ 0 → exec (p.word d a b ms sz) s = .next (s.ctlTrap .hypAtomic 0)) ∧
    (∀ p ∈ amoRows, (s.here).ctl.hcur = 0 → va.toNat % n ≠ 0 →
      exec (p.word d a b ms sz) s = .next (s.ctlTrap .misaligned va)) ∧
    (∀ p ∈ amoRows, ∀ l, (s.here).ctl.hcur = 0 → va.toNat % n = 0 → s.access who .atomic va.toNat n = .ok l →
      ms = false → l.mside = false →
      let old := leNat (s.readLeaf who l va.toNat n)
      ∃ new : Option Nat, p.spec sz (8 * n) old ((s.sreg b).toNat % 2 ^ (8 * n)) ((s.sreg d).toNat % 2 ^ (8 * n)) new ∧
        ∃ v : DWord, v.toInt = (BitVec.ofNat (8 * n) old).toInt ∧
          exec (p.word d a b ms sz) s =
            .next ((done l (new.map (leBytes n)) (p.op == .add && sz == .d)).setSreg d v).retire) ∧
    (∀ p ∈ amoRows, ∀ l, (s.here).ctl.hcur = 0 → va.toNat % n = 0 → s.access who .atomic va.toNat n = .ok l →
      ms = true → l.dev = none → l.pa < hbmEnd →
      exec (p.word d a b ms sz) s = .next (s.sendTermite who l va (.amo d p.op sz (s.sreg b) (s.sreg d)))) ∧
    (∀ l, (s.here).ctl.hcur = 0 → s.access who .atomic va.toNat 1 = .ok l → ms = false → l.mside = false →
      let old := (s.readByte who l va.toNat l.pa).toNat
      let low := (s.sreg b).toNat % 16
      ∃ v : DWord, v.toNat = (if hi then old / 16 else old % 16) ∧
        exec (.amonswap d a b hi ms) s =
          .next ((done l (some [BitVec.ofNat 8 (if hi then old % 16 + 16 * low else old / 16 * 16 + low)]) false).setSreg d v).retire)

/-- R58, R156, R259, R294. That the answer waits under a clock hold or a seal is log 35; that an AMOADD of 64 bits
counts as an increment of an event is log 78. -/
def Obligations.TermitePerforms : Prop :=
  (∀ (s : State) (p : QueuePos) (h : p.st.toNat < 12),
      let q := s.termite[p.st.toNat]
      let u : State := { s with termite := s.termite.set p.st.toNat (q.eraseIdx p.n) h }
      (q[p.n]? = none → exec (.termiteCommand p) s = .next s) ∧
      (∀ m, q[p.n]? = some m → (∃ e ∈ q.take p.n, ∃ ln ∈ e.lines, ln ∈ m.lines) → exec (.termiteCommand p) s = .next s) ∧
      (∀ m, q[p.n]? = some (.ctl m) → (∀ e ∈ q.take p.n, ∀ ln ∈ e.lines, ln ∉ (TermOp.ctl m).lines) →
        ∃ (w : State) (r : Option (BitVec 5 × DWord)),
          (∀ d k sg, m.op = .load d k sg → w = u ∧ r = some (d, extendLoad sg (u.readLeaf m.who m.leaf m.va.toNat k))) ∧
          (∀ bs, m.op = .store bs → w = u.writeLeaf m.who m.leaf m.va.toNat bs ∧ r = none) ∧
          (∀ d o sz val exp, m.op = .amo d o sz val exp →
            let old := u.readLeaf m.who m.leaf m.va.toNat (amoBytes sz)
            r = some (d, extendLoad (sz == .w) old) ∧
              w = match amoNew o sz (BitVec.ofNat 64 (leNat old)) val exp with
                | some v =>
                  let t := u.writeLeaf m.who m.leaf m.va.toNat (leBytes (amoBytes sz) v.toNat)
                  if o = .add ∧ sz = .d then t.wakeEvent m.leaf.dev m.leaf.pa v else t
                | none => u) ∧
          (∀ n, m.op = .event n →
            let v : DWord := BitVec.ofNat 64 (leNat (u.readLeaf m.who m.leaf m.va.toNat 8)) + n
            r = none ∧ w = (u.writeLeaf m.who m.leaf m.va.toNat (leBytes 8 v.toNat)).wakeEvent m.leaf.dev m.leaf.pa v) ∧
          let w := w.dropSeen m.who.agent
          let k := w.core m.core
          let waits : Prop := (∃ t, k.task = some t ∧ t.uid = m.uid) ∧ k.ctl.wait = .message
          (¬waits → exec (.termiteCommand p) s = .next w) ∧
          (waits → k.stopped = true → exec (.termiteCommand p) s =
            .next (w.onCore m.core (fun k => k.onCtl (fun x => { x with answer := some r })))) ∧
          (waits → k.stopped = false → exec (.termiteCommand p) s =
            .next (let v := { w with actCore := m.core, actSeq := .ctl }.onCtl (fun x => { x with answer := none })
              (match r with
                | some (d, x) => v.setSreg d x
                | none => v).retireWait))) ∧
      (∀ a, q[p.n]? = some (.remote a) → (∀ e ∈ q.take p.n, ∀ ln ∈ e.lines, ln ∉ (TermOp.remote a).lines) →
        exec (.termiteCommand p) s = .next (u.performRemote a)) ∧
      (∀ l, q[p.n]? = some (.line l) → (∀ e ∈ q.take p.n, ∀ ln ∈ e.lines, ln ∉ (TermOp.line l).lines) →
        exec (.termiteCommand p) s = .next (u.performLine l))) ∧
    (∀ k : Core, k.stopped = (k.hold || k.sealed)) ∧
    (∀ (s : State) (who : Who) (l : Leaf) (va : DWord) (op : MemOp) (h : stackOf l.pa < 12),
      let q := s.termite[stackOf l.pa]
      let t := (s.here).theTask
      let m : MsideCmd := { core := s.actCore, slot := t.slot, uid := t.uid, who := who, leaf := l, va := va, op := op }
      (q.length < 1024 → s.sendTermite who l va op =
        ({ s with termite := s.termite.set (stackOf l.pa) (q ++ [TermOp.ctl m]) h }.fillTlb who va.toNat).onHere
          (fun k => k.setWait .ctl .message)) ∧
      (1024 ≤ q.length → s.sendTermite who l va op = s))

/-- R148, R162 and R176: none changes a value that any access returns. The accesses under way, with what waits for
them, are R226, R254, R256, R261 and R266 as log 10 reads them. -/
def Obligations.CacheAndFence : Prop :=
  (∀ (s : State) (a scope : BitVec 5) (imm : BitVec 16) (t : Tok) (x : BitVec 4) (z : BitVec 3) (src : Space),
      exec (.cwb a imm) s = .next s.retire ∧ exec (.cinv a imm) s = .next s.retire ∧
      exec (.cwbinv a imm) s = .next s.retire ∧ exec (.cpref a imm) s = .next s.retire ∧
      exec (.fence scope) s = .next s.retire ∧ (s.takes t → exec (.pref t x z src) s = .next (s.past (s.taken t) t))) ∧
    (∀ (s : State) (p : Post) (bs : List Byte), s.posted.find? (fun q => q.num == p.num) = some p → p.kind = .write bs →
      let first := s.posted.takeWhile (fun q => q.num != p.num)
      let meets (q : Post) : Prop := ∃ x ∈ p.touches, ∃ y ∈ q.touches, x.1 = y.1 ∧ x.2.1 < y.2.1 + y.2.2 ∧ y.2.1 < x.2.1 + x.2.2
      let leads (q : Post) : Prop := q.who.agent = p.who.agent ∨
        ∃ u n, p.who.agent = .mat u n ∧ q.who.agent = .seq u .cmp ∧ q.num < p.who.sees
      let after (q : Post) : Prop := leads q ∧ (meets q ∨ (q.pcieWrite = true ∧ p.pcie = true))
      let t : State := { s with posted := s.posted.filter (fun q => q.num != p.num) }.performLeaf p.who p.leaf p.va bs
      runAct (.perform p.num) s = .next (s.perform p.num) ∧
      ((∃ q ∈ first, after q) → s.perform p.num = s) ∧
      ((∀ q ∈ first, ¬after q) →
        ((∀ u e, p.who.agent ≠ .seq u (Engine.seqr e)) → s.perform p.num = t) ∧
        (∀ u e, p.who.agent = .seq u (Engine.seqr e) → s.perform p.num = t.onEvery (fun k => k.landed p.num)))) ∧
    (∀ (k : Core) (n : Nat) (e : Engine) (p : PushEnt), (k.eng e).pushq = [p] → p.after = [n] → n ∈ (k.eng e).away → p.ready = true →
      (∀ g, g ≠ e → n ∉ (k.eng g).away) →
      let f := pushFifo e p.toNext
      n ∉ ((k.landed n).eng e).away ∧
      (k.stopped = false → (k.fifo f).length < 8 →
        (k.landed n).fifo f = k.fifo f ++ [p.poison] ∧ ((k.landed n).eng e).pushq = []) ∧
      (k.stopped = true → (k.landed n).fifo f = k.fifo f ∧ ((k.landed n).eng e).pushq = [{ p with after := [] }])) ∧
    (∀ (s : State) (a : Agent) (i : Instr), i.releases = true → (∃ p ∈ s.posted, p.who.agent = a) → s.pending a i = true) ∧
    (∀ (s : State) (a : Agent) (i : Instr) (p : Post) (r : BitVec 5), p ∈ s.posted → p.who.agent = a → p.kind.reg = some r →
      r ∈ i.regs → s.pending a i = true) ∧
    (Instr.releases (.fence 4) = true ∧ ∀ a b d n g e f, Instr.releases (.semadd a n) = true ∧
      Instr.releases (.disp e f b d) = true ∧ Instr.releases (.rflag d a n) = true ∧ Instr.releases (.mflag d a n) = true ∧
      Instr.releases (.sigev a b) = true ∧ Instr.releases (.hresolve a g) = true ∧ Instr.releases (.hcommit a b) = true ∧
      Instr.releases (.hopen d a) = true ∧ Instr.releases (.hwin d a) = true)

/-- R18 to R23, R151. Space in the ring, and an entry that cannot be read, are log 12. -/
def Obligations.DispatchQueues : Prop :=
  (∀ (s : State) (e : Engine) (frag : BitVec 8) (n g : BitVec 5),
    let k := s.here
    let arg (i : Nat) : DWord := if g.toNat + i < 32 then s.sreg (BitVec.ofNat 5 (g.toNat + i)) else 0
    let cmd (f : BitVec 8) : Cmd :=
      { args := #v[arg 0, arg 1, arg 2, arg 3], count := s.sreg n, frag := f, hyp := k.ctl.hcur, tag := k.ctl.qtag }
    let room := (k.eng e).queue.length < 32 ∧ (k.eng e).ring = []
    let here (f : BitVec 8) : State := (s.onHere (fun k => k.onEng e (fun q => { q with queue := q.queue ++ [cmd f] }))).retireWait
    (k.fragValid e frag = false → exec (.disp e frag n g) s = .next (s.ctlTrap .illegalInstr s.ctlWord)) ∧
    (k.fragValid e k.ctl.jsel = false → exec (.dispx e n g) s = .next (s.ctlTrap .illegalInstr s.ctlWord)) ∧
    (k.fragValid e frag = true → room → exec (.disp e frag n g) s = .next (here frag)) ∧
    (k.fragValid e k.ctl.jsel = true → room → exec (.dispx e n g) s = .next (here k.ctl.jsel)) ∧
    (∀ u, k.fragValid e frag = true → ¬room → (k.eng e).ringRoom k.theTask.ringSize = true →
      s.store (s.whoOf s.actCore 0) (k.theTask.ringAddr e (k.eng e).ringTail).toNat (cmd frag).bytes = .ok u →
      exec (.disp e frag n g) s = .next (u.onHere (fun k => k.onEng e (fun q =>
        { q with ring := q.ring ++ [(q.ringTail, cmd frag)], ringTail := q.ringTail + 1 }))).retireWait) ∧
    (k.fragValid e frag = true → ¬room → (k.eng e).ringRoom k.theTask.ringSize = false →
      exec (.disp e frag n g) s = .next (s.onHere (fun k => k.setWait .ctl (.disp e)))) ∧
    (∀ size, (k.eng e).ringRoom size = match (k.eng e).ring.head? with
      | none => decide (0 < size)
      | some p => decide ((k.eng e).ringTail - p.1 < size)) ∧
    (∀ c : CoreId, (s.core c).ctl.wait = .disp e → ((s.core c).eng e).queue.length < 32 → ((s.core c).eng e).ring = [] →
      (s.core c).stopped = false →
      let w := Cells.read 0 (s.core c).imemCtl (s.core c).ctl.pc
      let issue (f : BitVec 8) : Out := .next ({ s with actCore := c, actSeq := .ctl }.onHere (fun k =>
        k.enqueue e (k.ctl.command f n g))).retireWait
      (decodeWord .ctl w = .ok (.disp e frag n g) → (s.core c).fragValid e frag = true → exec (.dispPlace c) s = issue frag) ∧
      (decodeWord .ctl w = .ok (.dispx e n g) → (s.core c).fragValid e (s.core c).ctl.jsel = true →
        exec (.dispPlace c) s = issue (s.core c).ctl.jsel))) ∧
    (∀ (s : State) (e : Engine) (c : CoreId), s.halts c = false → ((s.core c).eng e).cur = none →
      ((s.core c).eng e).stopped = false → ((s.core c).eng e).held = false → (s.core c).hold = false →
      (((s.core c).eng e).queue = [] → exec (.commandPop c e) s = .next (s.refill c e 32)) ∧
      (∀ (w : Cmd) (ws : List Cmd), ((s.core c).eng e).queue = w :: ws →
        ¬(w.hyp ≠ 0 ∧ (s.ctx (s.core c).theTask.ctx).isRefuted w.hyp = true) →
        exec (.commandPop c e) s =
          .next ((s.onCore c (fun k =>
            let k := k.onEng e (fun q => { q with queue := ws })
            if w.count = 0 then k.wake
            else
              let k := k.onEng e (fun q =>
                { q with cur := some { cmd := w, iter := 0, serial := q.serial }, serial := q.serial + 1, marked := false })
              ((k.setArgs e w).setIter e 0).onEng e (fun q =>
                { q with pc := k.fragStart e w.frag, loops := [], wait := .none }))).refill c e 32))) ∧
    (∀ (s : State) (c : CoreId) (e : Engine) (n : Nat),
      (((s.core c).eng e).ring = [] → s.refill c e n = s) ∧
      (∀ i w rest bs t, ((s.core c).eng e).ring = (i, w) :: rest → ((s.core c).eng e).queue.length < 32 →
        s.load (s.whoOf c 0) .load ((s.core c).theTask.ringAddr e i).toNat 64 = .ok (bs, t) →
        s.refill c e (n + 1) = (t.onCore c (fun r => r.onEng e (fun g =>
          { g with queue := g.queue ++ [cmdOf bs], ring := rest }))).refill c e n) ∧
      (∀ i w rest f a, ((s.core c).eng e).ring = (i, w) :: rest → ((s.core c).eng e).queue.length < 32 →
        s.load (s.whoOf c 0) .load ((s.core c).theTask.ringAddr e i).toNat 64 = .error (f, a) →
        (f ≠ .trap .eccUncorr → (∀ x, f ≠ .tag x) → s.refill c e (n + 1) = s) ∧
        (f = .trap .eccUncorr → s.refill c e (n + 1) = s.onCore c (fun k =>
          let y : EngFault := { eng := some e, serial := 0, cause := .eccUncorr, tval := BitVec.ofNat 64 a,
                                waddr := 0, frag := 0, tag := 0, hyp := 0 }
          if y ∈ k.faults then k else k.post y)))) ∧
    (∀ w : Cmd, cmdOf w.bytes = w ∧ w.bytes.length = 64)

/-- R17, R37, R153. That they wait for accesses elsewhere too is log 10; a push that waits in a full FIFO while
QCANCEL acts is log 64. That the ring's tail index moves back over entries which QCANCEL removes at its end is the
model's choice and no rule's (log 12). -/
def Obligations.QueueControl : Prop :=
  (∀ (s : State) (c : CoreId) (a : BitVec 5),
    let at_ : State := { s with actCore := c, actSeq := .ctl }
    let quiet (c : CoreId) : Prop := ∀ p ∈ s.posted, p.who.agent.ofTask (s.core c).theTask.uid = true →
      p.who.agent = .seq (s.core c).theTask.uid .ctl
    let alone (c : CoreId) : Prop := ∀ p ∈ s.posted, p.who.agent.ofTask (s.core c).theTask.uid = false
    let drop (q : EngCtl) : EngCtl :=
      let ring := q.ring.filter (fun w => decide (w.2.tag.toNat < (s.sreg a).toNat % 2 ^ 16))
      { q with queue := q.queue.filter (fun w => decide (w.tag.toNat < (s.sreg a).toNat % 2 ^ 16)), ring := ring,
               ringTail := (ring.getLast?.map (fun w => w.1 + 1)).getD q.ringTail }
    let cut : State := s.onHere (fun k =>
      ((((((k.onEng .lds drop).onEng .cmp drop).onEng .sts drop).mark .lds).mark .cmp).mark .sts))
    let full : State := ((cut.refill s.actCore .lds 32).refill s.actCore .cmp 32).refill s.actCore .sts 32
    ((s.here).drained = true → quiet s.actCore → exec .qdrain s = .next s.retire) ∧
    ((s.here).drained = false ∨ ¬quiet s.actCore → exec .qdrain s = .next (s.onHere (fun k => k.setWait .ctl .qdrain))) ∧
    ((s.here).drained = true → alone s.actCore → exec .exit s = .next (s.endTask s.actCore .exited)) ∧
    ((s.here).drained = false ∨ ¬alone s.actCore → exec .exit s = .next (s.onHere (fun k => k.setWait .ctl .exit))) ∧
    ((s.here).ctl.qcancelAt = none → exec (.qcancel a) s =
      if (full.here).allIdle = true ∧ full.engQuiet full.actCore = true then .next (full.onHere Core.clearFifos).retireWait
      else .next (full.onHere (fun k => k.setWait .ctl .qcancel))) ∧
    ((s.core c).ctl.wait = .qdrain → (s.core c).drained = true → quiet c → (s.core c).stopped = false →
      exec (.qdrainComplete c) s = .next at_.retireWait) ∧
    ((s.core c).ctl.wait = .exit → (s.core c).drained = true → alone c → (s.core c).stopped = false →
      exec (.taskEnd c) s = .next (s.endTask c .exited)) ∧
    ((s.core c).ctl.wait = .qcancel → (s.core c).allIdle = true → quiet c → (s.core c).stopped = false →
      exec (.qcancelComplete c) s = .next (at_.onHere Core.clearFifos).retireWait)) ∧
    (∀ (k : Core) (e : Engine) (r : Run), (k.eng e).cur = some r →
      let m := (k.mark e).eng e
      ((k.eng e).wait ≠ .tokens ∨ k.tokensPresent (wordPops e (k.engWordBits e)) = true →
        m.cur = some r ∧ m.marked = true ∧ m.pushq = (k.eng e).pushq.filter (fun p => p.serial != r.serial)) ∧
      ((k.eng e).wait = .tokens → k.tokensPresent (wordPops e (k.engWordBits e)) = false →
        m.cur = none ∧ m.abandoned = true ∧ m.wait = .none))

/-- R17, R51, R313. What the end of a TRAPPED or ORPHANED task makes of its operations in flight is log 26. -/
def Obligations.TaskEndFrees : Prop :=
  ∀ (s : State) (c : CoreId) (t : Task) (how : TaskEnd), (s.core c).task = some t →
    let u := s.endTask c how
    (u.core c).task = none ∧ (u.core c).drained = true ∧ (u.core c).ltoc = [] ∧ (u.core c).ctol = [] ∧
    (u.core c).ctos = [] ∧ (u.core c).stoc = [] ∧ (∀ n, (u.core c).sem n = 0) ∧ (u.core c).faults = [] ∧
    (∀ w ∈ u.windows, w.core ≠ c) ∧ (∀ r, (u.core c).ctl.reg r = (s.core c).ctl.reg r) ∧
    (∀ d, d ≠ c → (u.core d).task = (s.core d).task) ∧
    ((∀ w ∈ s.windows, w.core ≠ c) → ∀ sp off, (u.core c).bufByte sp off = (s.core c).bufByte sp off) ∧
    (∀ l, s.slot t.slot = some l → ∃ m, u.slot t.slot = some m ∧
      (how = .exited → m.exited = l.exited + 1 ∧ m.traps = l.traps ∧ m.orphans = l.orphans) ∧
      (∀ x v st, how = .trapped x v st → m.traps = l.traps + 1 ∧ m.exited = l.exited ∧ m.orphans = l.orphans) ∧
      (how = .orphaned → m.orphans = l.orphans + 1 ∧ m.exited = l.exited ∧ m.traps = l.traps))

/-- R4, R13, R39, R140, R141, R153. -/
def Obligations.ControlRegisters : Prop :=
  ∀ (s : State) (d a : BitVec 5) (csr : BitVec 12),
    let v := s.sreg a
    let k := (s.here).ctl
    let wr (f : Ctl → Ctl) : Out := .next ((s.onCtl f).retire)
    let rd (m : BitVec 12) (x : DWord) : Prop := exec (.csrd d m) s = .next (s.setSreg d x).retire
    let n := csr.toNat
    (0x800 ≤ n → exec (.csrd d csr) s = .next (s.ctlTrap .priv (BitVec.ofNat 64 n)) ∧
      exec (.cswr a csr) s = .next (s.ctlTrap .priv (BitVec.ofNat 64 n))) ∧
    ((0x048 ≤ n ∧ n < 0x800) ∨ (0x002 ≤ n ∧ n ≤ 0x00F) ∨ (0x029 ≤ n ∧ n ≤ 0x02F) ∨ (0x035 ≤ n ∧ n ≤ 0x03F) →
      exec (.csrd d csr) s = .next (s.ctlTrap .illegalInstr s.ctlWord) ∧
      exec (.cswr a csr) s = .next (s.ctlTrap .illegalInstr s.ctlWord)) ∧
    rd 0x000 (BitVec.ofNat 64 (k.cycleSaved + (s.clock - k.cycleBase))) ∧
    rd 0x001 (BitVec.ofNat 64 ((s.here).theTask.taskid.toNat + 2 ^ 32 * (s.here).theTask.slot.toNat)) ∧
    (∀ i : Fin 8, rd (0x010 + BitVec.ofNat 12 i.val) ((k.lvl[i]).setWidth 64) ∧
      rd (0x018 + BitVec.ofNat 12 i.val) ((k.ext[i]).setWidth 64) ∧ rd (0x040 + BitVec.ofNat 12 i.val) s.caps[i]) ∧
    rd 0x020 (k.hcur.setWidth 64) ∧ rd 0x021 (k.accn.setWidth 64) ∧ rd 0x022 (k.jsel.setWidth 64) ∧
    rd 0x023 (k.qtag.setWidth 64) ∧ rd 0x024 (s.here).qstat ∧ rd 0x025 (s.devid.setWidth 64) ∧
    rd 0x026 (BitVec.ofNat 64 (s.actCore.toNat + 2 ^ 8 * (s.actCore.toNat / 32) + 2 ^ 10 * (s.actCore.toNat % 32 / 4))) ∧
    rd 0x027 (k.fpstat.setWidth 64) ∧ rd 0x028 (if k.dz then 1 else 0) ∧ rd 0x030 (k.tcause.setWidth 64) ∧
    rd 0x031 (k.tpc.setWidth 64) ∧ rd 0x032 k.tval ∧
    (∃ x : DWord, rd 0x033 x ∧ x.extractLsb' 0 2 = k.tstat.eng ∧ x.getLsbD 2 = k.tstat.inh ∧
      x.extractLsb' 4 15 = k.tstat.waddr ∧ x.extractLsb' 19 8 = k.tstat.frag ∧ x.extractLsb' 27 16 = k.tstat.tag ∧
      x.extractLsb' 43 8 = k.tstat.hyp ∧ x.getLsbD 3 = false ∧ x.toNat < 2 ^ 51) ∧
    (∃ x : DWord, rd 0x034 x ∧ x.extractLsb' 0 14 = k.tvecPc ∧ x.getLsbD 63 = k.tvecEn ∧ x.toNat % 2 ^ 63 < 2 ^ 14) ∧
    (∀ e : Engine, let i := e.code
      let q := (s.here).qstat
      (q.extractLsb' (16 * i) 16).toNat = min 0xFFFF (((s.here).eng e).queue.length + ((s.here).eng e).ring.length) ∧
        q.getLsbD (48 + i) = ((s.here).eng e).abandoned ∧ q.getLsbD (52 + i) = ((s.here).eng e).poison ∧
        q.getLsbD (55 + i) = !(s.here).idle e) ∧
    exec (.cswr a 0x021) s = wr (fun k => { k with accn := v.setWidth 32 }) ∧
    exec (.cswr a 0x022) s = wr (fun k => { k with jsel := v.setWidth 8 }) ∧
    exec (.cswr a 0x023) s = wr (fun k => { k with qtag := v.setWidth 16 }) ∧
    exec (.cswr a 0x027) s = wr (fun k => { k with fpstat := k.fpstat &&& ~~~(v.setWidth 10) }) ∧
    exec (.cswr a 0x028) s = wr (fun k => { k with dz := k.dz && !v.getLsbD 0 }) ∧
    exec (.cswr a 0x030) s = wr (fun k => { k with tcause := v.setWidth 8 }) ∧
    exec (.cswr a 0x031) s = wr (fun k => { k with tpc := v.setWidth 14 }) ∧
    exec (.cswr a 0x032) s = wr (fun k => { k with tval := v }) ∧
    exec (.cswr a 0x033) s = wr (fun k =>
      { k with tstat := { eng := v.extractLsb' 0 2, inh := k.tstat.inh, waddr := v.extractLsb' 4 15,
                          frag := v.extractLsb' 19 8, tag := v.extractLsb' 27 16, hyp := v.extractLsb' 43 8 } }) ∧
    exec (.cswr a 0x034) s = wr (fun k => { k with tvecPc := v.setWidth 14, tvecEn := v.getLsbD 63 }) ∧
    (∃ t, exec (.cswr a 0x024) s = .next t.retire ∧ exec (.qstatrd d) s = .next ((s.onHere (fun k =>
        k.clearQstat (s.here).qstat)).setSreg d (s.here).qstat).retire ∧ t = s.onHere (fun k => k.clearQstat v)) ∧
    (∀ (r : Core) (m : DWord) (e : Engine), (r.clearQstat m).eng e = { r.eng e with
      abandoned := (r.eng e).abandoned && !m.getLsbD (48 + e.code), poison := (r.eng e).poison && !m.getLsbD (52 + e.code) }) ∧
    (n ∈ [0x000, 0x001, 0x020, 0x025, 0x026] ∨ (0x010 ≤ n ∧ n < 0x020) ∨ (0x040 ≤ n ∧ n < 0x048) →
      exec (.cswr a csr) s = wr id)

/-- R160, for every trap of the machine. A link failure's fault names no engine and abandons every engine's command
(R314). -/
def Obligations.TrapEntryState : Prop :=
  (∀ (s : State) (c : CoreId) (cause : Cause) (v : DWord) (src : TStat) (resume : Nat),
    let k := (s.core c).ctl
    s.takeTrap c cause v src resume =
      if k.tvecEn = true ∧ k.tstat.inh = false then
        s.onCore c (fun r => { r with ctl :=
          { k with tcause := cause.code, tval := v, tstat := { src with inh := true }, tpc := BitVec.ofNat 14 resume,
                   savedLoops := k.loops, loops := [], pc := k.tvecPc.toNat, wait := .none } })
      else s.endTask c (.trapped cause.code v ({ src with inh := k.tstat.inh }).pack)) ∧
  (∀ (s : State) (c : CoreId) (f : EngFault) (fs : List EngFault),
    (s.core c).faults = f :: fs → (s.core c).ctl.tstat.inh = false → (s.core c).ctl.wait.interruptible = true →
    (s.core c).stopped = false →
    exec (.trapEntry c) s =
      .next (
        let u := s.onCore c (fun k => { k with faults := fs }.abandonFor f)
        let w := if (u.core c).ctl.wait = .qcancel then
            u.onCore c (fun r => r.onCtl (fun k => { k with qcancelAt := some k.pc })) else u
        w.takeTrap c f.cause f.tval (srcStat (some f)) (u.core c).ctl.pc)) ∧
    (∀ (k : Core) (f : EngFault) (e : Engine), f.eng = some e →
      ((k.abandonFor f).eng e).stopped = true ∧
      (∀ r, (k.eng e).cur = some r → r.serial = f.serial →
        ((k.abandonFor f).eng e).cur = none ∧ ((k.abandonFor f).eng e).abandoned = true) ∧
      (∀ r, (k.eng e).cur = some r → r.serial ≠ f.serial → ((k.abandonFor f).eng e).cur = some r) ∧
      srcStat (some f) = { eng := BitVec.ofNat 2 e.seqr.code, inh := false, waddr := BitVec.ofNat 15 f.waddr, frag := f.frag,
                           tag := f.tag, hyp := f.hyp })

/-- R161; that TRAP and BRK resume at the next word is R160's. -/
def Obligations.TrapInstructions : Prop :=
  ∀ (s : State) (a : BitVec 5),
    let nxt := (s.retire.here).ctl.pc
    exec (.trap a) s = .next (s.retire.takeTrap s.actCore .soft (s.sreg a) { } nxt) ∧
    exec .brk s = .next (s.retire.takeTrap s.actCore .brk 0 { } nxt) ∧
    ((s.here).ctl.tstat.inh = false → exec .rett s = .next (s.ctlTrap .illegalInstr s.ctlWord)) ∧
    ((s.here).ctl.tstat.inh = true → ∃ t, exec .rett s = .next t ∧ (t.here).ctl.pc = (s.here).ctl.tpc.toNat ∧
      (t.here).ctl.loops = (s.here).ctl.savedLoops ∧ (t.here).ctl.tstat = { (s.here).ctl.tstat with inh := false } ∧
      (∀ e, ((t.here).eng e).stopped = false ∧ ((t.here).eng e).queue = ((s.here).eng e).queue) ∧
      (∀ r, t.sreg r = s.sreg r) ∧ (∀ pa, t.phys pa = s.phys pa) ∧ (∀ d, d ≠ s.actCore → t.core d = s.core d))

/-- R162. -/
def Obligations.WfeWaits : Prop :=
  (∀ (s : State) (c : CoreId) (n : Nat), (s.core c).stopped = false →
    let done := s.onCore c (fun k => { k with ctl := { k.ctl with
      pc := (nextWord k.ctl.pc k.ctl.loops).1, loops := (nextWord k.ctl.pc k.ctl.loops).2, wait := .none } })
    exec .wfe s = .next (s.onCtl (fun k => { k with wait := .wfe s.clock, woken := false })) ∧
    ((s.core c).ctl.wait = .wfe n → (s.core c).ctl.woken = true → exec (.wfeWake c) s = .next done) ∧
    ((s.core c).ctl.wait = .wfe n → (s.core c).ctl.woken = false → exec (.wfeWake c) s = .next s) ∧
    ((s.core c).ctl.wait = .wfe n → n + 65536 ≤ s.clock → exec (.wfeTimeout c) s = .next done) ∧
    ((s.core c).ctl.wait = .wfe n → s.clock < n + 65536 → exec (.wfeTimeout c) s = .next s)) ∧
    (∀ (k : Core) (n : BitVec 4) (v : Word), (k.setSem n v).ctl.woken = true) ∧
    (∀ (k : Core) (e : Engine), (k.retireCmd e).ctl.woken = true) ∧
    (∀ (k : Core) (f : EngFault), (k.post f).ctl.woken = true) ∧
    (∀ (s : State) (dev : Option Nat) (pa : Nat) (v : DWord) (c : CoreId), ((s.wakeEvent dev pa v).core c).ctl.woken =
      ((s.core c).ctl.woken || decide ((s.core c).ctl.lastEvent = some (dev, pa)))) ∧
    (∀ (s : State) (dev : Option Nat) (pa : Nat) (v : DWord) (x : BitVec 8) (l : Launch), s.slot x = some l →
      ∃ m, (s.wakeEvent dev pa v).slot x = some m ∧ m.susp.map (fun u => u.core.ctl.woken) =
        l.susp.map (fun u => u.core.ctl.woken || decide (u.core.ctl.lastEvent = some (dev, pa)))) ∧
    (∀ (s : State) (c : CoreId) (t : Task) (l : Launch), (s.core c).task = some t → s.slot t.slot = some l →
      ∃ m u, (s.suspend c false).slot t.slot = some m ∧ m.susp = l.susp ++ [u] ∧ u.core.ctl.woken = true)

/-- R27, R66, R154, R170, R212, R277, R327. That a SEMADD which waits for earlier steps leaves its tokens untouched
until it issues is the model's reading (log 45). -/
def Obligations.Semaphores : Prop :=
  (∀ (s : State) (a : BitVec 5) (b : BitVec 4) (t : Tok) (v16 : BitVec 16) (v8 : BitVec 8) (r : BitVec 4),
    let sum (d : Int) : Int := ((s.here).sem b).toNat + d
    let out (d : Int) : Prop := sum d < 0 ∨ 2 ^ 32 ≤ sum d
    let u := s.taken t
    let e := s.actEng
    let waits (q : Sequencer) (v : DWord) : Out := .next (u.onHere (fun k => k.setWait q (.sem b v)))
    (∀ n : Word, (n.toNat : Int) = sum (s.sreg a).toInt →
      exec (.semadd a b) s = .next (s.onHere (fun k => k.setSem b n)).retire) ∧
    (out (s.sreg a).toInt → exec (.semadd a b) s = .next (s.ctlTrap .semOverflow (s.sreg a))) ∧
    (exec (.semwait a b) s = if (s.sreg a).toNat ≤ ((s.here).sem b).toNat then .next s.retire
      else .next (s.onHere (fun k => k.setWait .ctl (.sem b (s.sreg a))))) ∧
    (s.takes t → exec (.xferSemwait t b (.imm v8)) s =
      if v8.toNat ≤ ((s.here).sem b).toNat then .next (u.onHere (fun k => k.engRetire e t)) else waits e.seqr (v8.setWidth 64)) ∧
    (s.takes t → exec (.xferSemwait t b (.a r)) s =
      if (s.areg r).toNat ≤ ((s.here).sem b).toNat then .next (u.onHere (fun k => k.engRetire e t)) else waits e.seqr (s.areg r)) ∧
    (s.takes t → ((s.here).xfer s.actSts).settled = true → ∀ n : Word, (n.toNat : Int) = sum v8.toInt →
      exec (.xferSemadd t b (.imm v8)) s = .next (s.past (u.onHere (fun k => k.setSem b n)) t)) ∧
    (s.takes t → ((s.here).xfer s.actSts).settled = true → ∀ n : Word, (n.toNat : Int) = sum (s.areg r).toInt →
      exec (.xferSemadd t b (.a r)) s = .next (s.past (u.onHere (fun k => k.setSem b n)) t)) ∧
    (s.takes t → ((s.here).xfer s.actSts).settled = false → ∀ arg, exec (.xferSemadd t b arg) s =
      .next (s.onHere (fun k => k.setWait e.seqr .deferred))) ∧
    (s.takes t → ((s.here).xfer s.actSts).settled = true → out (s.areg r).toInt →
      exec (.xferSemadd t b (.a r)) s = .next (s.engFault .semOverflow (s.areg r))) ∧
    (s.takes t → out (s.kreg r).toInt → exec (.cmpSemadd t b (.k r)) s = .next (s.engFault .semOverflow (s.kreg r))) ∧
    (s.takes t → exec (.cmpSemwait t b (.imm v16)) s =
      if v16.toNat ≤ ((s.here).sem b).toNat then .next (u.onHere (fun k => k.engRetire .cmp t)) else waits .cmp (v16.setWidth 64)) ∧
    (s.takes t → exec (.cmpSemwait t b (.k r)) s =
      if (s.kreg r).toNat ≤ ((s.here).sem b).toNat then .next (u.onHere (fun k => k.engRetire .cmp t)) else waits .cmp (s.kreg r)) ∧
    (s.takes t → ∀ n : Word, (n.toNat : Int) = sum v16.toInt →
      exec (.cmpSemadd t b (.imm v16)) s = .next (s.past (u.onHere (fun k => k.setSem b n)) t)) ∧
    (s.takes t → ∀ n : Word, (n.toNat : Int) = sum (s.kreg r).toInt →
      exec (.cmpSemadd t b (.k r)) s = .next (s.past (u.onHere (fun k => k.setSem b n)) t))) ∧
    (∀ (k : Core) (n : BitVec 4) (v : Word),
      (∀ m, (k.setSem n v).sem m = if m = n then v else k.sem m) ∧
      (∀ q t, k.wait q = .sem n t → t.toNat ≤ v.toNat → (k.setSem n v).wait q = .semMet) ∧
      (∀ q m t, k.wait q = .sem m t → m ≠ n ∨ v.toNat < t.toNat → (k.setSem n v).wait q = .sem m t) ∧
      (∀ q, k.wait q = .semMet → (k.setSem n v).wait q = .semMet)) ∧
    (∀ (s : State) (c : CoreId) (q : Sequencer), (s.core c).wait q = .semMet → s.seqGoes c q = true →
      exec (.semwaitSatisfied c q) s =
        .next (match q with
          | .ctl => { s with actCore := c, actSeq := .ctl }.retireWait
          | .lds => s.onCore c (fun k => k.engRetire .lds (k.eng .lds).tok)
          | .cmp => s.onCore c (fun k => k.engRetire .cmp (k.eng .cmp).tok)
          | .sts => s.onCore c (fun k => k.engRetire .sts (k.eng .sts).tok))) ∧
    (∀ (s : State) (c : CoreId) (e : Engine), s.seqGoes c .ctl = !(s.core c).stopped ∧
      s.seqGoes c e.seqr = (!s.halts c && !(s.core c).hold &&
        !(((s.core c).eng e).hyp != 0 && (s.ctx (s.core c).theTask.ctx).isRefuted ((s.core c).eng e).hyp)))

/-- R155, R299, R314. What another device answers is log 36; that a delivery waits for held clocks or a seal is log
35. R155 and R312 name LINK_DOWN for RFLAG only: that MFLAG over a failed link traps it too, with the lowest
unreachable die as TVAL, is the model's reading (log 34). -/
def Obligations.RemoteFlags : Prop :=
  (∀ (s : State) (d a : BitVec 5) (b : BitVec 4),
    let w := s.sreg d
    let dev : BitVec 9 := w.extractLsb' 16 9
    let tgt : CoreId := w.setWidth 7
    let k := (s.here).theTask
    let age : Nat := match s.slot k.slot with
      | some l => l.age
      | none => 0
    let tgts := s.mflagTargets (s.sreg a) (s.sreg (a + 1))
    let far : Bool := if dev = s.devid then s.linkUp (dieOf s.actCore) (dieOf tgt) else s.devReached (dieOf s.actCore) dev.toNat
    (w &&& 0xFFFFFFFFFE00FF80 ≠ 0 → exec (.rflag d a b) s = .next (s.ctlTrap .reservedField s.ctlWord)) ∧
    (w &&& 0xFFFFFFFFFE00FF80 = 0 → far = true →
      exec (.rflag d a b) s =
        .next ({ s with msgs := s.msgs ++ [FlagMsg.rflag s.actCore k.uid k.slot age dev tgt b (s.sreg a)] }.onHere
          (fun k => k.setWait .ctl .message))) ∧
    (w &&& 0xFFFFFFFFFE00FF80 = 0 → far = false → exec (.rflag d a b) s = .next (s.ctlTrap .linkDown w)) ∧
    (∀ c : CoreId, c ∈ tgts ↔ s.present c = true ∧
      (if c.toNat < 64 then (s.sreg a).getLsbD c.toNat else (s.sreg (a + 1)).getLsbD (c.toNat - 64)) = true) ∧
    (tgts = [] → exec (.mflag d a b) s = .next s.retire) ∧
    (tgts ≠ [] → (∀ t ∈ tgts, s.linkUp (dieOf s.actCore) (dieOf t) = true) →
      exec (.mflag d a b) s =
        .next ({ s with msgs := s.msgs ++ [FlagMsg.mflag s.actCore k.uid k.slot age tgts b ((s.sreg d).setWidth 32)] }.onHere
          (fun k => k.setWait .ctl .message))) ∧
    (∀ t, tgts.find? (fun t => !s.linkUp (dieOf s.actCore) (dieOf t)) = some t →
      exec (.mflag d a b) s = .next (s.ctlTrap .linkDown (BitVec.ofNat 64 (dieOf t))))) ∧
    (∀ (s : State) (c t : CoreId) (uid age : Nat) (x : BitVec 8) (dev : BitVec 9) (b : BitVec 4) (v : DWord)
        (before after : List FlagMsg), s.msgs = before ++ FlagMsg.rflag c uid x age dev t b v :: after →
      (∀ m ∈ before, m.isRflag c = false) → (s.core c).stopped = false →
      let u : State := { s with msgs := before ++ after }
      let ends (o : State) : State := if s.awaits c uid = true then { o with actCore := c, actSeq := .ctl }.retireWait else o
      let refuse (cause : Cause) (y : DWord) : State :=
        if s.awaits c uid = true then { u with actCore := c, actSeq := .ctl }.ctlTrap cause y else u
      let target : DWord := BitVec.ofNat 64 (t.toNat + 2 ^ 16 * dev.toNat)
      (dev = s.devid → s.flagWaits x age t = false →
        (∀ l id r, s.slot x = some l → l.age = age → l.lastTask t = some id → s.taskCore x id = some r →
          (∀ n : Word, (n.toNat : Int) = (r.sem b).toNat + v.toInt →
            (u.onTask x id (fun _ => r.setSem b n)).awaits c uid = s.awaits c uid →
            exec (.rflagDelivery c) s = .next (ends (u.onTask x id (fun _ => r.setSem b n)))) ∧
          ((r.sem b).toNat + v.toInt < 0 ∨ 2 ^ 32 ≤ (r.sem b).toNat + v.toInt →
            exec (.rflagDelivery c) s = .next (refuse .semOverflow v))) ∧
        ((∀ l id r, s.slot x = some l → l.age = age → l.lastTask t = some id → s.taskCore x id ≠ some r) →
          exec (.rflagDelivery c) s = .next (refuse .reservedField target))) ∧
      (dev ≠ s.devid → ∃ o : Option Cause, exec (.rflagDelivery c) s = .next (match o with
        | none => ends { u with freeCtr := s.freeCtr + 1 }
        | some .semOverflow => refuse .semOverflow v
        | some cause => refuse cause target))) ∧
    (∀ (s : State) (c t : CoreId) (uid age : Nat) (x : BitVec 8) (b : BitVec 4) (v : Word) (tgts : List CoreId)
        (before after : List FlagMsg), s.msgs = before ++ FlagMsg.mflag c uid x age tgts b v :: after →
      t ∈ tgts → (∀ m ∈ before, m.isMflag c t = false) → (s.core c).stopped = false → s.flagWaits x age t = false →
      let rest := tgts.filter (fun y => y != t)
      let u : State := { s with msgs := before ++ (if rest = [] then [] else [FlagMsg.mflag c uid x age rest b v]) ++ after }
      let w : State := match ((s.slot x).bind (fun l => if l.age = age then l.lastTask t else none)).bind (fun id => (s.taskCore x id).map (fun r => (id, r))) with
        | some (id, r) => u.onTask x id (fun _ => r.setSem b v)
        | none => u
      (rest ≠ [] → exec (.mflagDelivery c t) s = .next w) ∧
      (rest = [] → s.awaits c uid = true →
        exec (.mflagDelivery c t) s = .next ({ w with actCore := c, actSeq := .ctl }.retireWait)) ∧
      (rest = [] → s.awaits c uid = false → exec (.mflagDelivery c t) s = .next w))

/-- R36, R156, R162. A record that can no longer be read stays in the queue, and a task in WAITEV counts as blocked
only on a core (log 12). -/
def Obligations.EventsAndSpawn : Prop :=
  (∀ (s : State) (a b : BitVec 5),
    let va := s.sreg a
    let who := s.ctlWho
    let now : Who := { s.ctlWho with late := false }
    let named (l : Leaf) : State := s.onCtl (fun k => { k with lastEvent := some (l.dev, l.pa) })
    (∀ l, (s.here).ctl.hcur = 0 → va.toNat % 8 = 0 → s.access who .atomic va.toNat 8 = .ok l → l.mside = true → l.dev = none →
      l.pa < hbmEnd → exec (.sigev a b) s = .next ((named l).sendTermite who l va (.event (s.sreg b)))) ∧
    (∀ l, (s.here).ctl.hcur = 0 → va.toNat % 8 = 0 → s.access who .atomic va.toNat 8 = .ok l →
      l.mside = false ∨ l.dev ≠ none ∨ hbmEnd ≤ l.pa →
      let v : DWord := BitVec.ofNat 64 (leNat ((named l).readLeaf now l va.toNat 8)) + s.sreg b
      exec (.sigev a b) s =
        .next ((((named l).writeLeaf now l va.toNat (leBytes 8 v.toNat)).wakeEvent l.dev l.pa v).dropAhead.fillTlb now va.toNat).retire) ∧
    (∀ l, va.toNat % 8 = 0 → s.access who .load va.toNat 8 = .ok l →
      exec (.waitev a b) s =
        (let t := (named l).dropAhead.fillTlb who va.toNat
        if (s.sreg b).toNat ≤ leNat (s.readSeen who l va.toNat 8) then .next t.retireWait
        else .next (t.onHere (fun k => k.setWait .ctl (.event va (s.sreg b)))))) ∧
    (∀ l, s.peeks = [] → s.posted = [] → s.readSeen who l va.toNat 8 = s.readLeaf who l va.toNat 8) ∧
    (∀ (c : CoreId) (ev tgt : DWord) (l : Leaf),
      let u : State := { s with actCore := c, actSeq := .ctl }
      (s.core c).ctl.wait = .event ev tgt → (s.core c).stopped = false → u.access u.ctlWho .load ev.toNat 8 = .ok l →
      tgt.toNat ≤ leNat (u.readSeen u.ctlWho l ev.toNat 8) →
      exec (.waitevSatisfied c) s =
        .next (((u.onCtl (fun k => { k with lastEvent := some (l.dev, l.pa) })).dropAhead.fillTlb u.ctlWho ev.toNat).retireWait)) ∧
    (∀ (c : CoreId) (dev : Option Nat) (pa : Nat) (ev tgt v : DWord), (s.core c).ctl.wait = .event ev tgt →
      ((s.wakeEvent dev pa v).core c).ctl.wait =
        if (s.core c).ctl.lastEvent = some (dev, pa) ∧ tgt.toNat ≤ v.toNat then .eventMet else .event ev tgt) ∧
    (∀ c : CoreId, (s.core c).ctl.wait = .eventMet → (s.core c).stopped = false →
      exec (.waitevSatisfied c) s = .next ({ s with actCore := c, actSeq := .ctl } : State).retireWait) ∧
    (∀ (r : List Byte) (u : State), va.toNat % 64 = 0 → s.load who .load va.toNat 256 = .ok (r, u) →
      let t := (u.here).theTask
      let waiting := u.spilledOf t.slot
      let at_ : DWord := t.spill + BitVec.ofNat 64 (u.spqTail t.slot % 2 ^ t.spqLog * 256)
      (u.poolHasOpen = true → waiting = [] → exec (.spawn a) s = .next ({ u with pool := u.pool ++
        [{ record := r, ctx := t.ctx, slot := t.slot, taskid := t.taskid, reserved := false }] } : State).retire) ∧
      (∀ l w, u.poolHasOpen = false ∨ waiting ≠ [] → t.spqLog ≠ 0 → waiting.length < 2 ^ t.spqLog → u.slot t.slot = some l →
        u.store (u.whoOf u.actCore 0) at_.toNat r = .ok w → exec (.spawn a) s = .next (w.spill t at_).retire) ∧
      (u.poolHasOpen = false ∨ waiting ≠ [] → t.spqLog = 0 ∨ 2 ^ t.spqLog ≤ waiting.length →
        exec (.spawn a) s = .next (u.ctlTrap .spawnFull va)))) ∧
    (∀ (s : State) (t : Task) (at_ : DWord) (l : Launch), s.slot t.slot = some l →
      ∃ e, (s.spill t at_).spillq = s.spillq ++ [e] ∧ e.slot = t.slot ∧ e.age = l.age ∧ e.taskid = t.taskid ∧ e.va = at_.toNat ∧
        (s.spill t at_).slot t.slot = some { l with spqTail := l.spqTail + 1 }) ∧
    (∀ (s : State) (x : BitVec 8) (e : SpillEnt) (r : List Byte) (u : State) (before after : List SpillEnt),
      s.spillq = before ++ e :: after → e.slot = x → (∀ o ∈ before, o.slot = x → o.age ≠ e.age) →
      (∀ o ∈ before, o.slot = x → (s.poolHasOpen = false ∧ s.blockedInWaitev o.uid = false) ∨
        ∃ f, s.load o.who .load o.va 256 = .error f) →
      s.poolHasOpen = true ∨ ((s.pool.filter (fun p => p.reserved)).length < 256 ∧ s.blockedInWaitev e.uid = true) →
      s.load e.who .load e.va 256 = .ok (r, u) →
      exec (.spawnSpillMove x) s = .next { u with spillq := u.spillq.erase e, pool := u.pool ++
        [{ record := r, ctx := e.who.ctx, slot := x, taskid := e.taskid, reserved := !s.poolHasOpen }] })

/-- R26, R37, R179, R256 (what a push waits for). The check and the effect are the instruction's own, stated of each
family elsewhere; what is said here is their order with the tokens, and that no effect stops its engine, so that R26's
faults of issue come from the check alone. Which of two poisoned tokens gives TVAL is log 68. -/
def Obligations.EngineTokens : Prop :=
  (∀ i : Instr, i.sect = .xfer ∨ i.sect = .cmp → ∃ t, i.tok = some t ∧
      ∃ (check : State → Issue) (effect : State → State), ∀ s : State,
        let e := s.actEng
        let fs := popFifos e t
        let there : Prop := ∀ f ∈ fs, (s.here).fifo f ≠ []
        let missing : Prop := ∃ f ∈ fs, (s.here).fifo f = []
        (missing → ((s.here).eng e).marked = false → exec i s = .next (s.onHere (fun k => k.setWait e.seqr .tokens))) ∧
        (missing → ((s.here).eng e).marked = true → exec i s = .next (s.onHere (fun k => k.abandon e))) ∧
        (∀ c v, there → check s = .fault c v → exec i s = .next (s.engFault c v)) ∧
        (∀ va ats, there → check s = .shadow va ats → exec i s = .next (
          if s.shlim = 0 then s.engFault .pageNotPresent va else s.awaitShadow e.seqr (.word e) va ats)) ∧
        (∀ w va, there → check s = .tag w va → exec i s = .next ((s.tagError w).engFault .eccUncorr va)) ∧
        (∀ w, there → check s = .hold w → exec i s = .next (s.onHere (fun k => k.setWait e.seqr w))) ∧
        (∀ f, there → check s = .go → fs.find? (fun f => ((s.here).fifo f).head? == some true) = some f →
          exec i s = .next ((s.taken t).engFault .depPoison (BitVec.ofNat 64 f.code))) ∧
        (there → check s = .go → (∀ f ∈ fs, ((s.here).fifo f).head? ≠ some true) → exec i s = .next (effect (s.taken t)) ∧
          (((s.here).eng e).halted = false → (((effect (s.taken t)).core s.actCore).eng e).halted = false))) ∧
    (∀ t : Tok, popFifos .lds t = (if t.wn then [.ctol] else []) ∧ popFifos .sts t = (if t.wp then [.ctos] else []) ∧
      popFifos .cmp t = (if t.wp then [Fifo.ltoc] else []) ++ (if t.wn then [Fifo.stoc] else [])) ∧
    (∀ (s : State) (t : Tok) (f : Fifo), ((s.taken t).here).fifo f =
      if f ∈ popFifos s.actEng t then ((s.here).fifo f).drop 1 else (s.here).fifo f) ∧
    (∀ (s : State) (c : CoreId) (e : Engine), ((s.core c).eng e).wait = .tokens → s.engGoes c e = true →
      let fs := wordPops e (Cells.read 0 ((s.core c).imem e.seqr) ((s.core c).eng e).pc)
      ((∀ f ∈ fs, (s.core c).fifo f ≠ []) →
        exec (.tokenWaitIssue c e) s = .next (s.onCore c (fun k => k.setWait e.seqr .none))) ∧
      ((∃ f ∈ fs, (s.core c).fifo f = []) → exec (.tokenWaitIssue c e) s = .next s)) ∧
    (∀ w : Word, wordPops .lds w = (if w.getLsbD 25 then [.ctol] else []) ∧
      wordPops .sts w = (if w.getLsbD 26 then [.ctos] else []) ∧
      wordPops .cmp w = (if w.getLsbD 29 then [Fifo.ltoc] else []) ++ (if w.getLsbD 28 then [Fifo.stoc] else [])) ∧
    (∀ (s : State) (c : CoreId) (e : Engine), exec (.tokenPushDelayed c e) s = .next (s.onCore c (fun k => k.drainPushes e))) ∧
    (∀ (k : Core) (e : Engine) (p : PushEnt), (k.eng e).pushq = [p] →
      (p.ready = true → p.after = [] → (k.fifo (pushFifo e p.toNext)).length < 8 →
        (k.drainPushes e).fifo (pushFifo e p.toNext) = k.fifo (pushFifo e p.toNext) ++ [p.poison] ∧
          ((k.drainPushes e).eng e).pushq = []) ∧
      (p.ready = false ∨ p.after ≠ [] ∨ 8 ≤ (k.fifo (pushFifo e p.toNext)).length →
        ((k.drainPushes e).eng e).pushq = [p] ∧ ∀ f, (k.drainPushes e).fifo f = k.fifo f))

/-- R23, R59, R167 to R172, R177. -/
def Obligations.TransferScalars : Prop :=
  ∀ (s : State) (t : Tok) (x y z : BitVec 4) (w : BitVec 3) (i18 : BitVec 18) (i8 : BitVec 8), s.takes t →
    let u := s.taken t
    let e := s.actEng
    let g := (s.here).eng e
    exec (.aadd t x y z) s = .next (s.past (u.setAreg x (u.areg y + u.areg z)) t) ∧
    exec (.ali t x i18) s = .next (s.past (u.setAreg x (BitVec.ofInt 64 i18.toInt)) t) ∧
    exec (.amov t x y) s = .next (s.past (u.setAreg x (u.areg y)) t) ∧
    exec (.xferNop t) s = .next (s.past u t) ∧
    (∀ bs, boxldRead (s.areg y) s = .ok bs → boxldRead (u.areg y) u = .ok bs →
      exec (.boxld t w y) s =
        .next (s.past (u.onHere (fun k => k.onXfer s.actSts (fun r =>
          { r with bx := r.bx.set w.toNat (BitVec.ofNat 1024 (leNat bs)) w.isLt }))) t)) ∧
    (exec (.loopt t x i8) s =
      if 8191 < g.pc + i8.toNat ∨ 4 ≤ g.loops.length ∨ (∃ top ∈ g.loops.head?, top.last < g.pc + i8.toNat) then
        .next (s.engFault .illegalInstr s.engWordBits)
      else .next (u.onHere (fun k => k.startLoop e t i8.toNat (u.areg x).toNat))) ∧
    exec (.xferEnd t) s =
      .next (u.onHere (fun k =>
        let k := (k.owe e t .retire 0 true).drainPushes e
        match (k.eng e).cur with
        | none => k
        | some r => if r.iter + 1 < r.cmd.count.toNat then k.beginIter e r.cmd.frag (r.iter + 1) else k.retireCmd e)) ∧
    (((s.here).xfer s.actSts).settled = true →
      exec (.tuse t x) s = .next (s.past ((u.useTlt u.myCtx (u.areg x).toNat).1) t))

/-- R190, R209, R210 (its scalars), R213 to R215, R220, R221, R229, R241. -/
def Obligations.CmpScalars : Prop :=
  ∀ (s : State) (t : Tok) (d a k : BitVec 4) (v : BitVec 5) (set : BitVec 2) (i13 : BitVec 13) (i17 : BitVec 17) (ty : EType)
      (rm : RMode) (sat : Bool) (g : BitVec 3) (sel : SmodSel) (sp : Space), s.takes t →
    let u := s.taken t
    let q := s.past
    let c := (s.here).cmp.eng
    let kv := (s.kreg k).toNat
    let counts := u.setVreg v (BitVec.ofNat 2048 (ofDigits 32 ((u.here).cmp.hist[set.toNat]'(set.isLt)).words))
    exec (.kadd t d a i13) s = .next (q (u.setKreg d (u.kreg a + BitVec.ofInt 64 i13.toInt)) t) ∧
    exec (.kli t d i17) s = .next (q (u.setKreg d (BitVec.ofInt 64 i17.toInt)) t) ∧
    exec (.kmov t d a) s = .next (q (u.setKreg d (u.kreg a)) t) ∧
    exec (.cmpNop t) s = .next (q u t) ∧
    exec (.cmpEnd t) s = .next (u.onHere (fun r => ((r.owe .cmp t .retire 0 true).drainPushes .cmp).endIter .cmp)) ∧
    (kv / 2 ^ 10 % 2 ^ 6 = 0 → kv < 2 ^ 32 → kv % 2 ^ 10 ≤ lanesOf ty →
      exec (.shape t ty rm sat g k) s =
        .next (q (u.onHere (fun r => r.onCmp (fun x => { x with shape :=
          { ty := ty, vl := (u.kreg k).setWidth 10, glog := g, rm := rm, sat := sat,
            rows := (u.kreg k).extractLsb' 16 8, cols := (u.kreg k).extractLsb' 24 8 } }))) t)) ∧
    (∀ bs, sldRead k sp s = .ok bs → sldRead k sp u = .ok bs →
      exec (.sld t d k sp) s = .next (q (u.setStreg d (BitVec.ofNat 512 (leNat bs))) t)) ∧
    exec (.smod t d sel k) s = .next (q (u.setStreg d (smodField sel (u.streg d) (u.kreg k))) t) ∧
    exec (.gstat t d a) s = .next (q (u.setKreg d (u.gstat u.myCtx a)) t) ∧
    ((∀ m ∈ (s.here).cmp.mq, m.kind = .mdrain → m.d8.getLsbD 4 = true → m.d8.extractLsb' 2 2 ≠ set) →
      exec (.histrd t v set false) s = .next (q counts t) ∧
      (let cleared : HistSet := { ctr := Vector.replicate 32 0, hmin := BitVec.ofNat 32 (laneOf (s.vreg v) .u32 32) };
      exec (.histrd t v set true) s = .next (q (counts.onHere (fun r => r.onCmp (fun x =>
        { x with hist := x.hist.set set.toNat cleared set.isLt }))) t))) ∧
    ((s.kreg k).toNat = 0 ∨ (s.kreg a).toNat + (s.kreg k).toNat ≤ bufSize sp →
      exec (.feclr t sp a k) s =
        .next (q (u.onHere (fun r => r.drain sp (granules (u.kreg a).toNat (u.kreg k).toNat))) t)) ∧
    (∀ o, granules o 0 = []) ∧
    (∀ n : Word, n.toNat = ((s.here).sem 15).toNat + 1 →
      exec (.fragsel t d a) s = .next (q (u.onHere (fun r =>
        (r.onCtl (fun x => { x with jsel := (u.kreg d).setWidth 8, accn := (u.kreg a).setWidth 32 })).setSem 15 n)) t)) ∧
    ((s.here).sem 15 = BitVec.allOnes 32 → exec (.fragsel t d a) s = .next (s.engFault .semOverflow 1)) ∧
    (s.actSeq = .cmp → c.pc + i17.toNat ≤ 32767 → c.loops.length < 4 → (∀ top ∈ c.loops.head?, c.pc + i17.toNat ≤ top.last) →
      exec (.loopk t k i17) s = .next (u.onHere (fun r => r.startLoop .cmp t i17.toNat (u.kreg k).toNat)))

/-- R195, R210 (VLI), R211. -/
def Obligations.VectorPredicates : Prop :=
  ∀ (s : State) (t : Tok), s.takes t →
    let u := s.taken t
    let ty := s.shape.ty
    let vl := s.shape.vl.toNat
    let holds (j : Nat) (f : Nat → Prop) : Prop := if ty = .k4 then f (2 * j) ∨ f (2 * j + 1) else f (j * 8 / ty.bits)
    (∀ (d : BitVec 5) (imm : BitVec 16), ∃ v, exec (.vli t d imm) s = .next (s.past (u.setVreg d v) t) ∧
      ∀ i < lanesOf ty, laneOf v ty i = if i < vl then vliLane ty imm else laneOf (s.vreg d) ty i) ∧
    (∀ (p : BitVec 3) (k : BitVec 4),
      exec (.pset t p .all) s = .next (s.past (u.setPreg p (BitVec.allOnes 256)) t) ∧
      exec (.pset t p .none) s = .next (s.past (u.setPreg p 0) t) ∧
      (∃ v : PReg, exec (.pset t p (.first k)) s = .next (s.past (u.setPreg p v) t) ∧
        ∀ j < 256, v.getLsbD j = true ↔ holds j (fun i => i < (s.kreg k).toNat ∧ i < vl)) ∧
      (∃ v : PReg, exec (.pset t p (.bits k)) s = .next (s.past (u.setPreg p v) t) ∧
        ∀ j < 256, v.getLsbD j = true ↔ holds j (fun i => i < 64 ∧ i < vl ∧ (s.kreg k).getLsbD i = true))) ∧
    (∀ (p : Pred) (d : BitVec 3) (a : BitVec 5) (b : VSrc), isNum ty = true →
      let x (i : Nat) := EType.value ty (laneOf (s.vreg a) ty i)
      let y (i : Nat) := EType.value ty (s.srcLane b ty i)
      ∀ r ∈ compareRows, ∃ v : PReg,
        exec (r.word t p d a b) s = .next (s.past ((u.setPreg d v).onHere (fun k => k.raiseV
          { nv := (s.lanesOn p).any (fun i => if r.quiet then (x i).isSig || (y i).isSig else (x i).isNan || (y i).isNan) })) t) ∧
        ∀ j < 256, v.getLsbD j =
          if j * 8 / ty.bits ∈ s.lanesOn p then
            (if (x (j * 8 / ty.bits)).isNan || (y (j * 8 / ty.bits)).isNan then r.nan
              else r.test ((x (j * 8 / ty.bits)).cmp (y (j * 8 / ty.bits))))
          else (s.preg d).getLsbD j)

/-- R191 to R194; lanes are enabled by VL and the predicate. -/
def Obligations.VectorIntegers : Prop :=
  ∀ (s : State) (t : Tok) (p : Pred) (d a : BitVec 5) (b : VSrc), s.takes t →
    let ty := s.shape.ty
    let x (i : Nat) := laneOf (s.vreg a) ty i
    let y (i : Nat) := s.srcLane b ty i
    let z (i : Nat) := laneOf (s.vreg d) ty i
    (∀ sg, EType.signed? ty = some sg →
      (∀ r ∈ intRows, WritesLanes s (exec (r.word t p d a b) s) t p d (fun i =>
        (r.f sg ty.bits (intValue sg ty.bits (x i)) (intValue sg ty.bits (y i)) (intValue sg ty.bits (z i)) % 2 ^ ty.bits).toNat)) ∧
      (∀ r ∈ shiftLaneRows, WritesLanes s (exec (r.word t p d a b) s) t p d (fun i => r.f ty.bits (x i) (y i) (z i) % 2 ^ ty.bits)) ∧
      (∀ r ∈ intRows1, WritesLanes s (exec (r.word t p d a) s) t p d (fun i => r.f sg ty.bits (x i) % 2 ^ ty.bits))) ∧
    (∀ r ∈ logicRows, WritesLanes s (exec (r.word t p d a b) s) t p d (fun i => r.f ty.bits (x i) (y i) (z i))) ∧
    (∀ r ∈ logicRows1, WritesLanes s (exec (r.word t p d a) s) t p d (fun i => r.f ty.bits (x i)))

/-- R75, R76, R101 to R103, R193, R194, R196. The numeric readings are the model's (log 19), and so are the last bits
of VEXP2 and VLOG2 (log 18). -/
def Obligations.VectorFloats : Prop :=
  ∀ (s : State) (t : Tok) (p : Pred) (d a : BitVec 5) (b : VSrc) (src : EType), s.takes t →
    let u := s.taken t
    let ty := s.shape.ty
    let rm := s.shape.rm
    let x (i : Nat) := laneOf (s.vreg a) ty i
    let y (i : Nat) := s.srcLane b ty i
    let z (i : Nat) := laneOf (s.vreg d) ty i
    (∀ f, EType.fmt? ty = some f → isFloat ty = true →
      (∀ r ∈ floatRows, WritesFloats s (exec (r.word t p d a b) s) t p d (fun i => r.f f rm (x i) (y i) (z i))) ∧
      (∀ r ∈ floatRows1, WritesFloats s (exec (r.word t p d a) s) t p d (fun i => r.f f rm (x i)))) ∧
    (isWord32 ty = true → WritesLanes s (exec (.vhash t p d a b) s) t p d (fun i =>
      (hash32 (BitVec.ofNat 32 (x i) ^^^ BitVec.ofNat 32 (y i))).toNat)) ∧
    (ty = .f32 → WritesLanes s (exec (.vunif t p d a) s) t p d (fun i => (unifF32 (BitVec.ofNat 32 (x i))).toNat)) ∧
    exec (.vcvt t p d a src) s =
      .next (let on := (u.lanesOn p).filter (fun e => decide (e < 2048 / max src.bits u.shape.ty.bits))
        let f (e : Nat) := convert (isInt src) (EType.value src (laneOf (u.vreg a) src e)) u.shape.ty u.shape.rm u.shape.sat
        s.past ((u.setVreg d (setLanes (u.vreg d) u.shape.ty (fun e => if on.contains e then some (f e).1 else none))).onHere
          (fun k => k.raiseV (orFlags (on.map (fun e => (f e).2))))) t)

/-- R71 to R74, R91, R100, R101. The sign of a nonzero value that rounds to zero, and NV for 0 times infinity beside a
quiet NaN, are the model's (log 19). -/
def Obligations.Rounding : Prop :=
  let fmts : List Fmt := [.f16, .bf16, .f32, .a64];
  (∀ f ∈ fmts, ∀ (neg : Bool) (ex frac : Nat), ex ≤ f.expOnes → frac < 2 ^ (f.p - 1) →
    (ex = 0 → (f.value (f.pattern neg ex frac)).Is neg
      ((if neg then -1 else 1) * (frac * (2 : ℝ) ^ (1 - (f.p : Int))) * (2 : ℝ) ^ f.emin)) ∧
    (0 < ex → ex < f.expOnes → (f.value (f.pattern neg ex frac)).Is neg
      ((if neg then -1 else 1) * (1 + frac * (2 : ℝ) ^ (1 - (f.p : Int))) * (2 : ℝ) ^ (ex - f.emax))) ∧
    (ex = f.expOnes → frac = 0 → f.value (f.pattern neg ex frac) = .inf neg) ∧
    (ex = f.expOnes → frac ≠ 0 → f.value (f.pattern neg ex frac) = .nan (decide (frac < 2 ^ (f.p - 2))))) ∧
  (∀ f ∈ fmts, ∀ (mode : RMode) (neg : Bool) (m : Nat) (e : Int),
    Rounds f mode neg ((if neg then -1 else 1) * m * (2 : ℝ) ^ e) (roundTo f mode (.fin neg m e)) ∧
    roundTo f mode (.fin neg 0 e) = (if neg then f.signBit else 0, { }) ∧
    roundTo f mode (.inf neg) = (f.pattern neg f.expOnes 0, { }) ∧
    ∀ sig, roundTo f mode (.nan sig) = (f.pattern false f.expOnes (2 ^ (f.p - 2)), { nv := sig })) ∧
  (∀ (mode : RMode) (ts : List XVal),
    ((∃ t ∈ ts, t.isNan = true) → exactSum mode ts = (.nan false, ts.any XVal.isSig)) ∧
    ((∀ t ∈ ts, t.isNan = false) → .inf true ∈ ts → .inf false ∈ ts → exactSum mode ts = (.nan false, true)) ∧
    (∀ n, (∀ t ∈ ts, t.isNan = false) → .inf n ∈ ts → .inf (!n) ∉ ts → exactSum mode ts = (.inf n, false)) ∧
    (∀ vs : List ℝ, List.Forall₂ (fun t v => ∃ n, t.Is n v) ts vs →
      (vs.sum ≠ 0 → (exactSum mode ts).1.Is (decide (vs.sum < 0)) vs.sum) ∧
      (vs.sum = 0 → ∃ neg, (neg = true ↔ ts ≠ [] ∧ ((∀ t ∈ ts, t.Is true 0) ∨ mode = .rd)) ∧ (exactSum mode ts).1.Is neg 0) ∧
      (exactSum mode ts).2 = false)) ∧
  (∀ (f : Fmt) (mode : RMode) (a b c : XVal), ∃ (p : XVal) (bad : Bool), a.mul b = (p, bad) ∧
    addIn f mode a b = ((roundTo f mode (exactSum mode [a, b]).1).1,
      (roundTo f mode (exactSum mode [a, b]).1).2.or { nv := (exactSum mode [a, b]).2 }) ∧
    mulIn f mode a b = ((roundTo f mode p).1, (roundTo f mode p).2.or { nv := bad }) ∧
    fmaIn f mode a b c = ((roundTo f mode (exactSum mode [p, c]).1).1,
      ((roundTo f mode (exactSum mode [p, c]).1).2.or { nv := bad }).or { nv := (exactSum mode [p, c]).2 }) ∧
    (∀ n k x y, a.Is n x → b.Is k y → p.Is (n != k) (x * y) ∧ bad = false) ∧
    (∀ n k y, (a = .inf n ∧ b.Is k y ∨ a.Is k y ∧ b = .inf n) →
      (y = 0 → p = .nan false ∧ bad = true) ∧ (y ≠ 0 → p = .inf (n != k) ∧ bad = false)) ∧
    (∀ n k, a = .inf n → b = .inf k → p = .inf (n != k) ∧ bad = false) ∧
    (a.isNan = true ∨ b.isNan = true → p = .nan false ∧ bad = (a.isSig || b.isSig))) ∧
  (∀ f ∈ fmts, ∀ (mode : RMode) (v w : Nat) (n k : Bool) (x y : ℝ), (f.value v).Is n x → (f.value w).Is k y →
    (x ≠ 0 → y ≠ 0 → Rounds f mode (n != k) (x / y) (deliver f mode ((f.value v).div (f.value w)))) ∧
    (0 < x → Rounds f mode false (Real.sqrt x) (deliver f mode (f.value v).sqrt)) ∧
    (x ≠ 0 → y = 0 → deliver f mode ((f.value v).div (f.value w)) = (f.pattern (n != k) f.expOnes 0, { dz := true })) ∧
    (x < 0 → deliver f mode (f.value v).sqrt = (f.pattern false f.expOnes (2 ^ (f.p - 2)), { nv := true })))

/-- R77 to R84. -/
def Obligations.Conversions : Prop :=
  let real (neg : Bool) (m : Nat) (e : Int) : ℝ := (if neg then -1 else 1) * m * (2 : ℝ) ^ e
  let k8 : List (Nat × Nat × Int × Nat) := [(64, 16, -1, 4), (32, 8, -5, 3), (16, 4, -9, 2), (8, 2, -13, 1), (4, 1, -17, 0), (2, 1, -19, 0)]
  let k4 : List ℝ := [0, 1 / 8, 1 / 4, 1 / 2, 1, 3 / 2, 2, 3];
  (∀ r ∈ k8, ∀ i : Nat, ∀ e : Nat, ∀ f < r.2.1, e < (if r.1 = 2 then 2 else 4) → i = r.1 + e * r.2.1 + f → ∀ neg : Bool,
    (EType.value .k8 (i + (if neg then 128 else 0))).Is neg
      ((if neg then -1 else 1) * (2 : ℝ) ^ (e + r.2.2.1) * (1 + f / (2 : ℝ) ^ r.2.2.2))) ∧
  (∀ neg : Bool, (EType.value .k8 (1 + (if neg then 128 else 0))).Is neg ((if neg then -1 else 1) * (2 : ℝ) ^ (-20 : Int))) ∧
  ((EType.value .k8 0).Is false 0 ∧ EType.value .k8 128 = .nan false ∧ EType.value .k4 8 = .nan false ∧
    EType.value .ks8 255 = .nan true) ∧
  (∀ i v, k4[i]? = some v → (EType.value .k4 i).Is false v ∧ (0 < i → (EType.value .k4 (i + 8)).Is true (-v))) ∧
  (∀ e m : Nat, m < 4 → 4 * e + m < 255 → (EType.value .ks8 (4 * e + m)).Is false ((2 : ℝ) ^ ((e : Int) - 32) * (1 + m / 4))) ∧
  (∀ t sg b, EType.signed? t = some sg → b < 2 ^ t.bits →
    EType.value t b = .ofInt (if sg = true ∧ 2 ^ (t.bits - 1) ≤ b then (b : Int) - 2 ^ t.bits else b)) ∧
  (∀ (mode : RMode) (neg sat src : Bool) (m : Nat) (e : Int),
    Krytip .k8 127 mode neg (m * (2 : ℝ) ^ e) (convert src (.fin neg m e) .k8 mode sat) ∧
    Krytip .k4 7 mode neg (m * (2 : ℝ) ^ e) (convert src (.fin neg m e) .k4 mode sat) ∧
    convert src (.inf neg) .k8 mode sat = ((if neg then 128 else 0) + 127, { of := true, nx := true }) ∧
    convert src (.inf neg) .k4 mode sat = ((if neg then 8 else 0) + 7, { of := true, nx := true }) ∧
    ∀ sig, convert src (.nan sig) .k8 mode sat = (128, { nv := sig }) ∧ convert src (.nan sig) .k4 mode sat = (8, { nv := sig })) ∧
  (∀ (t : EType) (sg : Bool) (mode : RMode) (sat neg : Bool) (m : Nat) (e : Int), EType.signed? t = some sg →
    let lo : Int := if sg then -2 ^ (t.bits - 1) else 0
    let hi : Int := if sg then 2 ^ (t.bits - 1) - 1 else 2 ^ t.bits - 1
    let x := real neg m e
    let bits (i : Int) : Nat := (i % 2 ^ t.bits).toNat
    (∃ (i : Int) (up : Bool), i = ⌊x⌋ + (if up then 1 else 0) ∧ (x = ⌊x⌋ → up = false) ∧
      (x ≠ ⌊x⌋ → match mode with
        | .rne => (x - ⌊x⌋ < 1 / 2 → up = false) ∧ (1 / 2 < x - ⌊x⌋ → up = true) ∧ (x - ⌊x⌋ = 1 / 2 → i % 2 = 0)
        | .rz => up = decide (x < 0)
        | .rd => up = false
        | .ru => up = true) ∧
      convert false (.fin neg m e) t mode sat =
        if i < lo then (bits lo, { nv := true }) else if hi < i then (bits hi, { nv := true })
        else (bits i, { nx := decide (x ≠ ⌊x⌋) })) ∧
    (∀ sig, convert false (.nan sig) t mode sat = (0, { nv := true })) ∧
    convert false (.inf neg) t mode sat = (bits (if neg then lo else hi), { nv := true }) ∧
    ∀ i : Int, convert true (.ofInt i) t mode sat = (bits (if sat then max lo (min hi i) else i), { })) ∧
  (∀ (t : EType) (f : Fmt) (mode : RMode) (src : Bool) (x : XVal), EType.fmt? t = some f →
    convert src x t mode false = roundTo f mode x ∧
    (∀ sig, x = .nan sig → convert src x t mode true = roundTo f mode x) ∧
    (∀ neg, x = .inf neg → convert src x t mode true = (f.maxBits neg, { of := true, nx := true })) ∧
    (∀ neg m e, x = .fin neg m e → ((roundTo f mode x).2.of = false → convert src x t mode true = roundTo f mode x) ∧
      ((roundTo f mode x).2.of = true → convert src x t mode true = (f.maxBits neg, (roundTo f mode x).2))))

/-- R72, R73, R100, R101. That the number rounded may differ from the true one in its 200th bit is the model's (log
18): the stated result is the rounding of the true value wherever no rounding boundary lies between the two. -/
def Obligations.Elementary : Prop :=
  ∀ f ∈ [Fmt.f16, .bf16, .f32], ∀ (mode : RMode) (v : Nat),
    let a := f.value v
    let rcp := deliver f mode ((XVal.fin false 1 0).div a)
    let rsq := deliver f mode a.rsqrt
    let exp := deliver f mode a.exp2
    let log := deliver f mode a.log2
    let nan (nv : Bool) : Nat × FFlags := (f.pattern false f.expOnes (2 ^ (f.p - 2)), { nv := nv })
    let inf (neg : Bool) (fl : FFlags) : Nat × FFlags := (f.pattern neg f.expOnes 0, fl)
    let zero (neg : Bool) : Nat × FFlags := (f.pattern neg 0 0, { });
    (∀ (n : Bool) (x : ℝ), a.Is n x →
      (x ≠ 0 → Rounds f mode n (1 / x) rcp) ∧ (x = 0 → rcp = inf n { dz := true }) ∧
      (0 < x → Rounds f mode false (1 / Real.sqrt x) rsq) ∧ (x = 0 → rsq = inf n { dz := true }) ∧ (x < 0 → rsq = nan true) ∧
      (∀ i : Int, x = i → Rounds f mode false ((2 : ℝ) ^ i) exp) ∧
      ((∀ i : Int, x ≠ i) → ∃ z : ℝ, |z - (2 : ℝ) ^ x| ≤ (2 : ℝ) ^ (-200 : Int) * (2 : ℝ) ^ x ∧ Rounds f mode false z exp) ∧
      (x = 1 → log = zero false) ∧ (x = 0 → log = inf true { dz := true }) ∧ (x < 0 → log = nan true) ∧
      (∀ i : Int, i ≠ 0 → x = (2 : ℝ) ^ i → Rounds f mode (decide (i < 0)) i log) ∧
      (0 < x → (∀ i : Int, x ≠ (2 : ℝ) ^ i) → ∃ z : ℝ,
        |z - Real.logb 2 x| ≤ (2 : ℝ) ^ (-200 : Int) * |Real.logb 2 x| ∧ Rounds f mode (decide (x < 1)) z log)) ∧
    (∀ n : Bool, a = .inf n → rcp = zero n ∧ (rsq = if n then nan true else zero false) ∧
      (exp = if n then zero false else inf false { }) ∧ (log = if n then nan true else inf false { })) ∧
    (∀ sig : Bool, a = .nan sig → rcp = nan sig ∧ rsq = nan sig ∧ exp = nan sig ∧ log = nan sig)

/-- R197, R198, R284 to R287. The numeric readings are of log 19. -/
def Obligations.VectorGroups : Prop :=
  ∀ (s : State) (t : Tok) (p : Pred) (d a : BitVec 5) (b : VSrc) (pr : BitVec 3) (r : BitVec 4), s.takes t →
    let u := s.taken t
    let ty := s.shape.ty
    let on (f : Nat → Nat × FFlags) : Out := .next (s.past (u.onLanes p d f) t)
    let x (j : Nat) := laneOf (s.vreg a) ty j
    (isNum ty = true →
      exec (.vredsum t p d a) s = on (fun i => u.sumLanes a (u.groupOn p i)) ∧
      exec (.vscan t p d a) s = on (fun i => u.sumLanes a ((u.groupOn p i).filter (fun j => decide (j ≤ i)))) ∧
      exec (.vscanx t p d a) s = on (fun i => u.sumLanes a ((u.groupOn p i).filter (fun j => decide (j < i)))) ∧
      exec (.vredmax t p d a) s = on (fun i => u.bestLane true a (u.groupOn p i)) ∧
      exec (.vredmin t p d a) s = on (fun i => u.bestLane false a (u.groupOn p i))) ∧
    (∀ i j, j ∈ u.groupOn p i ↔ j ∈ s.lanesOn p ∧ j / s.shape.group = i / s.shape.group) ∧
    (∀ ls, (isInt ty = true → u.sumLanes a ls = ((ls.map x).sum % 2 ^ ty.bits, { })) ∧
      ∀ f, EType.fmt? ty = some f → u.sumLanes a ls =
        (let e := exactSum s.shape.rm (ls.map (fun j => f.value (x j)))
        ((roundTo f s.shape.rm e.1).1, (roundTo f s.shape.rm e.1).2.or { nv := e.2 }))) ∧
    (∀ ls, ls ≠ [] → ∀ sg, EType.signed? ty = some sg → ∀ mx : Bool,
      ∃ j ∈ ls, u.bestLane mx a ls = (x j, { }) ∧ ∀ k ∈ ls,
        if mx then intValue sg ty.bits (x k) ≤ intValue sg ty.bits (x j) else intValue sg ty.bits (x j) ≤ intValue sg ty.bits (x k)) ∧
    (∀ ls f, isFloat ty = true → EType.fmt? ty = some f → (∃ j ∈ ls, (f.value (x j)).isNan = true) → ∀ mx : Bool,
      u.bestLane mx a ls = (f.qnan, { nv := ls.any (fun j => (f.value (x j)).isSig) })) ∧
    (∀ ls f, isFloat ty = true → EType.fmt? ty = some f → ls ≠ [] → (∀ j ∈ ls, (f.value (x j)).isNan = false) → ∀ mx : Bool,
      ∃ j ∈ ls, u.bestLane mx a ls = (x j, { }) ∧ ∀ k ∈ ls, (f.value (x k)).cmp (f.value (x j)) ≠ if mx then .gt else .lt) ∧
    exec (.vbcast t p d a b) s = on (fun i =>
      let j := match b with
        | .k r => (u.kreg r).toNat
        | .v r => laneOf (u.vreg r) u.shape.ty (u.shape.groupBase i)
      (laneOf (u.vreg a) u.shape.ty (u.shape.groupBase i + j % u.shape.group), { })) ∧
    (isInt ty = true →
      exec (.viota t p d) s = on (fun i =>
        ((if u.shape.cols.toNat = 0 then i else i % u.shape.cols.toNat * u.shape.rows.toNat + i / u.shape.cols.toNat)
          % 2 ^ u.shape.ty.bits, { })) ∧
      exec (.vfirst t p d pr) s = on (fun i =>
        let hit := (List.range u.shape.group).find? (fun f =>
          decide (u.shape.groupBase i + f < u.shape.vl.toNat) &&
            (u.preg pr).getLsbD (laneByte u.shape.ty (u.shape.groupBase i + f)))
        (hit.getD u.shape.group % 2 ^ u.shape.ty.bits, { }))) ∧
    (acceptCheck p (.k r) s = .go → s.predFalse p = true → exec (.vaccept t p d a (.k r)) s = .next (s.past u t)) ∧
    (acceptCheck p (.k r) s = .go → s.predFalse p = false →
      let vt := u.memBytes (s.kreg r).toNat 64
      let seed : DWord := BitVec.ofNat 64 (fieldAt vt 8 8)
      ∃ v, exec (.vaccept t p d a (.k r)) s = .next (s.past (u.setVreg d v) t) ∧ ∀ i < 64, laneOf v .u32 i =
        if i ∈ s.lanesOn p then
          (let pos : Word := BitVec.ofNat 32 (fieldAt vt 16 4 + i)
          let un (draw : Word) : Nat := (hash32 (hash32 (seed.setWidth 32 ^^^ pos) ^^^ (seed >>> 32).setWidth 32 ^^^ draw)).toNat / 2 ^ 8
          let tgt := u.recordDraws ((fieldAt vt 24 8 + i * fieldAt vt 32 4) % 2 ^ 64)
          let drf := u.recordDraws ((fieldAt vt 40 8 + i * fieldAt vt 36 4) % 2 ^ 64)
          let tok := laneOf (s.vreg a) .u32 i
          if tgt = [] then 0xFFFFFF00 + (s.here).theTask.jtEmpty.toNat
          else if fieldAt vt 0 1 = 1 then
            (if tok = refSample (un 0) tgt then tok else (2 ^ 31 + refSample (un 0) tgt) % 2 ^ 32)
          else if drf ≠ [] ∧ weightIn tgt tok ≠ 0 ∧
              un 0 * weightIn drf tok * weightSum tgt ≤ weightIn tgt tok * weightSum drf * 2 ^ 24 then tok
          else (2 ^ 31 + resample (un 1) tgt drf) % 2 ^ 32)
        else laneOf (s.vreg d) .u32 i) ∧
    (∀ (n : Nat) (y : Draw) (pre post : List Draw), let ds := pre ++ y :: post
      (weightSum ds = 0 → pre = [] → refSample n ds = y.tok) ∧
      (weightSum pre * 2 ^ 24 ≤ n * weightSum ds → n * weightSum ds < (weightSum pre + y.w) * 2 ^ 24 → refSample n ds = y.tok)) ∧
    (∀ (n : Nat) (tgt drf : List Draw),
      let ws := tgt.map (fun y => ({ tok := y.tok, w := y.w * weightSum drf - weightIn drf y.tok * weightSum tgt } : Draw))
      resample n tgt drf = if weightSum ws = 0 then refSample n tgt else (pick n (weightSum ws) 0 ws).getD 0) ∧
    (∀ (h : EType) (v : VReg) (f : Nat → Option Nat) (i : Nat), i < lanesOf h →
      laneOf (setLanes v h f) h i = ((f i).getD (laneOf v h i)) % 2 ^ h.bits)

/-- R41, R146, R192, R204, R218, R219; uncorrectable data in a typed buffer is R312's, and that a kept nibble is read
first R260's. -/
def Obligations.CheckFaults : Prop :=
  (∀ (s : State) (t : Tok) (p : Pred) (v vi : BitVec 5) (k : BitVec 4) (sp : Space) (lq : LoadQual) (sq : StoreQual),
      (∀ f ∈ popFifos s.actEng t, (s.here).fifo f ≠ []) →
      let ty := s.shape.ty
      let size (b : Space) : Nat := match b with | .glob => 0 | .abuf => 2 ^ 21 | .wbuf => 2 ^ 22 | .cbuf => 2 ^ 21
      let busy (a : Nat) : Prop := sp = .cbuf ∧ ∃ m ∈ (s.here).cmp.mq, m.acc.toNat = a / 32768
      let low (P : Nat → Prop) (a : Nat) : Prop := P a ∧ ∀ b, P b → a ≤ b
      let local_ (i : Instr) (load : Prop) (touch : Nat → Prop) (passes : Prop) : Prop :=
        (∀ a, low (fun b => touch b ∧ size sp ≤ b) a → exec i s = .next (s.engFault .bufRange (BitVec.ofNat 64 a))) ∧
        ((∀ b, touch b → b < size sp) →
          (∀ a, low (fun b => touch b ∧ busy b) a → exec i s = .next (s.engFault .accBusy (BitVec.ofNat 64 a))) ∧
          ((∀ b, touch b → ¬busy b) →
            (∀ a, load → low (fun b => touch b ∧ (sp, b / 16) ∈ (s.here).badSram) a →
              exec i s = .next (s.engFault .eccUncorr (BitVec.ofNat 64 a))) ∧
            ((load → ∀ b, touch b → (sp, b / 16) ∉ (s.here).badSram) → passes)))
      let of (es : List Elem) (b : Nat) : Prop := ∃ e ∈ es, e.addr ≤ b ∧ b < e.addr + elemBytes ty
      let words : List (Instr × AccKind × (State → List Elem)) :=
        [(.vld t p v k sp lq, .load, fun u => u.contig p k), (.vldi t p v k sp lq, .load, fun u => u.contig p k),
         (.vldb t p v k sp lq, .load, fun u => [u.oneElem k]), (.vst t p v k sp sq, .store, fun u => u.contig p k),
         (.vsti t p v k sp sq, .store, fun u => u.contig p k), (.vgath t p v vi k sp, .load, fun u => u.indexed p vi k),
         (.vscat t p v vi k sp, .store, fun u => u.indexed p vi k)]
      let global_ (i : Instr) (kind : AccKind) (runs : List (Nat × Nat)) (touch : Nat → Prop) (passes : Prop) : Prop :=
        let rs := runs.map (fun r => ({ kind := kind, group := 0, va := r.1, n := r.2 } : Req))
        (∀ b, touch b ↔ ∃ r ∈ rs, r.va ≤ b ∧ b < r.va + r.n) ∧
        (∀ c a, s.firstFault s.engWho rs = some (.trap c, a) → exec i s = .next (s.engFault c (BitVec.ofNat 64 a))) ∧
        (∀ x a, s.firstFault s.engWho rs = some (.tag x, a) →
          exec i s = .next ((s.tagError x).engFault .eccUncorr (BitVec.ofNat 64 a))) ∧
        (∀ ats a, s.firstFault s.engWho rs = some (.shadow ats, a) → exec i s = .next (
          if s.shlim = 0 then s.engFault .pageNotPresent (BitVec.ofNat 64 a)
          else s.awaitShadow s.actEng.seqr (.word s.actEng) (BitVec.ofNat 64 a) ats)) ∧
        (s.firstFault s.engWho rs = none → passes)
      let bytes := (byteRuns (s.vstuBytes p v k)).map (fun r => (r.1, r.2.length))
      let stu (b : Nat) : Prop := ∃ x ∈ s.vstuBytes p v k, x.1 = b
      let kept (es : List Elem) (a : Nat) : Prop := ty = .k4 ∧ ∃ x ∈ es, x.addr = a ∧ ∀ y ∈ es, y.addr = a → y.hi = x.hi
      let stored (i : Instr) (es : State → List Elem) : Prop :=
        let kf := s.keepFault s.here s.engWho sp
        (∀ f a b, low (fun x => kept (es s) x ∧ kf x ≠ none) a → kf a = some (f, b) →
          (∀ c, f = .trap c → exec i s = .next (s.engFault c (BitVec.ofNat 64 b))) ∧
          (∀ x, f = .tag x → exec i s = .next ((s.tagError x).engFault .eccUncorr (BitVec.ofNat 64 b)))) ∧
        ((∀ a, kept (es s) a → kf a = none) → storeCheck p sp es s = .go)
      let passes (w : Instr × AccKind × (State → List Elem)) : Prop :=
        elemCheck p sp w.2.1 w.2.2 s = .go ∧ (w.2.1 = .store → stored w.1 w.2.2)
      (∀ w ∈ words, s.predFalse p = false →
        (sp ≠ .glob → local_ w.1 (w.2.1 = .load) (of (w.2.2 s)) (passes w)) ∧
        (sp = .glob → global_ w.1 w.2.1 (runsOf ty (w.2.2 s)) (of (w.2.2 s)) (passes w))) ∧
      (∀ w ∈ words, s.predFalse p = true → elemCheck p sp w.2.1 w.2.2 s = .go ∧ storeCheck p sp w.2.2 s = .go) ∧
      (∀ a, sp ≠ .glob → s.keepFault s.here s.engWho sp a =
        if (sp, a / 16) ∈ (s.here).badSram then some (.trap .eccUncorr, a) else none) ∧
      (sp ≠ .glob → local_ (.vstu t p v k sp sq) False stu (vecCheck sp .store bytes s = .go)) ∧
      (sp = .glob → global_ (.vstu t p v k sp sq) .store bytes stu (vecCheck sp .store bytes s = .go))) ∧
    (∀ (s : State) (who : Who) (k : Core) (a : Nat) (l : Leaf), s.translate who a = .ok l →
      s.keepFault k who .glob a = (s.keepBar who l).map (fun f => (f, a)) ∧
      (∀ w off, l.dev = none → s.windowAt l.pa = some (w, off) →
        s.keepBar who l = if (w.buf, off / 16) ∈ (s.core w.core).badSram then some (.trap .eccUncorr) else none) ∧
      (l.dev ≠ none ∨ s.windowAt l.pa = none → s.keepBar who l =
        if s.badData l .load 1 = true then some (.trap .eccUncorr)
        else if s.tagsOk who l .load 1 = false then some (.tag (BitVec.ofNat 4 l.enc)) else none)) ∧
    (∀ (s : State) (t : Tok) (p : Pred) (d a : BitVec 5) (pd pr : BitVec 3) (b : VSrc),
      (∀ f ∈ popFifos s.actEng t, (s.here).fifo f ≠ []) →
      let ints : List EType := [.i8, .u8, .i16, .u16, .i32, .u32]
      let floats : List EType := [.f16, .bf16, .f32]
      let words : List (List Instr × List EType) :=
        [([.vadd t p d a b, .vsub t p d a b, .vmul t p d a b, .vdiv t p d a b, .vmin t p d a b, .vmax t p d a b, .vfma t p d a b,
            .vfms t p d a b, .vabs t p d a, .vneg t p d a, .vcmpeq t p pd a b, .vcmplt t p pd a b, .vcmple t p pd a b,
            .vcmpne t p pd a b, .vredsum t p d a, .vredmax t p d a, .vredmin t p d a, .vscan t p d a, .vscanx t p d a], ints ++ floats),
         ([.vmulh t p d a b, .vadds t p d a b, .vsubs t p d a b, .vshl t p d a b, .vshr t p d a b, .vsra t p d a b, .vfshl t p d a b,
            .vfshr t p d a b, .vclz t p d a, .vpopc t p d a, .viota t p d, .vfirst t p d pr], ints),
         ([.vsqrt t p d a, .vrcp t p d a, .vrsq t p d a, .vexp2 t p d a, .vlog2 t p d a], floats),
         ([.vhash t p d a b], [.i32, .u32]), ([.vunif t p d a], [.f32]), ([.vaccept t p d a b], [.u32])]
      ∀ w ∈ words, s.shape.ty ∉ w.2 → ∀ i ∈ w.1, exec i s = .next (s.engFault .reservedField s.engWordBits)) ∧
    (∀ (s : State) (who : Who) (rs : List Req),
      let errs (r : Req) (q : Nat × Nat) (f : AccFault) : Prop :=
        r ∈ rs ∧ q ∈ pagesOf r.va r.n ∧ s.access who r.kind q.1 q.2 = .error f
      (s.firstFault who rs = none ↔ (∀ r q f, ¬errs r q f) ∧ s.overflowOf who rs = none) ∧
      (∀ f a, s.firstFault who rs = some (f, a) →
        (∀ r q g, errs r q g → f.rank ≤ g.rank) ∧
        ((f = .trap .hypFull ∧ s.overflowOf who rs = some a) ∨
         ∃ r q, errs r q f ∧ a = s.faultAddr who r.kind q.1 q.2 f ∧
          ∀ r' q' g, errs r' q' g → g.rank = f.rank → r'.group = r.group → a ≤ s.faultAddr who r'.kind q'.1 q'.2 g))) ∧
    ([AccFault.trap .noncanon, .shadow false, .shadow true, .trap .pagePerm, .trap .worldViolation, .trap .engineDenied,
        .trap .hypFull, .trap .eccUncorr, .trap .linkDown, .tag 1].map AccFault.rank = [3, 4, 4, 5, 5, 6, 8, 9, 9, 9]) ∧
    (∀ (s : State) (who : Who) (kind : AccKind) (va n : Nat),
      (2 ^ 56 ≤ va → s.access who kind va n = .error (.trap .noncanon)) ∧
      (∀ f, s.translate who va = .error f → s.access who kind va n = .error f) ∧
      (∀ l, s.translate who va = .ok l →
        (l.enc ≠ 0 → l.enc ≠ who.world.toNat → s.access who kind va n = .error (.trap .worldViolation)) ∧
        (l.enc = 0 ∨ l.enc = who.world.toNat →
          (match kind with
            | .load => l.r = false
            | .store => l.w = false
            | .atomic => l.r = false ∨ l.w = false
            | .fetch => l.x = false ∨ l.r = false) → s.access who kind va n = .error (.trap .pagePerm))) ∧
      (∀ f, n ≠ 0 → (∀ m, s.access who kind va m = .error f) → s.faultAddr who kind va n f = va)) ∧
    (∀ (s : State) (t : Tok) (sa sb : BitVec 4) (acc : BitVec 6) (dep : BitVec 8) (rm : RMode) (auto hist : Bool) (set : BitVec 2),
      (∀ f ∈ popFifos s.actEng t, (s.here).fifo f ≠ []) →
      let A := s.streg sa
      let B := s.streg sb
      let words : List (Instr × List Named × Bool) :=
        [(.mma t sa sb acc dep, [⟨A, .stepA⟩, ⟨B, .stepB⟩], false), (.mmaz t sa sb acc dep, [⟨A, .stepA⟩, ⟨B, .stepB⟩], false),
         (.mmv t sa sb acc dep, [⟨A, .mvA⟩, ⟨B, .mvB⟩], false), (.mdrain t sa acc rm auto hist set, [⟨A, .dst⟩], auto),
         (.accld t sa acc, [⟨A, .src⟩], false)]
      ∀ w ∈ words, matrixHeld w.2.1 s = false →
        let reserved (n : Named) : Prop := dReservedOk n.d = false ∨ 7 ≤ dKind n.d ∨ 13 ≤ dEtype n.d ∨
          ((dWaitFull n.d = true ∨ dClearRead n.d = true) ∧ dKind n.d ≠ 1 ∧ dKind n.d ≠ 2)
        let denied (n : Named) : Prop := dKind n.d = 3 ∨ (dKind n.d = 2 ∧ n.role = .dst) ∨
          (dKind n.d = 1 ∧ (n.role = .stepB ∨ n.role = .mvB))
        let operand (n : Named) : Prop := n.role ≠ .dst ∧ n.role ≠ .src
        let format (n : Named) : Prop := dKind n.d = 0 ∨ 7 ≤ dKind n.d ∨ (dKind n.d = 2 ∧ n.role = .mvB) ∨
          (dKind n.d = 5 ∧ n.role = .dst) ∨ (dKind n.d = 6 ∧ (n.role = .mvB ∨ n.role = .dst ∨ n.role = .src)) ∨
          (dT n.d = true ∧ dKind n.d = 6) ∨
          (operand n ∧ dType n.d ∉ [EType.i8, .u8, .f16, .bf16, .f32, .k8, .k4]) ∨ (¬operand n ∧ dType n.d = .ks8) ∨
          (dScaled n.d = true ∧ ((dType n.d ≠ .k8 ∧ dType n.d ≠ .k4) ∨ dKind n.d = 6 ∨ 6 < dBh n.d ∨ 6 < dBw n.d))
        let unpaired : Prop := ∃ a b, w.2.1 = [a, b] ∧ granuleDepth (dType a.d) (dType b.d) = none
        let slotless (n : Named) : Prop := dKind n.d = 6 ∧ (s.ctx s.myCtx).slot (BitVec.ofNat 4 (dBase n.d)) = none
        let beyond (a : Nat) : Prop := ∃ n ∈ w.2.1, (dKind n.d = 1 ∨ dKind n.d = 2) ∧ bufSize (dSpace n.d) ≤ a ∧
          ∃ r c, r < dRows n.d ∧ c < dCols n.d ∧
            (((dElemAddr n.d r c).1 ≤ a ∧ a < (dElemAddr n.d r c).1 + elemBytes (dType n.d)) ∨
              (dScaled n.d = true ∧ a = dScaleAddr n.d r c))
        let stops (c : Cause) (a : Nat) : Prop := exec w.1 s = .next (s.engFault c (BitVec.ofNat 64 a))
        ((∃ n ∈ w.2.1, reserved n) → stops .reservedField 0) ∧
        ((∀ n ∈ w.2.1, ¬reserved n) → ((∃ n ∈ w.2.1, denied n) → stops .engineDenied 0) ∧
        ((∀ n ∈ w.2.1, ¬denied n) →
          ((∃ n ∈ w.2.1, format n) ∨ (w.2.2 = true ∧ ∃ n ∈ w.2.1, dScaled n.d = false) ∨ unpaired → stops .streamFormat 0) ∧
        ((∀ n ∈ w.2.1, ¬format n) → (w.2.2 = true → ∀ n ∈ w.2.1, dScaled n.d = true) → ¬unpaired →
          ((∃ n ∈ w.2.1, slotless n) → stops .genSlot 0) ∧
        ((∀ n ∈ w.2.1, ¬slotless n) →
          (∀ a, beyond a → (∀ b, beyond b → a ≤ b) → stops .bufRange a) ∧
          ((∀ a, ¬beyond a) → matrixChecks w.2.1 w.2.2 s = .go))))))

/-- R46, R200 to R203, R205 to R208, R254, R260, R261, R277. That the part of a load that lies here is read at issue
and the rest later, a frame at a time, is log 10; that a granule may have been read ahead is log 11; that addresses
wrap is log 71. A lane that VPART leaves open where one register is both its operands is free (log 25). -/
def Obligations.VectorMemory : Prop :=
  ∀ (s : State) (t : Tok) (p : Pred) (v vi : BitVec 5) (k m : BitVec 4) (sp : Space) (lq : LoadQual) (sq : StoreQual), s.takes t → s.actSeq = .cmp →
    let u := s.taken t
    let ty := u.shape.ty
    let vl := u.shape.vl.toNat
    let go : Prop := elemCheck p sp .load (fun u => u.contig p k) s = .go
    let bump (inc : Bool) (w : State) : State :=
      if inc then w.setKreg k (w.kreg k + BitVec.ofNat 64 (if w.shape.ty = .k4 then (w.shape.vl.toNat + 1) / 2
        else w.shape.vl.toNat * (w.shape.ty.bits / 8))) else w
    let later (w : State) (b : Nat) : Prop := ∃ l, w.translate w.engWho b = .ok l ∧ w.postsTo w.engWho l = true
    let ahead (w : State) : State := if sp = .glob then w.dropAhead else w
    let frame (x : Nat × Bool × List LateByte) : Option (Option Nat × Nat) := (laneHome x).map (fun h => (h.2.dev, h.2.pa / 2 ^ 16))
    let parts (gs : List (List (Nat × Bool × List LateByte))) (ls : List (Nat × Bool × List LateByte)) : Prop :=
      gs.flatten.Perm ls ∧ (∀ g ∈ gs, g ≠ [] ∧ ∀ x ∈ g, ∀ y ∈ g, frame x = frame y) ∧
        gs.Pairwise (fun g h => ∀ x ∈ g, ∀ y ∈ h, frame x ≠ frame y)
    (∀ (e : EType) (ea : DWord) (i j : Nat), elemAt e ea i j =
      { lane := i, addr := (ea.toNat + (if e = .k4 then j / 2 else e.bits / 8 * j)) % 2 ^ 64, hi := e == .k4 && j % 2 == 1 }) ∧
    (∀ (w : State) (e : EType) (x : Elem),
      (w.lateElemAt e x = true ↔ later w x.addr ∨ later w ((x.addr + elemBytes e - 1) % 2 ^ 64)) ∧
      w.lateLane e (x.lane, x) = (x.lane, x.hi, (List.range (elemBytes e)).map (fun j => w.lateByte ((x.addr + j) % 2 ^ 64)))) ∧
    (∀ (w : State) (a : Nat) (l : Leaf), w.translate w.engWho a = .ok l →
      w.lateByte a = (if w.postsTo w.engWho l = true then .away a l else .here ((w.readSeen w.engWho l a 1).headD 0)) ∧
      w.byteAt .glob a = (if w.postsTo w.engWho l = true then (w.ownByte w.engWho l.dev l.pa).getD (w.readByte w.engWho l a l.pa)
        else w.readByte w.engWho l a l.pa)) ∧
    (∀ (w : State) (who : Who) (q : Post) (ps : List Post) (dev : Option Nat) (pa : Nat) (bs : List Byte) (b : Byte),
      w.posted = ps ++ [q] → q.kind = .write bs → q.leaf.dev = dev → bs[pa - q.leaf.pa]? = some b → q.leaf.pa ≤ pa →
      q.leads who = true → w.ownByte who dev pa = some b) ∧
    (∀ (w : State) (e : EType) (x : Nat × Bool × List LateByte) (g : List (Nat × Bool × List LateByte)) (pre post : List LateByte)
      (a : Nat) (l : Leaf), w.actSeq = .cmp → x.2.2 = pre ++ .away a l :: post → (∀ y ∈ pre, ∃ b, y = .here b) →
      laneHome x = some (a, l) ∧
      w.postLanes v e (x :: g) = ({ w with
        posted := w.posted ++ [{ num := w.postNum, who := { w.engWho with hyp := 0 }, leaf := l, va := a, kind := .vload v e (x :: g) }],
        postNum := w.postNum + 1 } : State).onHere (fun c => c.onEng .cmp (fun q => { q with away := q.away ++ [w.postNum] }))) ∧
    (∀ (w : State) (e : EType) (x : Elem) (l : Leaf), sp = .glob → w.peeks = [] → w.posted = [] →
      x.addr % 2 ^ 16 + elemBytes e ≤ 2 ^ 16 → w.access w.engWho .load x.addr (elemBytes e) = .ok l → w.elemBits sp e x =
      let b := leNat ((List.range (elemBytes e)).map (fun j => w.readByte w.engWho l (x.addr + j) (l.pa + j)))
      if e = .k4 then (if x.hi then b / 16 % 16 else b % 16) else b) ∧
    (∀ (w : State) (e : EType) (x : Elem), sp ≠ .glob → w.peeks = [] → w.elemBits sp e x =
      let b := leNat ((w.here).bufBytes sp x.addr (elemBytes e))
      if e = .k4 then (if x.hi then b / 16 % 16 else b % 16) else b) ∧
    (go → exec (.vld t p v k sp lq) s = .next (vecLoad t p v k sp lq false false u) ∧
      exec (.vldi t p v k sp lq) s = .next (vecLoad t p v k sp lq true false u)) ∧
    (elemCheck p sp .load (fun u => [u.oneElem k]) s = .go →
      exec (.vldb t p v k sp lq) s = .next (vecLoad t p v k sp lq false true u)) ∧
    (∀ (w : State) (inc one : Bool),
      let e (i : Nat) : Elem := elemAt w.shape.ty (w.kreg k) (if one then 0 else i) (if one then 0 else i)
      let gs := (if one then [e 0] else (w.lanesOn p).map e).flatMap (fun x => granules x.addr (elemBytes w.shape.ty))
      let late (i : Nat) : Bool := sp == .glob && w.lateElemAt w.shape.ty (e i)
      let lacking : Prop := ∃ g ∈ gs, g ∈ (w.here).empties sp ∧ w.seenGranule sp g = false
      let past (x : State) : State := (bump inc x).onHere (fun c => c.engRetire .cmp t)
      let cleared (x : State) : State :=
        if lq = .clearOnRead then x.onHere (fun c => c.drain sp (runGranules (runsOf w.shape.ty (if one then [e 0] else (w.lanesOn p).map e))))
        else x
      (∀ g, g ∈ runGranules (runsOf w.shape.ty (if one then [e 0] else (w.lanesOn p).map e)) ↔ g ∈ gs) ∧
      (w.predFalse p = true → vecLoad t p v k sp lq inc one w = past w) ∧
      (w.predFalse p = false →
        (lq ≠ .plain → lacking → vecLoad t p v k sp lq inc one w = w.onHere (fun c => c.setWait .cmp .fullEmpty)) ∧
        (lq = .plain ∨ ¬lacking →
          ∃ gs : List (List (Nat × Bool × List LateByte)),
            vecLoad t p v k sp lq inc one w = past (cleared (gs.foldl (fun x g => x.postLanes v w.shape.ty g)
              (ahead (w.setVreg v (setLanes (w.vreg v) w.shape.ty (fun i =>
                if i ∈ w.lanesOn p ∧ late i = false then some (w.elemBits sp w.shape.ty (e i)) else none)))))) ∧
            parts gs (((w.lanesOn p).filter late).map (fun i => w.lateLane w.shape.ty (i, e i)))))) ∧
    (∀ c : CoreId, (s.core c).cmp.eng.wait = .fullEmpty → s.engGoes c .cmp = true →
      let w : State := { s.onCore c (fun k => k.setWait .cmp .none) with actCore := c, actSeq := .cmp }
      let at_ (i : Instr) : Prop := (s.core c).instrAt .cmp .cmp 32768 (s.core c).cmp.eng.pc = i
      (at_ (.vld t p v k sp lq) → exec (.fullEmptyWaitDone c) s = .next (vecLoad t p v k sp lq false false w)) ∧
      (at_ (.vldi t p v k sp lq) → exec (.fullEmptyWaitDone c) s = .next (vecLoad t p v k sp lq true false w)) ∧
      (at_ (.vldb t p v k sp lq) → exec (.fullEmptyWaitDone c) s = .next (vecLoad t p v k sp lq false true w))) ∧
    (∀ (w : State) (rs : List (Nat × List Byte)), w.storeRuns sp sq rs =
      let x := rs.foldl (fun (x : State) r => x.putAt sp r.1 r.2) w
      if sq = .setFull then x.onHere (fun c => c.fill sp (rs.flatMap (fun r => granules r.1 r.2.length))) else x) ∧
    (∀ (i : Instr) (inc : Bool), (i, inc) ∈ [(Instr.vst t p v k sp sq, false), (.vsti t p v k sp sq, true)] →
      storeCheck p sp (fun u => u.contig p k) s = .go →
      let es := u.contig p k
      let rs := byteRuns (u.outBytes sp ty (u.vreg v) es)
      (u.predFalse p = true → exec i s = .next (s.past (bump inc u) t)) ∧
      (u.predFalse p = false →
        (keepsNibble ty es = false → exec i s = .next (s.past (bump inc (u.storeRuns sp sq rs)) t)) ∧
        (keepsNibble ty es = true → exec i s = .next (u.beginNib t sp (sq == .setFull) rs inc k)) ∧
        (sp ≠ .glob → ∀ e ∈ es, let w := u.storeRuns sp sq rs;
          leNat ((w.here).bufBytes sp e.addr (elemBytes ty)) / (if e.hi then 16 else 1) % 2 ^ ty.bits = laneOf (u.vreg v) ty e.lane))) ∧
    (∀ e : List Elem, keepsNibble ty e = true ↔ ty = .k4 ∧ ∃ x ∈ e, ∀ y ∈ e, y.addr = x.addr → y.hi = x.hi) ∧
    (∀ (w : State) (fill inc : Bool) (rs : List (Nat × List Byte)), sp ≠ .glob →
      let x := w.beginNib t sp fill rs inc k
      (∀ b a, (x.here).bufByte b a = (w.here).bufByte b a) ∧ x.mem = w.mem ∧ (x.here).cmp.eng.wait = .nibble ∧
      let done := (bump inc (x.storeRuns sp (if fill then .setFull else .plain) rs)).onHere (fun c =>
        c.onCmp (fun q => { q with nib := none }))
      (x.runRefuted x.actCore .cmp = false → x.finishNib = done.onHere (fun c => c.engRetire .cmp t)) ∧
      (x.runRefuted x.actCore .cmp = true → x.finishNib = done.onHere (fun c => (c.dropSerial .cmp).abandon .cmp))) ∧
    (∀ (w : State) (c : CoreId), (w.core c).cmp.eng.wait = .nibble → w.halts c = false → (w.core c).hold = false →
      (w.core c).cmp.eng.cur.isSome = true → (w.core c).cmp.eng.halted = false →
      runAct (.seq c .cmp) w = .next ({ w with actCore := c, actSeq := .cmp }.finishNib)) ∧
    (let rs := byteRuns (s.vstuBytes p v k);
      (rs ≠ [] → vecCheck sp .store (rs.map (fun r => (r.1, r.2.length))) s = .go) →
      exec (.vstu t p v k sp sq) s = .next (s.past (u.storeRuns sp sq (byteRuns (((List.range 256).filter (fun j =>
        (u.predOf p).getLsbD j != p.neg)).map (fun j => (((u.kreg k).toNat + j) % 2 ^ 64, BitVec.ofNat 8 ((u.vreg v).toNat / 256 ^ j)))))) t)) ∧
    (let at_ (i : Nat) : Elem := elemAt ty (u.kreg k) i (indexOf (u.vreg vi) i)
      let on := (u.lanesOn p).filter (fun i => decide (i < 64))
      let hole (i : Nat) : Bool := indexOf (u.vreg vi) i == 0xFFFFFFFF
      let late (i : Nat) : Bool := !hole i && sp == .glob && u.lateElemAt ty (at_ i)
      let read (w : State) : State := if ∀ i ∈ on, hole i = true then w else ahead w
      elemCheck p sp .load (fun u => u.indexed p vi k) s = .go →
      ∃ gs : List (List (Nat × Bool × List LateByte)),
        exec (.vgath t p v vi k sp) s = .next (s.past (gs.foldl (fun x g => x.postLanes v ty g)
          (read (u.setVreg v (setLanes (u.vreg v) ty (fun i =>
            if i ∈ on ∧ late i = false then some (if hole i then 0 else u.elemBits sp ty (at_ i)) else none))))) t) ∧
        parts gs ((on.filter late).map (fun i => u.lateLane ty (i, at_ i)))) ∧
    (∀ (w : State) (x : VReg) (es : List Elem) (e : Elem), w.scatRuns sp x (es ++ [e]) = w.scatRuns sp x es ++
      [(e.addr, if w.shape.ty = .k4 then
          [setNibble ((lastByte (w.scatRuns sp x es) e.addr).getD (w.byteAt sp e.addr)) e.hi (laneOf x w.shape.ty e.lane)]
        else leBytes (elemBytes w.shape.ty) (laneOf x w.shape.ty e.lane))]) ∧
    (let es := u.indexed p vi k;
      storeCheck p sp (fun u => u.indexed p vi k) s = .go →
      (keepsNibble ty es = false → exec (.vscat t p v vi k sp) s = .next (s.past (u.storeRuns sp .plain (u.scatRuns sp (u.vreg v) es)) t)) ∧
      (keepsNibble ty es = true → exec (.vscat t p v vi k sp) s = .next (u.beginNib t sp false (u.scatRuns sp (u.vreg v) es) false k)) ∧
      (sp ≠ .glob → ∀ (pre post : List Elem) (e : Elem), es = pre ++ e :: post →
        (∀ x ∈ post, x.addr + elemBytes ty ≤ e.addr ∨ e.addr + elemBytes ty ≤ x.addr ∨ (ty = .k4 ∧ x.hi ≠ e.hi)) →
        let w := u.storeRuns sp .plain (u.scatRuns sp (u.vreg v) es)
        leNat ((w.here).bufBytes sp e.addr (elemBytes ty)) / (if e.hi then 16 else 1) % 2 ^ ty.bits = laneOf (u.vreg v) ty e.lane)) ∧
    (let on := u.lanesOn p
      let key (i : Nat) : Bool := decide (laneOf (u.vreg vi) ty i ≠ 0)
      let ts := (on.filter key).map (fun i => laneOf (u.vreg v) ty i)
      let fs := (on.filter (fun i => !key i)).map (fun i => laneOf (u.vreg v) ty i)
      let pack (x : VReg) (xs : List Nat) : VReg := setLanes x ty (fun i => if i < vl then some (xs.getD i 0) else none)
      (on = [] → exec (.vpart t p v vi m) s = .next (s.past u t)) ∧
      (on ≠ [] → v ≠ vi → exec (.vpart t p v vi m) s = .next (s.past
        (((u.setKreg m (BitVec.ofNat 64 ts.length)).setVreg v (pack (u.vreg v) ts)).setVreg vi (pack (u.vreg vi) fs)) t)) ∧
      (on ≠ [] → v = vi → ∃ x : VReg, exec (.vpart t p v vi m) s = .next (s.past
          ({ u.setKreg m (BitVec.ofNat 64 ts.length) with freeCtr := u.freeCtr + 1 }.setVreg v x) t) ∧
        ∀ i < lanesOf ty, (vl ≤ i → laneOf x ty i = laneOf (u.vreg v) ty i) ∧
          (i < vl → ts.getD i 0 = fs.getD i 0 → laneOf x ty i = ts.getD i 0))) ∧
    exec (.vperm t p v vi) s = .next (s.past (u.setVreg v (setLanes (u.vreg v) ty (fun i =>
      if i ∈ u.lanesOn p then
        some (if laneOf (u.vreg vi) ty i < vl then laneOf (u.vreg v) ty (laneOf (u.vreg vi) ty i) else 0)
      else none))) t)

/-- The frames of R93, R174, R201 to R203, R227, R228 and R295, over the addresses that the meanings compute. In space
0 a store takes whole lines into account: the rest of a DEAD line reads zero afterwards (R59), that of a tagged one
changes with its tag (R324). -/
def Obligations.VectorStoreFrame : Prop :=
  (∀ (s : State) (t : Tok) (p : Pred) (v vi : BitVec 5) (k : BitVec 4) (sp : Space) (sq : StoreQual), s.takes t → s.actSeq = .cmp →
      let u := s.taken t
      let ty := u.shape.ty
      let clear (rs : List (Nat × List Byte)) (a : Nat) : Prop := ∀ r ∈ rs, a < r.1 ∨ r.1 + r.2.length ≤ a
      let regs (w : State) (kept : BitVec 4 → Prop) : Prop :=
        (∀ r, w.vreg r = s.vreg r) ∧ (∀ r, w.preg r = s.preg r) ∧ (∀ r, w.streg r = s.streg r) ∧ (∀ r, kept r → w.kreg r = s.kreg r) ∧
        ∀ c, (w.core c).ctl = (s.core c).ctl ∧ (w.core c).task = (s.core c).task
      let same (w : State) (rs : List (Nat × List Byte)) (kept : BitVec 4 → Prop) : Prop :=
        regs w kept ∧
        (sp ≠ .glob → (∀ a, clear rs a → (w.here).bufByte sp a = (s.here).bufByte sp a) ∧
          (∀ b, b ≠ sp → ∀ a, (w.here).bufByte b a = (s.here).bufByte b a) ∧ w.mem = s.mem ∧
          (∀ c, c ≠ s.actCore → w.core c = s.core c)) ∧
        (sp = .glob → ∀ q, s.windowAt q = none →
          ((∀ l ∈ u.storesTo rs, l.2.2.dev = none → q / 128 ∉ linesOf l.2.2.pa l.2.1) → w.phys q = s.phys q) ∧
          (s.tags = [] → s.tlt = [] → s.stale = [] → (∀ l ∈ u.storesTo rs, l.2.2.dev = none →
            l.2.2.enc = 0 ∧ (q < l.2.2.pa ∨ l.2.2.pa + l.2.1 ≤ q)) → w.phys q = s.phys q))
      let first (w : State) : Prop := regs w (fun _ => True) ∧ w.mem = s.mem ∧ ∀ c b a, (w.core c).bufByte b a = (s.core c).bufByte b a
      (∀ (i : Instr) (inc : Bool), (i, inc) ∈ [(Instr.vst t p v k sp sq, false), (.vsti t p v k sp sq, true)] →
        storeCheck p sp (fun u => u.contig p k) s = .go → u.predFalse p = false → ∃ w, exec i s = .next w ∧
          (keepsNibble ty (u.contig p k) = false →
            same w (byteRuns (u.outBytes sp ty (u.vreg v) (u.contig p k))) (fun r => inc = false ∨ r ≠ k)) ∧
          (keepsNibble ty (u.contig p k) = true → first w)) ∧
      ((byteRuns (s.vstuBytes p v k) ≠ [] →
          vecCheck sp .store ((byteRuns (s.vstuBytes p v k)).map (fun r => (r.1, r.2.length))) s = .go) →
        ∃ w, exec (.vstu t p v k sp sq) s = .next w ∧ same w (byteRuns (u.vstuBytes p v k)) (fun _ => True)) ∧
      (storeCheck p sp (fun u => u.indexed p vi k) s = .go → ∃ w, exec (.vscat t p v vi k sp) s = .next w ∧
        (keepsNibble ty (u.indexed p vi k) = false → same w (u.scatRuns sp (u.vreg v) (u.indexed p vi k)) (fun _ => True)) ∧
        (keepsNibble ty (u.indexed p vi k) = true → first w))) ∧
    (∀ (s : State) (n : NibStore), (s.here).cmp.nib = some n → ∀ q, s.windowAt q = none →
      (∀ r ∈ n.runs, ∀ l, r.2.1 = some l → l.dev = none → l.pa % 128 = r.1 % 128 ∧ q / 128 ∉ linesOf l.pa r.2.2.length) →
      s.finishNib.phys q = s.phys q) ∧
    (∀ (s : State) (c : CoreId) (e : Engine) (sts : Bool) (op : Nat) (o : Op) (p : CopyOp) (j : Nat) (plan : UnitPlan),
      stsOf e = some sts → s.halts c = false → ((s.core c).xfer sts).op op = some o → o.kind = .copy p → p.held = false →
      p.unit < bxUnits p.box → s.unitOf (s.core c) (s.opWho c sts o) p = .ok (j, plan) → p.done = [] →
      ∃ w, exec (.copyComplete c e op 1) s = .next w ∧
        (∀ d, (w.core d).ctl.s = (s.core d).ctl.s ∧ (w.core d).cmp.v = (s.core d).cmp.v ∧ (w.core d).cmp.k = (s.core d).cmp.k ∧
          ((w.core d).xfer true).a = ((s.core d).xfer true).a ∧ ((w.core d).xfer false).a = ((s.core d).xfer false).a) ∧
        (plan.dst = none → w.mem = s.mem ∧ ∀ d b a, (w.core d).bufByte b a = (s.core d).bufByte b a) ∧
        (∀ a, plan.dst = some a → p.dsp ≠ .glob → w.mem = s.mem ∧ (∀ d, d ≠ c → w.core d = s.core d) ∧
          (∀ b, b ≠ p.dsp → ∀ x, (w.core c).bufByte b x = (s.core c).bufByte b x) ∧
          ∀ x, x < a.toNat ∨ a.toNat + plan.n ≤ x → (w.core c).bufByte p.dsp x = (s.core c).bufByte p.dsp x) ∧
        (∀ a ls, plan.dst = some a → p.dsp = .glob → s.accessAll (s.opWho c sts o) .store (pagesOf a.toNat plan.n) = .ok ls →
          ∀ q, s.windowAt q = none →
            ((∀ l ∈ ls, l.2.2.dev = none → q / 128 ∉ linesOf l.2.2.pa l.2.1) → w.phys q = s.phys q) ∧
            (s.tags = [] → s.tlt = [] → s.stale = [] → (∀ l ∈ ls, l.2.2.dev = none →
              l.2.2.enc = 0 ∧ (q < l.2.2.pa ∨ l.2.2.pa + l.2.1 ≤ q)) → w.phys q = s.phys q))) ∧
    (∀ (s : State) (c : CoreId) (m : MWord) (ms : List MWord), (s.core c).cmp.mq = m :: ms → s.halts c = false →
      (s.core c).hold = false → m.next < m.parts → s.partBar c m = .none →
      ∃ w, exec (.matrixWordComplete c 1) s = .next w ∧ (∀ d, d ≠ c → (w.core d).ctl = (s.core d).ctl) ∧
        (w.core c).ctl = (s.core c).ctl ∧ (w.core c).cmp.v = (s.core c).cmp.v ∧ (w.core c).cmp.k = (s.core c).cmp.k ∧
        (m.kind ≠ .mdrain → w.mem = s.mem ∧ (∀ a, (w.core c).bufByte .abuf a = (s.core c).bufByte .abuf a) ∧
          (∀ a, (w.core c).bufByte .wbuf a = (s.core c).bufByte .wbuf a) ∧
          (∀ a, a / 32768 ≠ m.acc.toNat ∨ (m.kind = .mmv ∧ 8 ≤ a % 32768 / 512) → (w.core c).bufByte .cbuf a = (s.core c).bufByte .cbuf a) ∧
          ∀ d, d ≠ c → ∀ b a, (w.core d).bufByte b a = (s.core d).bufByte b a) ∧
        (m.kind = .mdrain →
          let out := m.pend ++ s.drainPend c (s.matWho c m) m m.next
          (∀ a, (w.core c).bufByte .cbuf a = (s.core c).bufByte .cbuf a ∨ dSpace m.da = .glob ∨ dSpace m.da = .cbuf) ∧
          (dSpace m.da = .abuf → w.mem = s.mem ∧ (∀ a, (w.core c).bufByte .wbuf a = (s.core c).bufByte .wbuf a) ∧
            ∀ a, (∀ x ∈ out, x.a ≠ a) → (w.core c).bufByte .abuf a = (s.core c).bufByte .abuf a) ∧
          (dSpace m.da = .glob → (∀ x ∈ m.pend, ∀ l, x.leaf = some l → l.pa % 128 = x.a % 128) →
            ∀ q, s.windowAt q = none → (∀ x ∈ out, ∀ l, x.leaf = some l → l.dev = none → q / 128 ≠ l.pa / 128) →
              w.phys q = s.phys q))) ∧
    (∀ (s : State) (l : CollLine), l.line.leaf.pa % 128 = l.line.va % 128 → ∀ q, s.windowAt q = none →
      (l.stage = false → (l.line.leaf.dev = none → q / 128 ∉ linesOf l.line.leaf.pa l.line.bytes.length) →
        (s.performLine l).phys q = s.phys q) ∧
      (l.stage = true → (∀ i k, s.inst l.inst = some i → l.line.slot = some k →
        q / 128 ∉ linesOf (i.who.desc.stagbase.toNat + 128 * k) 128) → (s.performLine l).phys q = s.phys q)) ∧
    (∀ (s : State) (p : Part) (i : CollInst), s.colls[p.i]? = some i → s.instAlive i = true → i.staged ≠ [] →
      i.counted = crExpect i.record → (∀ a ∈ i.staged, a.leaf.pa % 128 = a.va % 128) →
      ∃ w, exec (.collCombine p) s = .next w ∧ ∀ q, s.windowAt q = none →
        (∀ a ∈ i.staged, a.leaf.dev = none → q / 128 ∉ linesOf a.leaf.pa a.bytes.length) → w.phys q = s.phys q)

/-- R222 to R232, R236. That MSETTLE takes its tokens before it waits is log 45. -/
def Obligations.MatrixIssue : Prop :=
  ∀ (s : State) (t : Tok) (sa sb : BitVec 4) (acc : BitVec 6) (dep n : BitVec 8) (rm : RMode) (auto hist : Bool)
      (set : BitVec 2), s.takes t →
    let u := s.taken t
    let ok (ns : List Named) (au : Bool) : Prop :=
      (s.here).cmp.mq.length < 16 ∧ (∀ n ∈ ns, dKind n.d = 6 → s.slotWanted s.myCtx (BitVec.ofNat 4 (dBase n.d)) = false) ∧
        matrixChecks ns au s = .go
    let A := s.streg sa
    let B := s.streg sb
    let rest := u.shape.rm
    let issues (i : Instr) (kind : MKind) (da db : BitVec 512) (d8 : BitVec 8) (m : RMode) : Prop :=
      exec i s = .next (u.issueMatrix t kind da db acc d8 m)
    (ok [⟨A, .stepA⟩, ⟨B, .stepB⟩] false → issues (.mma t sa sb acc dep) .mma A B dep rest ∧
      issues (.mmaz t sa sb acc dep) .mmaz A B dep rest) ∧
    (ok [⟨A, .mvA⟩, ⟨B, .mvB⟩] false → issues (.mmv t sa sb acc dep) .mmv A B dep rest) ∧
    (ok [⟨A, .dst⟩] auto → issues (.mdrain t sa acc rm auto hist set) .mdrain A 0
      (BitVec.ofNat 8 (64 * rm.code + (if auto then 32 else 0) + (if hist then 16 else 0) + 4 * set.toNat)) rm) ∧
    (ok [] false → issues (.accz t acc) .accz 0 0 0 rest) ∧
    (ok [⟨A, .src⟩] false → issues (.accld t sa acc) .accld A 0 0 rest) ∧
    (∀ (i : Instr) (ns : List Named), (i, ns) ∈ [(Instr.mma t sa sb acc dep, [⟨A, .stepA⟩, ⟨B, .stepB⟩]),
        (.mmaz t sa sb acc dep, [⟨A, .stepA⟩, ⟨B, .stepB⟩]), (.mmv t sa sb acc dep, [⟨A, .mvA⟩, ⟨B, .mvB⟩]),
        (.mdrain t sa acc rm auto hist set, [⟨A, .dst⟩]), (.accz t acc, []), (.accld t sa acc, [⟨A, .src⟩])] →
      16 ≤ (s.here).cmp.mq.length ∨ (∃ n ∈ ns, dKind n.d = 6 ∧ s.slotWanted s.myCtx (BitVec.ofNat 4 (dBase n.d)) = true) →
      exec i s = .next (s.onHere (fun k => k.setWait s.actEng.seqr .matrixLimit))) ∧
    (∀ (kind : MKind) (da db : BitVec 512) (w : State),
      let r := ((w.here).cmp.eng.cur).getD default
      let x := (w.issueMatrix t kind da db acc dep rm).here
      let slot (d : BitVec 512) : Option GenSlot := if dKind d = 6 then (w.ctx w.myCtx).slot (BitVec.ofNat 4 (dBase d)) else none
      let late : Prop := ∃ n, (w.here).cmp.doomed = some n ∧ ∃ f ∈ (w.here).faults, f.eng = some .cmp ∧ f.serial = n
      (late → x.cmp.mq = (w.here).cmp.mq ∧ x.cmp.eng.pushq = (w.here).cmp.eng.pushq ∧ x.ltoc = (w.here).ltoc ∧
        x.ctos = (w.here).ctos ∧ x.ctol = (w.here).ctol) ∧
      (¬late → ∃ m : MWord, x.cmp.mq = (w.here).cmp.mq ++ [m] ∧ m =
        { id := (w.here).cmp.eng.nextOp, kind := kind, da := da, db := db, acc := acc, d8 := dep, rm := rm, ga := slot da,
          gb := slot db, batch := (w.here).cmp.batch, next := 0, flags := { }, tag := r.cmd.tag, frag := r.cmd.frag,
          hyp := r.cmd.hyp, waddr := (w.here).cmp.eng.pc, serial := r.serial, sees := w.postNum }) ∧
      x.cmp.eng.pc = (nextWord (w.here).cmp.eng.pc (w.here).cmp.eng.loops).1 ∧ x.cmp.eng.wait = .none) ∧
    (((∀ m ∈ (s.here).cmp.mq, m.batch ≠ (s.here).cmp.batch) ∨ (s.here).cmp.sealedInFlight < 8) →
      exec (.mseal t) s = .next (s.past (u.onHere (fun k => k.onCmp (fun c => { c with batch := c.batch + 1 }))) t)) ∧
    ((∃ m ∈ (s.here).cmp.mq, m.batch = (s.here).cmp.batch) → 8 ≤ (s.here).cmp.sealedInFlight →
      exec (.mseal t) s = .next (s.onHere (fun k => k.setWait s.actEng.seqr .matrixLimit))) ∧
    (exec (.msettle t n) s = .next (u.onHere (fun k =>
      if k.cmp.sealedInFlight ≤ n.toNat then k.engRetire .cmp t else k.setWait .cmp (.msettle n.toNat)))) ∧
    (∀ (c : CoreId) (m : Nat), (s.core c).cmp.eng.wait = .msettle m → (s.core c).cmp.sealedInFlight ≤ m →
      s.engGoes c .cmp = true →
      exec (.msettleComplete c) s = .next (s.onCore c (fun k => k.engRetire .cmp (k.eng .cmp).tok))) ∧
    (∀ c : CoreId, (s.core c).cmp.eng.wait = .matrixLimit → s.engGoes c .cmp = true →
      exec (.matrixIssueResume c) s = .next (s.onCore c (fun k => k.setWait .cmp .none)))

/-- R66, R76, R225, R232, R236, R250. That a word's fault takes every word behind it with it, and how a drain's parts
are written, is log 28. What a part computes is MatrixArithmetic's. -/
def Obligations.MatrixProgress : Prop :=
  ∀ (s : State) (c : CoreId) (m : MWord) (ms : List MWord) (n : Nat),
    (s.core c).cmp.mq = m :: ms → s.halts c = false → (s.core c).hold = false →
    let fpstat (k : Core) (f : FFlags) : BitVec 10 := k.ctl.fpstat ||| BitVec.ofNat 10 (32 * ({ f with dz := false } : FFlags).code)
    (exec (.matrixWordComplete c n) s = .next (s.runMatrix c n)) ∧
    (s.runMatrix c 0 = s) ∧
    (m.next < m.parts → s.partBar c m = .none → s.runMatrix c (n + 1) =
      ((s.doPart c m).1.onCore c (fun k => k.onCmp (fun q => { q with mq := (s.doPart c m).2 :: q.mq.drop 1 }))).runMatrix c n) ∧
    (m.next < m.parts → s.partBar c m ≠ .none → s.runMatrix c (n + 1) = s) ∧
    (m.kind ≠ .mdrain → (s.doPart c m).2.next = m.next + 1) ∧
    (m.kind = .mdrain →
      if m.keeps m.next = true ∧ m.nib = none then (s.doPart c m).1 = s ∧ (s.doPart c m).2.next = m.next ∧ (s.doPart c m).2.nib.isSome = true
      else (s.doPart c m).2.next = m.next + 1 ∧ (s.doPart c m).2.nib = none) ∧
    (m.parts ≤ m.next →
      let t := s.runMatrix c 1
      let pushed (k : Core) : Core := if m.hyp != 0 && (s.ctx k.theTask.ctx).isRefuted m.hyp then k.dropPushes .cmp m.id else k.settle .cmp m.id false
      ((∃ p ∈ s.posted, p.who.agent = .mat (s.core c).theTask.uid m.id) → t = s) ∧
      ((∀ p ∈ s.posted, p.who.agent ≠ .mat (s.core c).theTask.uid m.id) →
        let k := pushed (s.core c)
        ((∃ p ∈ k.cmp.eng.pushq, p.op = m.id) → t = s.onCore c pushed) ∧
        ((∀ p ∈ k.cmp.eng.pushq, p.op ≠ m.id) → (t.core c).cmp.mq = ms ∧ (t.core c).ctl.fpstat = fpstat (s.core c) m.flags ∧
          ∀ f, (t.core c).fifo f = k.fifo f))) ∧
    (∀ a ats, m.next < m.parts → s.shlim ≠ 0 → s.partBar c m = .shadow a ats →
      exec (.clockHold c) s =
        .next (s.onCore c (fun k => { k with hold := true, holdAt := s.clock }.offer
          { who := .matrix, va := BitVec.ofNat 64 a, ats := ats, arr := s.clock }))) ∧
    (let ends (t : State) (cause : Cause) (v : DWord) : Prop :=
        exec (.matrixWordFault c) s = .next ((t.flushPend c (t.matWho c m) m).onCore c (fun k => k.failMatrix cause v));
      m.next < m.parts →
        (∀ cause v, s.partBar c m = .fault cause v → ends s cause v) ∧
        (∀ w a, s.partBar c m = .tag w a → ends (s.tagError w) .eccUncorr (BitVec.ofNat 64 a)) ∧
        (∀ a ats, s.partBar c m = .shadow a ats → s.shlim = 0 → ends s .pageNotPresent (BitVec.ofNat 64 a))) ∧
    (∀ (k : Core) (cause : Cause) (v : DWord), k.cmp.mq = m :: ms →
      let f : EngFault := { eng := some .cmp, serial := m.serial, cause := cause, tval := v, waddr := m.waddr, frag := m.frag,
                            tag := m.tag, hyp := m.hyp }
      let t := k.failMatrix cause v
      t.cmp.mq = [] ∧ t.faults = k.faults ++ [f] ∧ t.cmp.doomed = some m.serial ∧ t.ctl.fpstat = fpstat k m.flags ∧ t.ctl.woken = true ∧
        t.cmp.eng.pushq = k.cmp.eng.pushq.filter (fun p => !(m :: ms).any (fun w => p.op == w.id)) ∧
        (∀ e, t.fifo e = k.fifo e) ∧ t.cbuf = k.cbuf) ∧
    (∀ (x : BitVec 4) (ch : SlotChange), (s.core c).ctl.wait = .slot x ch →
      s.slotBusy (s.core c).theTask.ctx x = false →
      exec (.slotChangeRetire c) s = applySlot x ch { s with actCore := c, actSeq := .ctl })

/-- R44, R46, R88 to R94, R97 to R99, R217, R223, R227 to R229, R260. That a drain's bytes wait until their granule is
complete is the model's (log 28). What exactSum, roundTo and convert compute is Rounding's and Conversions'. -/
def Obligations.MatrixArithmetic : Prop :=
  ∀ (s : State) (c : CoreId) (m : MWord),
    let who := s.matWho c m
    let t := s.doPart c m
    let k := s.core c
    let k' := t.1.core c
    let e := m.next
    let old (i j : Nat) : DWord := k.tileBits m.acc i j
    let new (i j : Nat) : DWord := k'.tileBits m.acc i j
    let rows := if m.kind = .mmv then 8 else 64
    let real (sc : Nat) (w : ℝ) : Prop := (EType.value .ks8 sc).Is false w
    let pairs (g i j : Nat) : List (XVal × XVal) :=
      (List.range ((granuleDepth (dType m.da) (dType m.db)).getD 0)).filterMap (fun x =>
        let kk := g * (granuleDepth (dType m.da) (dType m.db)).getD 0 + x
        if dRow0 m.da + i < dRows m.da ∧ dCol0 m.da + kk < dCols m.da ∧ dRow0 m.db + kk < dRows m.db ∧ dCol0 m.db + j < dCols m.db then
          some (s.streamVal c who m.da m.ga (dRow0 m.da + i) (dCol0 m.da + kk), s.streamVal c who m.db m.gb (dRow0 m.db + kk) (dCol0 m.db + j))
        else none)
    let sum (g i j : Nat) : XVal := (exactSum m.rm ((pairs g i j).map (fun p => (p.1.mul p.2).1))).1
    let total (g i j : Nat) : XVal × Bool := exactSum m.rm [Fmt.a64.value (old i j).toNat, sum g i j]
    let invalid (g i j : Nat) : Prop := (∃ p ∈ pairs g i j, p.1.isSig = true ∨ p.2.isSig = true) ∨
      ((sum g i j).isNan = true ∧ ∀ p ∈ pairs g i j, p.1.isNan = false ∧ p.2.isNan = false)
    let quiet : List (FFlags → Bool) := [FFlags.dz, FFlags.of, FFlags.uf, FFlags.nx]
    let at_ (n : Nat) : Nat × Nat := (dRow0 m.da + n / 64, dCol0 m.da + n % 64)
    let stored (n : Nat) : Nat × Nat := if dT m.da then ((at_ n).2, (at_ n).1) else at_ n
    let inside (n : Nat) : Prop := n < 4096 ∧ (at_ n).1 < dRows m.da ∧ (at_ n).2 < dCols m.da
    let x (n : Nat) : XVal := Fmt.a64.value (old (n / 64) (n % 64)).toNat
    let block (n n' : Nat) : Prop := inside n' ∧ (stored n').1 / 2 ^ dBh m.da = (stored n).1 / 2 ^ dBh m.da ∧
      (stored n').2 / 2 ^ dBw m.da = (stored n).2 / 2 ^ dBw m.da
    let v := s.drainBitsOf c who m e
    let p := dElemAddr m.da (at_ e).1 (at_ e).2
    let n := elemBytes (dType m.da)
    let scaleAt := dScaleAddr m.da (at_ e).1 (at_ e).2
    let byte (a w : Nat) : PendByte :=
      { a := a, leaf := s.destLeaf who m.da a, lo := some (BitVec.ofNat 4 w), hi := some (BitVec.ofNat 4 (w / 16)) }
    let nibble (hi : Bool) (w : Nat) : PendByte :=
      { a := p.1, leaf := s.destLeaf who m.da p.1, lo := if hi then none else some (BitVec.ofNat 4 w), hi := if hi then some (BitVec.ofNat 4 w) else none }
    let writesScale : Prop := dScaled m.da = true ∧ m.auto = true ∧ ∀ n' < e, ¬block e n'
    let set := (m.d8.toNat / 4 % 4)
    let bank (q : Core) : HistSet := (q.cmp.hist.toList[set]?).getD { }
    (m.kind = .mma ∨ m.kind = .mmv → m.parts = m.d8.toNat + 1 ∧ m.granule e = some e) ∧
    (m.kind = .mmaz → m.parts = m.d8.toNat + 2 ∧ m.granule e = if e = 0 then none else some (e - 1)) ∧
    ((∀ a b : EType, (a = .k8 ∨ a = .i8 ∨ a = .u8) → (b = .k8 ∨ b = .i8 ∨ b = .u8) → granuleDepth a b = some 8) ∧
      granuleDepth .k4 .k4 = some 16 ∧ granuleDepth .k4 .k8 = some 8 ∧ granuleDepth .k8 .k4 = some 8 ∧
      (∀ a b : EType, (a = .f16 ∨ a = .bf16) → (b = .f16 ∨ b = .bf16) → granuleDepth a b = some 4) ∧ granuleDepth .f32 .f32 = some 1) ∧
    (∀ i < 64, ∀ j < 64, ∀ b < 8, k.bufByte .cbuf (32768 * m.acc.toNat + 512 * i + 8 * j + b) = BitVec.ofNat 8 ((old i j).toNat / 256 ^ b)) ∧
    (∀ g, m.granule e = some g →
      (∀ i < 64, ∀ j < 64, new i j = if i < rows then BitVec.ofNat 64 (roundTo .a64 m.rm (total g i j).1).1 else old i j) ∧
      (t.2.flags.nv = true ↔ m.flags.nv = true ∨ ∃ i < rows, ∃ j < 64,
        (roundTo .a64 m.rm (total g i j).1).2.nv = true ∨ (total g i j).2 = true ∨ invalid g i j) ∧
      (∀ f ∈ quiet, f t.2.flags = true ↔ f m.flags = true ∨ ∃ i < rows, ∃ j < 64, f (roundTo .a64 m.rm (total g i j).1).2 = true)) ∧
    (m.kind = .accz ∨ (m.kind = .mmaz ∧ e = 0) → t.2.flags = m.flags ∧ ∀ i < 64, ∀ j < 64, new i j = 0) ∧
    (m.kind = .accld →
      let y (i j : Nat) : Nat × FFlags := if inside (64 * i + j) then
        convert false (s.streamVal c who m.da none (dRow0 m.da + i) (dCol0 m.da + j)) .a64 .rne false else (0, { });
      (∀ i < 64, ∀ j < 64, new i j = BitVec.ofNat 64 (y i j).1) ∧
      ∀ f ∈ FFlags.nv :: quiet, f t.2.flags = true ↔ f m.flags = true ∨ ∃ i < 64, ∃ j < 64, f (y i j).2 = true) ∧
    (∀ (d : BitVec 512) (r col : Nat),
      let st := if dT d then (col, r) else (r, col)
      let wrap (a : Nat) : Nat := if dSpace d = .glob then a % 2 ^ 64 else a
      let b := leNat (s.streamBytes c who d (dElemAddr d r col).1 (elemBytes (dType d)))
      let y := EType.value (dType d) (if dType d = .k4 then (if st.2 % 2 = 1 then b / 16 % 16 else b % 16) else b)
      let sc := leNat (s.streamBytes c who d (dScaleAddr d r col) 1)
      let z := s.streamVal c who d none r col
      dElemAddr d r col = (wrap (dBase d + st.1 * dStride d + if dType d = .k4 then st.2 / 2 else st.2 * elemBytes (dType d)),
        dType d == .k4 && st.2 % 2 == 1) ∧
      dScaleAddr d r col = wrap (dSbase d + st.1 / 2 ^ dBh d * dSstride d + st.2 / 2 ^ dBw d) ∧
      (∀ g, s.streamVal c who d (some g) r col = EType.value (dType d) ((genElement g (dType d) (dSeed d) r col).getD 0)) ∧
      (dScaled d = false → z = y) ∧
      (dScaled d = true → sc = 255 → z = .nan false) ∧
      (dScaled d = true → sc ≠ 255 → (∀ q, y = .inf q → z = .inf q) ∧ (∀ q, y = .nan q → z = .nan q) ∧
        ∀ q a w, y.Is q a → real sc w → z.Is q (a * w))) ∧
    (∀ (d : BitVec 512) (a q : Nat),
      (dSpace d ≠ .glob → s.peeks = [] → s.streamBytes c who d a q = k.bufBytes (dSpace d) a q) ∧
      (∀ l, dSpace d = .glob → s.peeks = [] → s.posted = [] → 0 < q → a % 2 ^ 16 + q ≤ 2 ^ 16 → s.access who .load a q = .ok l →
        s.streamBytes c who d a q = (List.range q).map (fun i => s.readByte who l (a + i) (l.pa + i)))) ∧
    (m.kind = .mdrain → e < 4096 →
      (m.drains e = true ↔ inside e) ∧
      (m.keeps e = true ↔ inside e ∧ dType m.da = .k4 ∧ ∀ n', n' ≠ e → inside n' → ¬((stored n').1 = (stored e).1 ∧ (stored n').2 / 2 = (stored e).2 / 2)) ∧
      (m.keeps e = true → m.nib = none → t.2.nib = some (s.destByte c who m.da p.1)) ∧
      (dSpace m.da ≠ .glob → ∀ a, s.destByte c who m.da a = k.bufByte (dSpace m.da) a) ∧
      (¬inside e → t.1 = s ∧ t.2.pend = m.pend ∧ t.2.flags = m.flags)) ∧
    (m.kind = .mdrain → inside e → (m.keeps e = m.nib.isSome) →
      t.2.flags = m.flags.or v.2 ∧
      (dScaled m.da = false → v = if dType m.da = .a64 then ((old (e / 64) (e % 64)).toNat, { }) else convert false (x e) (dType m.da) m.rm false) ∧
      (∀ r ∈ [(EType.k8, 127, (31 / 4 : ℝ)), (.k4, 7, 3)], dType m.da = r.1 → dScaled m.da = true →
        let fits (sc : Nat) : Prop := ∀ n', block e n' → (x n').isNan = true ∨ ∃ q y w, (x n').Is q y ∧ real sc w ∧ |y| ≤ r.2.2 * w
        let under (sc : Nat) : Prop :=
          (sc = 255 → v = (r.2.1 + 1, { nv := (x e).isSig })) ∧
          (sc ≠ 255 → (∀ g, x e = .nan g → v = (r.2.1 + 1, { nv := g })) ∧
            (∀ q, x e = .inf q → v = ((if q then r.2.1 + 1 else 0) + r.2.1, { of := true, nx := true })) ∧
            ∀ q y w, (x e).Is q y → real sc w → Krytip r.1 r.2.1 m.rm q (|y| / w) v)
        let waiting (sc : Nat) : List PendByte := if writesScale then [byte scaleAt sc] else [];
        ∃ sc, under sc ∧
          (m.auto = false → sc = leNat (s.streamBytes c who m.da scaleAt 1)) ∧
          (m.auto = true → sc < 255 ∧ (∀ sc' < sc, ¬fits sc') ∧ (fits sc ∨ sc = 254)) ∧
          s.drainPend c who m e = (match m.nib with
            | some b => [byte p.1 (if p.2 then b.toNat % 16 + 16 * (v.1 % 16) else b.toNat / 16 * 16 + v.1 % 16)]
            | none => if r.1 = .k4 then [nibble p.2 v.1] else [byte p.1 v.1]) ++ waiting sc) ∧
      (dScaled m.da = false → dType m.da ≠ .k4 → s.drainPend c who m e = (List.range n).map (fun b => byte (p.1 + b) (v.1 / 256 ^ b))) ∧
      (dScaled m.da = false → dType m.da = .k4 → s.drainPend c who m e = match m.nib with
        | some b => [byte p.1 (if p.2 then b.toNat % 16 + 16 * (v.1 % 16) else b.toNat / 16 * 16 + v.1 % 16)]
        | none => [nibble p.2 v.1]) ∧
      (let out := m.pend ++ s.drainPend c who m e
      t.2.pend = out.filter (fun q => !(m.completes e).contains (q.a / 16)) ∧
      (dSpace m.da ≠ .glob →
        let touched (n' g : Nat) : Prop :=
          (∃ b < n, g = ((dElemAddr m.da (at_ n').1 (at_ n').2).1 + b) / 16) ∨
          (dScaled m.da = true ∧ m.auto = true ∧ g = dScaleAddr m.da (at_ n').1 (at_ n').2 / 16);
        ∀ g, g ∈ m.completes e ↔ touched e g ∧ ∀ n', e < n' → inside n' → ¬touched n' g) ∧
      (∀ sp ∈ [Space.abuf, .wbuf], dSpace m.da = sp →
        let last (a : Nat) (hi : Bool) : BitVec 4 :=
          (((out.filter (fun q => q.a == a)).filterMap (fun q => if hi then q.hi else q.lo)).getLast?).getD
            (BitVec.ofNat 4 ((k.bufByte sp a).toNat / if hi then 16 else 1));
        (∀ a, a / 16 ∈ m.completes e → k'.bufByte sp a = BitVec.ofNat 8 ((last a false).toNat + 16 * (last a true).toNat)) ∧
        (∀ a, a / 16 ∉ m.completes e → k'.bufByte sp a = k.bufByte sp a) ∧
        (dClearRead m.da = false → ∀ q ∈ s.drainPend c who m e, q.a / 16 ∈ m.completes e → q.a / 16 ∉ k'.empties sp) ∧
        ∀ i j, new i j = old i j) ∧
      (∀ l, dSpace m.da = .glob → m.pend = [] → dType m.da ≠ .k4 → dScaled m.da = false → s.destLeaf who m.da p.1 = some l →
        p.1 % 16 + n ≤ 16 → m.completes e = [p.1 / 16] →
        let w := (s.dropLater who .glob l.dev l.pa n).writeLeaf who l p.1 ((List.range n).map (fun b => BitVec.ofNat 8 (v.1 / 256 ^ b)))
        t.1.mem = w.mem ∧ t.1.posted = w.posted)) ∧
      (∀ q, q ≠ set → k'.cmp.hist.toList[q]? = k.cmp.hist.toList[q]?) ∧ (bank k').hmin = (bank k).hmin ∧
      (∀ b < 32, ((bank k').ctr.toList[b]?).getD 0 =
        let w := ((bank k).ctr.toList[b]?).getD 0
        if m.d8.getLsbD 4 = true ∧ histBin (bank k).hmin.toInt (x e) = b ∧ w ≠ BitVec.allOnes 32 then w + 1 else w)) ∧
    (∀ (hmin : Int) (y : XVal), (y.isNan = true ∨ (∃ q, y = .inf q) → histBin hmin y = 31) ∧ (∀ q, y.Is q 0 → histBin hmin y = 0) ∧
      ∀ q r, y.Is q r → r ≠ 0 → ∀ l : Int, (2 : ℝ) ^ l ≤ |r| → |r| < (2 : ℝ) ^ (l + 1) →
        histBin hmin y = (max 1 (min 30 (l - hmin + 1))).toNat)

/-- R150, R243 to R245. What the float operations compute is Rounding's and Conversions'. -/
def Obligations.GeneratorIntegers : Prop :=
  ∀ (s : State) (v : GenEval) (d a b : BitVec 4) (imm : BitVec 14) (n : BitVec 6), (s.here).ogu = some v →
    let set (w : GenEval) : Out := .next (s.onHere (fun k => { k with ogu := some w }))
    let gives (x : Word) : Out := set ((v.setReg d x).advance)
    let f (r : BitVec 4) : XVal := EType.value .f32 (v.reg r).toNat
    let nan := (f a).isNan || (f b).isNan
    (∀ r ∈ genRows, ∃ x, r.r 32 (v.reg a) (v.reg b) x ∧ exec (r.word d a b) s = gives x) ∧
    (∃ x, relAdd 32 (v.reg a) (BitVec.ofInt 32 imm.toInt) x ∧ exec (.genAddi d a imm) s = gives x) ∧
    (∃ x, relXor 32 (v.reg a) (BitVec.ofNat 32 imm.toNat) x ∧ exec (.genXori d a imm) s = gives x) ∧
    exec (.genLi d imm) s = gives (BitVec.ofInt 32 imm.toInt) ∧
    exec (.genLui d imm) s = gives (BitVec.ofNat 32 (imm.toNat * 2 ^ 18)) ∧
    exec (.genHash d a b) s = gives (hash32 (v.reg a ^^^ v.reg b)) ∧
    exec (.genSel d a b) s = gives (if (v.reg d).toNat = 0 then v.reg b else v.reg a) ∧
    exec (.genUnif d a) s = gives (unifF32 (v.reg a)) ∧
    exec (.genRade d a) s = gives (if (v.reg a).toNat % 2 = 1 then 0xBF800000 else 0x3F800000) ∧
    exec (.genFadd d a b) s = gives (BitVec.ofNat 32 (addIn .f32 .rne (f a) (f b)).1) ∧
    exec (.genFmul d a b) s = gives (BitVec.ofNat 32 (mulIn .f32 .rne (f a) (f b)).1) ∧
    exec (.genFfma d a b) s = gives (BitVec.ofNat 32 (fmaIn .f32 .rne (f a) (f b) (f d)).1) ∧
    exec (.genI2f d a) s = gives (BitVec.ofNat 32 (roundTo .f32 .rne (XVal.ofInt (v.reg a).toInt)).1) ∧
    exec (.genFneg d a) s = gives (if (f a).isNan then 0x7FC00000 else v.reg a ^^^ 0x80000000) ∧
    exec (.genFmin d a b) s = gives (if nan then 0x7FC00000 else if f32Less (v.reg b) (v.reg a) then v.reg b else v.reg a) ∧
    exec (.genFmax d a b) s = gives (if nan then 0x7FC00000 else if f32Less (v.reg a) (v.reg b) then v.reg b else v.reg a) ∧
    exec (.genLoop a n) s = set (if (v.reg a).toNat = 0 then
        { v with pc := (nextWord (v.pc + n.toNat) v.loops).1, loops := (nextWord (v.pc + n.toNat) v.loops).2, count := v.count + 1 }
      else { v with pc := v.pc + 1, loops := { first := v.pc + 1, last := v.pc + n.toNat, count := (v.reg a).toNat } :: v.loops,
                    count := v.count + 1 }) ∧
    exec (.genOut a) s = set { v.advance with out := some (some (convert false (f a) v.ety .rne true).1) } ∧
    exec (.genOuti a) s = set { v.advance with out := some (some (convert true (XVal.ofInt (v.reg a).toInt) v.ety .rne true).1) }

/-- R262, R264 to R273, R276. The bytes after a confirm and a refute are stated where no lifetime entry, tag, window
or pool page meets them; those are of MemoryManagement and of log 67. -/
def Obligations.Hypotheses : Prop :=
  ∀ (s : State) (d a b : BitVec 5),
    let x := s.myCtx
    let c := s.ctx x
    let v := s.sreg a
    let h : HypId := v.setWidth 8
    let dead (y : DWord) : Out := .next (s.ctlTrap .hypDead y)
    ((∀ g, g ∈ c.freeIds ↔ g ≠ 0 ∧ c.hyp g = none) ∧ c.freeIds.Pairwise (· < ·)) ∧
    (v.toNat < 2 ^ 16 → c.rootOrLive h = true →
      (c.freeIds = [] → exec (.hopen d a) s = .next (s.setSreg d 0).retire) ∧
      (∀ g gs, c.freeIds = g :: gs → exec (.hopen d a) s =
        .next ((s.onCtx x (fun c => c.alloc g h (v.extractLsb' 8 8))).setSreg d (g.setWidth 64)).retire)) ∧
    (2 ^ 16 ≤ v.toNat → exec (.hopen d a) s = .next (s.ctlTrap .reservedField v)) ∧
    (v.toNat < 2 ^ 16 → c.rootOrLive h = false → exec (.hopen d a) s = dead (h.setWidth 64)) ∧
    (∀ k, k = v.toNat % 64 → 1 ≤ k → k ≤ 32 → v.toNat / 2 ^ 6 % 4 = 0 → v.toNat < 2 ^ 16 →
      let ids := c.freeIds.take k
      (ids.length < k → exec (.hwin d a) s = .next (s.setSreg d 0).retire) ∧
      (∀ m ms, ids.length = k → ids = m :: ms → exec (.hwin d a) s = .next ((s.onCtx x (fun c =>
        let e := c.allocChain s.liveHcur (v.extractLsb' 8 8) ids
        { e with wins := e.wins ++ [{ name := m, members := ids }] })).setSreg d (m.setWidth 64)).retire)) ∧
    (v.toNat < 2 ^ 8 → c.rootOrLive h = true →
      exec (.hset a) s = .next (s.onCtl (fun k => { k with hcur := h })).retire) ∧
    (v.toNat < 2 ^ 8 → c.liveAtRoot h = true → exec (.hresolve a true) s = .next (s.confirm x h).retire) ∧
    (v.toNat < 2 ^ 8 → c.liveAtRoot h = false → exec (.hresolve a true) s = dead (h.setWidth 64)) ∧
    (v.toNat < 2 ^ 8 → c.isLive h = true → exec (.hresolve a false) s = .next (s.refute x h).retire) ∧
    (v.toNat < 2 ^ 8 → c.isLive h = false → exec (.hresolve a false) s = dead (h.setWidth 64)) ∧
    (∀ u, v.toNat < 2 ^ 8 → c.window h = some u → c.liveAtRoot h = true →
      (s.sreg b).toNat ≤ (c.leading u.members).length →
      exec (.hcommit a b) s = .next (s.hcommit x u (s.sreg b).toNat).retire) ∧
    (exec (.hstat d a) s = .next (s.setSreg d (c.hstat v)).retire) ∧
    (∀ g y, ((s.refute x h).ctx x).hyp g = some y ↔
      ∃ z, c.hyp g = some z ∧ y = if g ∈ c.subtree h then { z with state := .refuted } else z) ∧
    (∀ w ∈ ((s.refute x h).ctx x).vers, w.hyp ∉ c.subtree h) ∧
    (∀ y, c.hyp h = some y → ∃ z, ((s.confirm x h).ctx x).hyp h = some z ∧ z.state = .confirmed ∧ z.id = h) ∧
    (∀ g ∈ c.siblings h, g ≠ 0 → c.isLive g = true → ((s.confirm x h).ctx x).isRefuted g = true) ∧
    (∀ w ∈ ((s.confirm x h).ctx x).vers, w.hyp ≠ h) ∧
    (∀ (w : HypWin) (n : Nat),
      let lead := c.leading w.members
      let t := (lead.take n).foldl (fun t m => t.confirm x m) s
      (n < lead.length → ∀ m, lead[n]? = some m →
        s.hcommit x w n = (t.refute x m).onCtx x (fun c => { c with wins := c.wins.filter (fun u => u != w) })) ∧
      (n = lead.length → s.hcommit x w n = t.onCtx x (fun c => { c with wins := c.wins.filter (fun u => u != w) }))) ∧
    (let makes (t : State) (z : BitVec 6) (g : HypId) (pa : Nat) (bs : List Byte) : Prop :=
        (∀ q, t.phys q = s.phys q) ∧
        (∀ i < bs.length, (t.ctx z).version g (pa + i) = bs[i]?) ∧
        (s.tlt = [] → ∀ w : Ver, (w.hyp = g ∧ pa ≤ w.pa ∧ w.pa < pa + bs.length) ∨ (w ∈ (t.ctx z).vers ↔ w ∈ (s.ctx z).vers))
      let here (l : Leaf) : Prop := l.dev = none ∧ l.filter = false ∧ s.windowAt l.pa = none ∧ isPcie l.pa = false;
      (∀ (who : Who) (l : Leaf) (va : Nat) (bs : List Byte), here l → who.hyp ≠ 0 →
        ((s.ctx who.ctx).isLive who.hyp = true → makes (s.writeLeaf who l va bs) who.ctx who.hyp l.pa bs) ∧
        ((s.ctx who.ctx).isRefuted who.hyp = true → s.writeLeaf who l va bs = s)) ∧
      (∀ p ∈ storeRows, ∀ (imm : BitVec 16) (l : Leaf),
        let ea : DWord := v + imm.signExtend 64
        let g := (s.here).ctl.hcur
        ea.toNat % p.n = 0 → s.access s.ctlWho .store ea.toNat p.n = .ok l → l.mside = false → here l → g ≠ 0 →
        ∃ t, exec (p.word b a imm) s = .next t ∧ (∀ r, t.sreg r = s.sreg r) ∧
          (c.isLive g = true → makes t x g l.pa (leBytes p.n (s.sreg b).toNat)) ∧
          (c.isRefuted g = true → (∀ q, t.phys q = s.phys q) ∧ (t.ctx x).vers = c.vers))) ∧
    (∀ (who : Who) (l : Leaf) (va pa : Nat), l.dev = none → s.windowAt pa = none →
      (∀ y, who.hyp ≠ 0 → (s.ctx who.ctx).version who.hyp pa = some y → s.readByte who l va pa = y) ∧
      (who.hyp = 0 ∨ (s.ctx who.ctx).version who.hyp pa = none → s.tlt = [] → s.stale = [] → s.tags = [] →
        s.readByte who l va pa = s.phys pa)) ∧
    (let has (g : HypId) (pa : Nat) : Prop := ∃ w ∈ c.vers, w.hyp = g ∧ w.pa = pa;
      (∀ (g : HypId) (pa : Nat), c.version g pa = none ↔ ∀ e ∈ c.path 256 g, ¬has e pa) ∧
      (∀ (g e : HypId) (pa : Nat) (pre post : List HypId) (w : Ver), c.path 256 g = pre ++ e :: post → (∀ i ∈ pre, ¬has i pa) →
        c.vers.find? (fun w => w.hyp == e && w.pa == pa) = some w → c.version g pa = some w.val) ∧
      (∀ n, c.path (n + 1) 0 = []) ∧
      (∀ (n : Nat) (g : HypId) (y : Hyp), g ≠ 0 → c.hyp g = some y →
        c.path (n + 1) g = if y.state = .live then g :: c.path n y.parent else [])) ∧
    (s.windows = [] → s.tags = [] → s.tlt = [] → s.stale = [] → c.allocs = [] → c.frees = [] →
      (∀ w ∈ c.vers, w.hyp = h → w.enc = 0) → ((c.vers.filter (fun w => w.hyp == h)).map (·.pa)).Nodup →
      (∀ w ∈ c.vers, w.hyp = h → w.behind = false → (s.confirm x h).phys w.pa = w.val) ∧
      (∀ q, (∀ w ∈ c.vers, w.hyp = h → w.pa = q → w.behind = true) → (s.confirm x h).phys q = s.phys q)) ∧
    ((∀ r ∈ c.allocs, r.hyp ∉ c.subtree h) → ∀ q, (s.refute x h).phys q = s.phys q)

/-- R49, R51, R59, R157, R158, R236, R238 to R240, R258, R275, R278 to R280, R314. -/
def Obligations.MemoryManagement : Prop :=
  ∀ (s : State) (d a b : BitVec 5) (n : BitVec 4),
    let x := s.myCtx
    let put (g : Option GenSlot) : Out := .next (s.onCtx x (fun c => c.setSlot n g)).retireWait
    let waits (c : SlotChange) : Out := .next (s.onHere (fun k => k.setWait .ctl (.slot n c)))
    let idle : Prop := s.slotBusy x n = false
    let va := (s.sreg a).toNat
    (∀ hd bs, va % 4 = 0 → s.fetchImage va 32 = .ok hd → imageHeaderOk hd = true →
      s.fetchImage (va + 32) (4 * fieldAt hd 16 2) = .ok bs → badGenWord 0 (wordsOf bs) = none →
      badShape (wordsOf bs).length 0 [] (wordsOf bs) = none →
      (idle → exec (.gload a n) s = put (some (slotOf hd (wordsOf bs)))) ∧
      (¬idle → exec (.gload a n) s = waits (.load (slotOf hd (wordsOf bs))))) ∧
    (idle → exec (.gfree n) s = put none) ∧ (¬idle → exec (.gfree n) s = waits .free) ∧
    (∀ g, idle → (s.ctx x).slot n = some g →
      exec (.gparam a n) s = put (some { g with p := (s.here).ctl.params g a })) ∧
    (idle → (s.ctx x).slot n = none → exec (.gparam a n) s = .next (s.ctlTrap .genSlot (n.setWidth 64))) ∧
    (¬idle → exec (.gparam a n) s = waits (.param a)) ∧
    (∀ g : GenSlot, ∀ i : Fin 4, ((s.here).ctl.params g a)[i] =
      if i.val < g.params then (s.sreg (a + BitVec.ofNat 5 i.val)).setWidth 32 else 0) ∧
    (∀ bs u p, (s.sreg a).toNat ≤ 15 → s.load s.poolWho .load (s.poolVa va) 64 = .ok (bs, u) → p = poolOf bs → p.ok = true →
      s.liveHcur = 0 ∨ s.recordFree = true →
      (s.findClear p (pagesOf p.map ((p.npages + 7) / 8)) = .ok none →
        exec (.palloc d a) s = .next (s.setSreg d 0).retire) ∧
      (∀ i lm lo, s.findClear p (pagesOf p.map ((p.npages + 7) / 8)) = .ok (some (i, lm)) →
        s.poolAccess (p.owner + i) 1 = .ok lo →
        exec (.palloc d a) s =
          .next ((s.takePage p i lm lo).setSreg d (BitVec.ofNat 64 (p.base + i * 2 ^ p.pshift))).retire)) ∧
    (s.poolOfPage va (List.range 16) = .ok none → exec (.pfree a) s = .next s.retire) ∧
    (∀ p lm lo, s.poolOfPage va (List.range 16) = .ok (some p) → p.ok = true → va % 2 ^ p.pshift = 0 →
      s.poolAccess (p.map + (va - p.base) / 2 ^ p.pshift / 8) 1 = .ok lm →
      s.poolAccess (p.owner + (va - p.base) / 2 ^ p.pshift) 1 = .ok lo →
      let r := poolRec p s.liveHcur ((va - p.base) / 2 ^ p.pshift) lm lo
      (s.liveHcur = 0 → exec (.pfree a) s = .next (s.freePage x r).retire) ∧
      (s.liveHcur ≠ 0 → s.recordFree = true →
        exec (.pfree a) s = .next (s.onCtx x (fun c => { c with frees := c.frees ++ [r] })).retire)) ∧
    (let len := (s.sreg b).toNat;
      let u := s.freeSameBase x va
      let uses := (s.sreg d).toNat
      va % 128 = 0 → len % 128 = 0 → len ≠ 0 → va + len ≤ 2 ^ 56 →
      ((1 ≤ uses ∧ uses ≤ 65535 ∧ u.tlt.any (fun t => t.meets x va len) = false) →
        (∀ m, u.freeTlt (dieOf s.actCore) = some m → exec (.tltset d a b) s = .next (({ u with tlt :=
          u.tlt ++ [({ idx := m, ctx := x, base := va, len := len, state := .live uses } : TltEnt)] }).setSreg d (BitVec.ofNat 64 m)).retire) ∧
        (u.freeTlt (dieOf s.actCore) = none → exec (.tltset d a b) s = .next (u.setSreg d (BitVec.allOnes 64)).retire)) ∧
      (uses = 0 ∨ 65535 < uses ∨ u.tlt.any (fun t => t.meets x va len) = true →
        exec (.tltset d a b) s = .next (u.setSreg d (BitVec.allOnes 64)).retire)) ∧
    (exec (.tltuse a) s = .next ((s.useTlt x va).1).retire) ∧
    (∀ (e : BitVec 8) (t : TltEnt), s.tlt.find? (fun t => t.idx == e.toNat && t.state == .draining) = some t →
      s.stillUsed t.idx = false → exec (.tltDrainComplete e) s =
        .next { s.onCtx t.ctx (fun (c : Ctx) =>
            let gone (w : Ver) : Bool := decide (t.base ≤ w.va) && decide (w.va < t.base + t.len)
            { c with vers := c.vers.filter (fun w => !gone w)
                     spent := (c.spent ++ (c.vers.filter gone).map (fun (w : Ver) => (w.hyp, w.pa / 128))).dedup }) with
          tlt := s.tlt.map (fun y => if y.idx == t.idx then { y with state := .dead [] } else y) }) ∧
    (∀ m pas, m = mapArg (s.sreg b) → m.ok = true → va < 2 ^ 56 → va + 2 ^ 16 * m.n ≤ 2 ^ 56 → m.off % 2 ^ 16 = 0 →
      va % 2 ^ 16 = 0 → m.n ≠ 0 → m.off + 2 ^ 16 * m.n ≤ bufSize (Space.ofCode m.buf) →
      s.windowClash s.actCore n (Space.ofCode m.buf) m.off va (2 ^ 16 * m.n) = false →
      s.windowPages s.ctlWho ((List.range m.n).map (fun i => va + i * 2 ^ 16)) = .ok pas →
      s.unmapBarNo s.actCore n = none →
      exec (.mapw n a b) s = .next ({ (s.unmapNo s.actCore n).dropAhead with windows := (s.unmapNo s.actCore n).windows ++
        [({ core := s.actCore, w := n, buf := Space.ofCode m.buf, off := m.off, va := va, pas := pas } : Window)] }).retire) ∧
    (s.unmapBarNo s.actCore n = none → exec (.unmapw n) s = .next (s.unmapNo s.actCore n).retire) ∧
    (∀ at_, s.unmapBarNo s.actCore n = some at_ →
      exec (.unmapw n) s = .next (s.ctlTrap .linkDown (BitVec.ofNat 64 at_)))

/-- R166, R170, R173 to R179, R184 to R187. A deferred word that has not taken its tokens is log 45; the units' and
jobs' points in time are log 11; the order of a step's checks is log 76, and that a running job counts no more in its
engine's queue log 75. -/
def Obligations.CopiesAndMedia : Prop :=
  ∀ (s : State) (t : Tok) (x y : BitVec 4) (z : BitVec 3) (src dst : Space) (use : Bool),
    let u := s.taken t
    let op (w : State) (kind : CopyKind) (a : BitVec 4) (sp : Space) : CopyOp :=
      { kind := kind, dst := w.areg x, src := w.areg a, dsp := dst, ssp := sp, box := w.bxreg z, unit := 0, held := false,
        tlt := none }
    let used := u.useTlt u.myCtx (if src = .glob then u.areg y else u.areg x).toNat
    let starts (kind : CopyKind) : Out :=
      if use then .next (used.1.onHere (fun k => k.startCopy s.actSts t { op u kind y src with tlt := used.2 }))
      else .next (u.onHere (fun k => k.startCopy s.actSts t (op u kind y src)))
    (s.takes t → copyCheck (op s .copy y src) s = .go → exec (.copy t x y z src dst use) s = starts .copy) ∧
    (s.takes t → copyCheck (op s .gath y src) s = .go → exec (.gath t x y z src dst use) s = starts .gath) ∧
    (s.takes t → copyCheck (op s .scat y src) s = .go → exec (.scat t x y z src dst use) s = starts .scat) ∧
    (s.takes t → copyCheck (op s .zero 0 .glob) s = .go → exec (.zero t x z dst) s =
      .next (u.onHere (fun k => k.startCopy s.actSts t (op u .zero 0 .glob)))) ∧
    (∀ (k : Core) (sts : Bool) (p : CopyOp),
      let o := k.newOp (xferEng sts) t (.copy p)
      let ops := ((k.startCopy sts t p).xfer sts).ops
      o.id = (k.eng (xferEng sts)).nextOp ∧ o.sig = (t.sp || t.sn) ∧
      (bxEmpty p.box = false → ops = (k.xfer sts).ops ++ [o]) ∧
      (bxEmpty p.box = true → ops = (k.xfer sts).ops.filter (fun q => q.id != o.id))) ∧
    (∀ (k : Core) (sts : Bool) (id : Nat) (poison : Bool),
      let e := xferEng sts
      let w := k.onXfer sts (fun q => { q with ops := q.ops.filter (fun o => o.id != id) })
      (k.eng e).wait ≠ .overlap →
        k.endOp e sts id poison true = w.onEng e (fun g => { g with pushq := g.pushq.filter (fun p => p.op != id) }) ∧
        k.endOp e sts id poison false = (w.onEng e (fun g => { g with pushq := g.pushq.map (fun p =>
          if p.op = id then { p with ready := true, poison := poison } else p) })).drainPushes e) ∧
    (∀ (p : CopyOp) (j : Nat),
      let b := p.box
      let r := p.unit / bxRowUnits b
      let q := p.unit % bxRowUnits b
      let row (base : DWord) (st : Nat → Int) (i : Nat) : Option DWord := some (base
        + BitVec.ofInt 64 ((i : Int) * st 1 + (r / bxExt b 1 % bxExt b 2 : Nat) * st 2
          + (r / (bxExt b 1 * bxExt b 2) % bxExt b 3 : Nat) * st 3
          + (r / (bxExt b 1 * bxExt b 2 * bxExt b 3) % bxExt b 4 : Nat) * st 4) + BitVec.ofNat 64 (128 * q))
      let i := r % bxExt b 1
      let n := min 128 (bxE0 b - 128 * q)
      let hole : Prop := j = 0xFFFFFFFF
      (p.kind = .copy → p.plan j = { src := row p.src (bxSs b) i, dst := row p.dst (bxDs b) i, n := n }) ∧
      (p.kind = .zero → p.plan j = { src := none, dst := row p.dst (bxDs b) i, n := n }) ∧
      (p.kind = .gath → p.plan j = { src := if hole then none else row p.src (bxSs b) j, dst := row p.dst (bxDs b) i, n := n }) ∧
      (p.kind = .scat →
        p.plan j = if hole then { src := none, dst := none, n := n }
          else { src := row p.src (bxSs b) i, dst := row p.dst (bxDs b) j, n := n })) ∧
    (∀ (c : CoreId) (e : Engine) (sts : Bool) (id n : Nat) (o : Op) (p : CopyOp),
      stsOf e = some sts → ((s.core c).xfer sts).op id = some o → o.kind = .copy p → p.held = false → s.halts c = false →
      let who := s.opWho c sts o
      let ends (w : State) : State := w.onCore c (fun k => k.endOp e sts o.id false (w.opRefuted c o))
      let stops (w : State) (cause : Cause) (a : Nat) : State := w.onCore c (fun k =>
        let q := k.endOp e sts o.id true (w.opRefuted c o)
        if o.sig then q else q.post (o.report e cause a))
      (∀ w : State, ((∃ q ∈ w.posted, q.who.agent = (w.opWho c sts o).agent) → w.endCopy c e sts o = w) ∧
        ((∀ q ∈ w.posted, q.who.agent ≠ (w.opWho c sts o).agent) → w.endCopy c e sts o = ends w)) ∧
      (bxUnits p.box ≤ p.unit → exec (.copyComplete c e id (n + 1)) s = .next (s.endCopy c e sts o)) ∧
      (p.unit < bxUnits p.box →
        (∀ j plan, s.unitOf (s.core c) who p = .ok (j, plan) →
          let o' : Op := { o with kind := .copy { p with unit := p.unit + 1, row := some (p.rowNo, j), done := [] } }
          let w := (s.doUnit c who p plan).onCore c (fun k => k.onXfer sts (fun q => q.setOp o'))
          exec (.copyComplete c e id (n + 1)) s =
            .next (if p.unit + 1 < bxUnits p.box then w.runUnits c e sts id n else w.endCopy c e sts o')) ∧
        (s.unitOf (s.core c) who p = .error .wait → exec (.copyComplete c e id (n + 1)) s = .next s) ∧
        (∀ cause a, s.unitOf (s.core c) who p = .error (.fault cause a) →
          exec (.copyUnitFault c e id) s = .next (stops s cause a)) ∧
        (∀ w a, s.unitOf (s.core c) who p = .error (.tag w a) →
          exec (.copyUnitFault c e id) s = .next (stops (s.tagError w) .eccUncorr a)) ∧
        (∀ a ats, s.unitOf (s.core c) who p = .error (.shadow a ats) →
          (s.shlim = 0 → exec (.copyUnitFault c e id) s = .next (stops s .pageNotPresent a)) ∧
          (s.shlim ≠ 0 → exec (.copyComplete c e id (n + 1)) s = .next (s.onCore c (fun k =>
            (k.onXfer sts (fun q => q.setOp { o with kind := .copy { p with held := true } })).offer
              { who := .step e o.id, va := BitVec.ofNat 64 a, ats := ats, arr := s.clock })))))) ∧
    (∀ (c : CoreId) (who : Who) (p : CopyOp) (plan : UnitPlan),
      (plan.dst = none → s.doUnit c who p plan = s) ∧
      (plan.src = none → s.unitBytes (s.core c) who p plan = List.replicate plan.n 0) ∧
      (∀ a, plan.dst = some a → p.done = [] →
        (∀ w, p.dsp = .glob → s.engineStore who a.toNat (s.unitBytes (s.core c) who p plan) = .ok w →
          s.doUnit c who p plan = w) ∧
        (p.dsp = .abuf ∨ p.dsp = .wbuf →
          let bs := s.unitBytes (s.core c) who p plan
          let w := (s.doUnit c who p plan).core c
          (∀ q, w.bufByte p.dsp q = if a.toNat ≤ q ∧ q < a.toNat + bs.length then (bs[q - a.toNat]?).getD 0
            else (s.core c).bufByte p.dsp q) ∧
          ∀ g, g ∈ w.empties p.dsp ↔ g ∈ (s.core c).empties p.dsp ∧ g ∉ granules a.toNat bs.length))) ∧
    (∀ r, s.takes t → mdecRead (s.areg x) s = .ok r → mdecRead (u.areg x) u = .ok r →
      exec (.mdec t x) s = .next (placeJob t r u)) ∧
    (∀ (r : List Byte) (w : State),
      let m := w.mediaPick r
      let v := placeJob t r w
      (∃ j : MdecJob, v.media[m].queue = w.media[m].queue ++ [j] ∧ j.record = r ∧ j.op = ((w.here).eng w.actEng).nextOp ∧
        j.sts = w.actSts ∧ j.who.die = 4 ∧ j.who.ctx = w.engWho.ctx ∧ j.uid = (w.here).theTask.uid ∧ j.slot = (w.here).theTask.slot ∧ j.held = false ∧ j.bits = none ∧
        j.pos = 0 ∧ j.stat = false ∧ j.fin = false) ∧
      v.media[m].job = w.media[m].job ∧ (∀ i : Fin 4, i ≠ m → v.media[i] = w.media[i]) ∧
      (jobEngine r < 4 → m.val = jobEngine r) ∧
      (¬jobEngine r < 4 → ∀ i : Fin 4, w.media[m].queue.length ≤ w.media[i].queue.length ∧
        (i < m → w.media[m].queue.length < w.media[i].queue.length))) ∧
    (∀ (c : CoreId) (e : Engine) (r : List Byte), ((s.core c).eng e).wait = .mdecQueue → s.engGoes c e = true →
      (s.core c).instrAt e.seqr (fetchOf e) (engWords e) ((s.core c).eng e).pc = .mdec t x →
      let w := { s.onCore c (fun k => k.setWait e.seqr .none) with actCore := c, actSeq := e.seqr }
      w.takes t → mdecRead (w.areg x) w = .ok r → mdecRead ((w.taken t).areg x) (w.taken t) = .ok r →
      exec (.mdecQueuePlace c e) s = .next (placeJob t r (w.taken t))) ∧
    (∀ (m : BitVec 2) (i : Fin 4) (j : MdecJob) (js : List MdecJob), i.val = m.toNat → s.media[i].job = none →
      s.media[i].queue = j :: js →
      exec (.mediaDecodeJob m) s = .next { s with media := s.media.set i { queue := js, job := some j } }) ∧
    (∀ (m : BitVec 2) (i : Fin 4), i.val = m.toNat →
      let stage (w : State) : State := w.jobStage i jobAll
      exec (.mediaDecodeComplete m) s = .next (stage (stage (stage (stage s))))) ∧
    (∀ (i : Fin 4) (n : Nat) (j : MdecJob) (k : Core) (o : Op), s.media[i].job = some j →
      s.taskCore j.slot j.uid = some k → (k.xfer j.sts).op j.op = some o → j.held = false →
      (∀ q ∈ (k.xfer j.sts).ops, q.id < j.op → q.completed = true) →
      (j.fin = true → (∀ q ∈ s.posted, q.who.agent ≠ j.who.agent) → s.jobStage i n = (s.setJob i none).endJob j o) ∧
      (j.fin = true → (∃ q ∈ s.posted, q.who.agent = j.who.agent) → s.jobStage i n = s) ∧
      (j.fin = false → j.stat = true → ∀ v, s.store j.who (jobStat j.record)
          (leBytes 4 j.result.1 ++ leBytes 4 j.result.2 ++ List.replicate 8 0) = .ok v →
        s.jobStage i n = v.setJob i (some { j with fin := true })) ∧
      (j.fin = false → j.stat = false →
        (j.bits = none → ∀ bs v, s.load j.who .load (jobSrc j.record) (jobLen j.record) = .ok (bs, v) →
          s.jobStage i n = v.setJob i (some { j with bits := some bs })) ∧
        (∀ bs v m, j.bits = some bs →
          s.writeParts j.who n ((jobPlan j.record bs).parts.drop j.pos) = (v, m, none) →
          s.jobStage i n = v.setJob i (some { j with
            pos := j.pos + m, stat := decide ((jobPlan j.record bs).parts.length ≤ j.pos + m) })))) ∧
    (∀ (c : CoreId) (e : Engine) (n d : BitVec 4) (v : BitVec 5) (g : BitVec 2) (b : Bool) (arg : XferSemArg),
      ((s.core c).eng e).wait = .deferred → s.engGoes c e = true →
      let w := { s.onCore c (fun k => k.setWait e.seqr .none) with actCore := c, actSeq := e.seqr }
      let at_ (i : Instr) : Prop := (s.core c).instrAt e.seqr (fetchOf e) (engWords e) ((s.core c).eng e).pc = i
      let settled : Prop := ∀ o ∈ ((w.here).xfer w.actSts).ops, o.completed = true
      let counts : Prop := ∃ m ∈ (w.here).cmp.mq, m.counts g = true
      let waits : Out := .next (w.onHere (fun k => k.setWait e.seqr .deferred))
      w.takes t →
      (at_ (.xferSemadd t n arg) → (settled → ∀ r, semSum ((w.here).sem n) (w.xferAddend arg).toInt = some r →
          exec (.deferredRetire c e) s = .next (w.past ((w.taken t).onHere (fun k => k.setSem n r)) t)) ∧
        (¬settled → exec (.deferredRetire c e) s = waits)) ∧
      (at_ (.tuse t d) →
        (settled → exec (.deferredRetire c e) s =
          .next (w.past ((w.taken t).useTlt (w.taken t).myCtx ((w.taken t).areg d).toNat).1 t)) ∧
        (¬settled → exec (.deferredRetire c e) s = waits)) ∧
      (at_ (.histrd t v g b) →
        (¬counts → exec (.deferredRetire c e) s = .next (w.past (histrdEffect v g b (w.taken t)) t)) ∧
        (counts → exec (.deferredRetire c e) s = waits)))

/-- R183, R261, R281 to R283, R289 to R297, R300. That what goes to a member out of reach is dropped with a fault
only, while the walk goes on and the sender's instance does not fail, is the model's reading (log 39, DEDUCED) of
R300's 'in the same way'. What a refused arming publishes is log 27, which staged line goes where log 62, and that an
ended task's instance acts no more log 26. -/
def Obligations.CollectivesAndFirefly : Prop :=
  ∀ s : State,
    let cut (w : State) (c : CoreId) (m : Word) : Prop :=
      (memberDev m = w.devid.toNat → w.linkUp (dieOf c) (dieOf (memberCore m)) = false) ∧
      (memberDev m ≠ w.devid.toNat → w.devReached (dieOf c) (memberDev m) = false)
    (∀ (t : Tok) (x : BitVec 4) (r : List Byte) (g : List Word), s.takes t → collRead x s = .ok (r, g) →
      collRead x (s.taken t) = .ok (r, g) → exec (.coll t x) s = .next (startColl t r g (s.taken t))) ∧
    (∀ (t : Tok) (r : List Byte) (g : List Word), ∃ (i : CollInst) (w : State),
      w.colls = s.colls ++ [i] ∧ i.num = s.collNum ∧ i.record = r ∧ i.group = g ∧ i.core = s.actCore ∧
      i.uid = (s.here).theTask.uid ∧ i.walk = 0 ∧ i.taken = 0 ∧ i.counted = 0 ∧ i.staged = [] ∧ i.localDone = false ∧
      w.collNum = s.collNum + 1 ∧ startColl t r g s = if crExpect r = 0 then w.localDone i else w) ∧
    (∀ (c : CoreId) (e : Engine) (sts : Bool) (id n num : Nat) (o : Op) (i : CollInst),
      stsOf e = some sts → s.halts c = false → ((s.core c).xfer sts).op id = some o → o.kind = .coll num false →
      s.inst num = some i → i.held = false → ((s.core c).xfer sts).settledBefore id = true →
      let who := i.sourceWho c
      let units := crBytes i.record / 128
      let w := (s.fillAll who (pagesOf i.saddr.toNat (crBytes i.record))).sendColl i (s.unitRead who i.saddr units)
      (s.unitFault who i.saddr units = none → exec (.srcFree c e id (n + 1)) s = .next (
        if i.walk + 1 < i.total then (w.setInst { i with walk := i.walk + 1 }).walkColl c e sts id n
        else (w.raiseEv i 0).endWalk i o false)) ∧
      (∀ ats a, s.unitFault who i.saddr units = some (.shadow ats, a) → s.shlim ≠ 0 →
        exec (.srcFree c e id (n + 1)) s = .next ((s.setInst { i with held := true }).onCore c (fun k =>
          k.offer { who := .step e id, va := BitVec.ofNat 64 a, ats := ats, arr := s.clock }))) ∧
      (∀ cause a, s.unitFault who i.saddr units = some (.trap cause, a) → exec (.srcFree c e id (n + 1)) s =
        .next (let v := s.endWalk i o true
          if o.sig then v else v.collFault i cause (BitVec.ofNat 64 a)))) ∧
    (∀ (i : CollInst) (bs : List Byte),
      (∀ x : InColl, memberDev i.peer = s.devid.toNat → s.linkUp (dieOf i.core) (dieOf (memberCore i.peer)) = true → x.ctx = i.who.ctx → x.tgt = memberCore i.peer →
        x.collid = crCollid i.record → x.rank = rankOf i.group (s.memberWord i.core) → x.walk = i.walk → x.daddr = i.daddr →
        x.bytes = bs → s.sendColl i bs =
          { s with collData := s.collData ++ [{ id := s.collNum, x := x }], collNum := s.collNum + 1 }) ∧
      (cut s i.core i.peer → s.sendColl i bs = s.collFault i .linkDown i.daddr)) ∧
    (∀ (n m : Nat) (a : CollArrival), s.collData[n]? = some a → a.held = false →
      (∀ j, a.inst = some j → exec (.collArrival { i := n, lines := m }) s = .next (s.receive a.id m)) ∧
      (a.inst = none →
        (∀ i, s.matchInst a.x = some i → exec (.collArrival { i := n, lines := m }) s =
          .next (((s.setInst { i with taken := i.taken + 1 }).setArrival { a with inst := some i.num }).receive a.id m)) ∧
        (s.matchInst a.x = none → exec (.collArrival { i := n, lines := m }) s = .next s))) ∧
    (∀ (m : Nat) (a : CollArrival) (i : CollInst) (p : Nat × Nat) (ps : List (Nat × Nat)) (l : Leaf),
      s.collData.find? (fun b => b.id == a.id) = some a → a.inst.bind s.inst = some i → (destLines a.x).drop a.sent = p :: ps →
      s.firstFault i.destWho
        [{ kind := .store, group := 0, va := p.1, n := a.x.daddr.toNat + a.x.bytes.length - p.1 }] = none →
      s.access i.destWho .store p.1 p.2 = .ok l →
      let b := { a with sent := a.sent + 1 }
      let v := (s.fillTlb i.destWho p.1).setArrival b
      (v.sendLine b i p l = none → s.receive a.id (m + 1) = s) ∧
      (∀ w, v.sendLine b i p l = some w → s.receive a.id (m + 1) = w.receive a.id m)) ∧
    (∀ (a : CollArrival) (i : CollInst) (p : Nat × Nat) (l : Leaf), s.away l = false →
      let line (slot : Option Nat) (stage : Bool) : TermOp :=
        .line { inst := i.num, who := i.destWho, line := a.lineAt p l slot, stage := stage }
      (crOp i.record = 0 → s.sendLine a i p l = s.enqueueTermite l.pa (line none false)) ∧
      (crOp i.record ≠ 0 → (∀ slot, s.stageAt i l = some slot → s.sendLine a i p l = s.enqueueTermite l.pa (line slot true)) ∧
        (s.stageAt i l = none → s.sendLine a i p l = none))) ∧
    (∀ (pa : Nat) (m : TermOp) (h : stackOf pa < 12),
      ((s.termite[stackOf pa]'h).length < 1024 → s.enqueueTermite pa m =
        some { s with termite := s.termite.set (stackOf pa) (s.termite[stackOf pa]'h ++ [m]) h }) ∧
      (1024 ≤ (s.termite[stackOf pa]'h).length → s.enqueueTermite pa m = none)) ∧
    (∀ l : CollLine,
      (l.stage = false → s.performLine l = (s.writeLeaf l.who l.line.leaf l.line.va l.line.bytes).countLine l.inst l.line.arr) ∧
      (∀ i, l.stage = true → s.inst l.inst = some i → s.performLine l =
        ((s.setInst { i with staged := i.staged ++ [l.line] }).useRegion i l.line.slot).countLine l.inst l.line.arr)) ∧
    (∀ (a : CollArrival) (i : CollInst), s.collData.find? (fun b => b.id == a.id) = some a → s.inst i.num = some i →
      (a.done + 1 < (destLines a.x).length → s.countLine i.num a.id = s.setArrival { a with done := a.done + 1 }) ∧
      (¬a.done + 1 < (destLines a.x).length → s.countLine i.num a.id =
        ({ s with collData := s.collData.filter (fun b => b.id != a.id) }).setInst { i with counted := i.counted + 1 })) ∧
    (∀ (n m : Nat) (i : CollInst), s.colls[n]? = some i → s.instAlive i = true → i.counted = crExpect i.record →
      (i.staged ≠ [] → exec (.collCombine { i := n, lines := m }) s = .next (s.combineLines i m)) ∧
      (i.staged = [] → i.localDone = false → i.failed = false → s.instWaits i = false →
        (∀ q ∈ s.posted, q.who.agent ≠ .coll i.num) → exec (.localDone n) s = .next (s.localDone i))) ∧
    (∀ i : CollInst,
      let j := { i with localDone := true }
      let w := ((s.setInst j).closeOp j).raiseEv j 1
      let root := (i.group[0]?).getD 0
      (memberDev root = w.devid.toNat → w.linkUp (dieOf i.core) (dieOf (memberCore root)) = true → s.localDone i = { w with collReports := w.collReports ++
        [{ ctx := i.who.ctx, collid := crCollid i.record, tgt := memberCore root, member := w.memberWord i.core }] }) ∧
      (cut w i.core root → s.localDone i = w.collFault j .linkDown (root.setWidth 64))) ∧
    (∀ (n : Nat) (m : CollMsg) (r q : CollInst), s.collReports[n]? = some m → s.rootInst m = some r →
      q = { r with reports := r.reports ++ [m.member] } →
      let w := { s with collReports := dropAt n s.collReports }
      ((distinct [] r.group).all (fun x => q.reports.contains x) = true → exec (.collReport n) s =
        .next ((distinct [] r.group).foldl (fun t x => t.notify q x) (w.setInst { q with notified := true }))) ∧
      ((distinct [] r.group).all (fun x => q.reports.contains x) = false → exec (.collReport n) s = .next (w.setInst q))) ∧
    (∀ (i : CollInst) (x : Word), (memberDev x = s.devid.toNat → s.linkUp (dieOf i.core) (dieOf (memberCore x)) = true →
      s.notify i x = { s with collNotes := s.collNotes ++
        [{ ctx := i.who.ctx, collid := crCollid i.record, tgt := memberCore x, member := 0 }] }) ∧
      (cut s i.core x → s.notify i x = s.collFault i .linkDown (x.setWidth 64))) ∧
    (∀ (n : Nat) (m : CollMsg) (j : CollInst), s.collNotes[n]? = some m →
      s.colls.find? (fun j => j.core == m.tgt && j.who.ctx == m.ctx && crCollid j.record == m.collid && j.localDone &&
        !j.allDone) = some j → s.instWaits j = false →
      exec (.allDone n) s = .next
        (({ s with collNotes := dropAt n s.collNotes }.closeInst { j with allDone := true }).raiseEv { j with allDone := true } 2)) ∧
    (∀ (i : CollInst) (j : Nat),
      let ev := crEvent i.record j
      (∀ k, ev % 4 = 1 → s.taskCore i.slot i.uid = some k →
        let n := BitVec.ofNat 4 (ev / 16)
        ((k.sem n).toNat + 1 < 2 ^ 32 → s.raiseEv i j = s.onTask i.slot i.uid (fun k => k.setSem n (k.sem n + 1))) ∧
        (k.sem n = BitVec.allOnes 32 → s.raiseEv i j = s.collFault i .semOverflow 1)) ∧
      (∀ l, ev % 4 = 2 →
        let va := BitVec.ofNat 64 (crEvBase i.record + 8 * j)
        s.access i.who .atomic va.toNat 8 = .ok l →
          s.raiseEv i j = (s.bumpEvent i.who l va.toNat 1).fillTlb i.who va.toNat) ∧
      (ev % 4 = 0 → s.raiseEv i j = s)) ∧
    (∀ (f : FireflyRegion) (fs : List FireflyRegion), s.armReqs = f :: fs →
      let full : Prop := 32 ≤ (s.armed.filter (fun g => g.stack == f.stack)).length
      (f.bad = false → fdOk f.desc = true → ¬full →
        exec .fireflyArm s = .next { s with armReqs := fs, armed := s.armed ++ [f] }) ∧
      (f.bad = true ∨ fdOk f.desc = false ∨ full → exec .fireflyArm s = .next ({ s with armReqs := fs }.badRound f))) ∧
    (∀ (n : Nat) (f : FireflyRegion), s.armed[n]? = some f → f.complete = true →
      let w := { s with armed := s.armed.filter (fun g => g.pas.head? != f.pas.head?) }
      (s.maskBytes f = none → exec (.fireflyRound n) s = .next (w.disarm f)) ∧
      (∀ mask, s.maskBytes f = some mask → exec (.fireflyRound n) s = .next (w.publish f (roundRecord f.desc mask
        ((List.range (fdVocab f.desc)).map (fun k => (k, s.logitY f k)))))))

/-- R122, R301, R302, R305 to R309, R313, R323, R328. That TEAMS of a DEP_FAULT or container refusal counts teams is
log 29; the order of a selection pass is log 40, and what a completion that fails otherwise does is log 41. -/
def Obligations.Launches : Prop :=
  ∀ s : State,
    (∀ (q : BitVec 6) (v : DWord), s.boot = .ready →
      let o := s.lq[q.toNat]'(q.isLt)
      let r := if v.toNat % 2 ^ 16 < 2 ^ o.logn' then { o with tail := v.setWidth 16 } else { o with err := true }
      (s.mayRing q.toNat = true → exec (.lqtailDoorbell q v) s = .next { s with lq := s.lq.set q.toNat r q.isLt }) ∧
      (s.mayRing q.toNat = false → exec (.lqtailDoorbell q v) s = .next (s.onTdi 0 Tdi.violate))) ∧
    (∀ (x : BitVec 8) (i : Nat), s.freeSlot = some x → (srcOrder s.recPtr).find? (fun i => s.srcPending i) = some i →
      (∀ h : i < 64, exec .launchRecordRead s = .next ({ s with recPtr := i }.takeHost x i h)) ∧
      (¬i < 64 → exec .launchRecordRead s = .next ({ s with recPtr := i }.takePool x))) ∧
    (∀ x : BitVec 8, s.freeSlot = some x → s.slot x = none ∧ ∀ y < x, s.slot y ≠ none) ∧
    (∀ (x : BitVec 8) (src : Nat) (ctx : BitVec 6) (r : List Byte),
      (completionOf r % 64 = 0 →
        ∃ l, (s.enterRecord x src ctx r).slot x = some l ∧ l.record = r ∧ l.src = src ∧ l.ctx = ctx ∧ l.age = s.nextAge ∧
          l.desc = parseDesc (s.descBytes ctx) ∧ l.phase = match s.admission (isChild src) ctx r with
            | some c => .refused c 0
            | none => .deps) ∧
      (completionOf r % 64 ≠ 0 → s.enterRecord x src ctx r = s.dropLaunch src)) ∧
    (∀ (x : BitVec 8) (l : Launch), s.slot x = some l → l.phase = .deps →
      ((∃ i < fieldAt l.record 85 1, s.depValue l i = none) → exec (.launchReady x) s =
        .next (((List.range (fieldAt l.record 85 1)).foldl (fun t i => t.noteDep l i) s).setSlot x
          (some { l with phase := .refused 0x10 l.teams' }))) ∧
      ((∀ i < fieldAt l.record 85 1, ∃ v, s.depValue l i = some v ∧ depTarget l.record i ≤ v) → exec (.launchReady x) s =
        .next (s.setSlot x (some ({ l with phase := .ready }.spanStart s.clock))))) ∧
    (∀ (x : BitVec 8) (l : Launch), s.slot x = some l → l.phase = .ready →
      (∀ c, s.containerFor l = .error c → exec (.containerLoad x) s =
        .next ((s.noteFetch l).setSlot x (some { l with phase := .refused c l.teams' }))) ∧
      (∀ k, s.containerFor l = .ok k → exec (.containerLoad x) s =
        .next ((s.onCtx l.ctx (fun c => c.addResident k)).setSlot x (some { l with
          phase := .loaded, cont := some k, cursor := (s.onCtx l.ctx (fun c => c.addResident k)).firstTeam l })))) ∧
    (exec .launchSelection s = .next (s.settleLinks.selectPass [] [] 256)) ∧
    (∀ (done : List (BitVec 8)) (x : BitVec 8) (l : Launch), s.takeNext done = some (x, l) →
      s.slot x = some l ∧ l.wants = true ∧ x ∉ done ∧
        ∀ y m, s.slot y = some m → m.wants = true → y ∉ done → m.eff ≤ l.eff) ∧
    (∀ c : CoreId, (s.core c).victim = true → (s.core c).task.isSome = true → (s.core c).hold = false →
      (s.core c).ctl.wait ≠ .message → exec (.taskSave c) s =
        .next (((s.suspend c false).trySave c).onSlot (s.core c).theTask.slot (fun l => l.spanStart s.clock))) ∧
    (∀ (x : BitVec 8) (l : Launch) (c : Nat), s.slot x = some l → l.since = some c → l.wants = true → l.eff < 7 →
      18000000 * (l.eff + 1 - l.prio) ≤ l.waited + (s.clock - c) →
      exec (.priorityAging x) s = .next (s.setSlot x (some { l with eff := l.eff + 1 }))) ∧
    (∀ (x : BitVec 8) (l : Launch), s.slot x = some l → s.finished l = true →
      exec (.launchCompletion x) s = .next ((s.writeCompletion l).setSlot x none)) ∧
    (∀ l : Launch,
      (s.finished l = true ↔ l.ended = true ∧ (∀ u ∈ l.linger, s.taskQuiet u = true) ∧ ∀ c, l.holdUntil = some c → c ≤ s.clock) ∧
      (∀ f, s.completionBar l = some f → s.writeCompletion l = (s.noteTag f).dropLaunch l.src) ∧
      (∀ w, s.completionBar l = none → s.store l.who (completionOf l.record) l.completion = .ok w →
        s.writeCompletion l = (w.writeBitmap l).bumpCompletion l))

/-- R64 to R67, R304, R311, R324, R327, R331, R337. What a handler may write is log 13; what a clock hold stops is log
35. -/
def Obligations.FaultService : Prop :=
  ∀ (s : State) (c : CoreId) (r : ShadowReq) (t0 : Nat) (ok : Bool) (ws : HandlerWrites),
    let from_ : Nat := if r.who = .matrix then (s.core c).holdAt else t0
    let inTime : Bool := decide (s.clock - from_ ≤ s.shlim.toNat)
    let sweeps (w : State) (gone : TlbEnt → Bool) : Prop :=
      (∀ (d : Fin 4) (t : TlbEnt), t ∈ w.tlb[d] ↔ t ∈ s.tlb[d] ∧ gone t = false) ∧
      (∀ (q : CoreId) (t : TlbEnt), t ∈ (w.core q).utlb ↔ t ∈ (s.core q).utlb ∧ gone t = false) ∧
      ∀ q : CoreId, { w.core q with utlb := (s.core q).utlb } = s.core q
    ((s.core c).serving = none → (s.core c).nextReq = some r → exec (.shadowFaultService c) s =
      .next (s.onCore c (fun k => { k with serving := some (r, s.clock), shadowQ := k.shadowQ.erase r }))) ∧
    ((s.core c).sealed = false → (s.core c).nextReq = (s.core c).shadowQ.head?) ∧
    ((s.core c).serving = some (r, t0) →
      (r.ats = false → exec (.shadowServiceDone c ok ws) s =
        .next (((s.firmwareWrites ws.mem).ownWrites c ws.own).endService c (ok && inTime))) ∧
      (r.ats = true → exec (.shadowServiceDone c ok ws) s = .next s ∧
        exec (.prgResponse c ok) s = .next (s.endService c (ok && inTime))) ∧
      (inTime = false → exec (.shadowLimitExpiry c) s = .next (s.endService c false)) ∧
      (let u := s.onCore c (fun k => { k with serving := none })
      (∀ e, r.who = .word e → ((s.core c).eng e).wait = .shadow →
        s.endService c ok = u.onCore c (fun k => if ok then k.setWait e.seqr .none else k.stopAt e .pageNotPresent r.va)) ∧
      (r.who = .ctl → (s.core c).ctl.wait = .shadow →
        let w := { u.onCore c (fun k => k.setWait .ctl .none) with actCore := c, actSeq := .ctl }
        s.endService c ok = if ok then w else w.ctlTrap .pageNotPresent r.va) ∧
      (∀ e sts op o p, r.who = .step e op → stsOf e = some sts → ((s.core c).xfer sts).op op = some o → o.kind = .copy p →
        s.endService c ok =
          if ok then u.onCore c (fun k => k.onXfer sts (fun q => q.setOp { o with kind := .copy { p with held := false } }))
          else u.opFault c e sts o .pageNotPresent r.va.toNat))) ∧
    (∀ q, (s.core c).serving = none → (s.core c).shadowQ.find? (fun q => q.who == .matrix) = some q → (s.core c).hold = true →
      (s.core c).sealed = false → q.who = .matrix → s.shlim.toNat < s.clock - (s.core c).holdAt →
      exec (.shadowLimitExpiry c) s =
        .next ((s.onCore c (fun k => { k with shadowQ := k.shadowQ.erase q })).endFault c q false)) ∧
    (∀ (pa : Nat) (v : DWord), pa % 8 = 0 → s.paExists pa = true →
      s.firmwareWrites [(pa, v)] = if isPcie pa = true then s else s.homeStore pa (leBytes 8 v.toNat)) ∧
    (∀ (n : BitVec 5) (v : DWord), n ≠ 0 →
      ((s.ownWrites c [.reg n v]).core c).shadow.s[n.toNat]'(n.isLt) = v) ∧
    (∀ (pasid : BitVec 20) (addr len : DWord),
      (s.atsBusy pasid addr.toNat len.toNat = true → exec (.atsInvalidation pasid addr len) s = .next s) ∧
      (s.atsBusy pasid addr.toNat len.toNat = false → ∃ w, exec (.atsInvalidation pasid addr len) s = .next w ∧
        w = { s with tlb := w.tlb, cores := w.cores } ∧ sweeps w (atsCovers pasid addr.toNat len.toNat))) ∧
    (∀ v : DWord, s.boot = .ready → s.tlbiGo = false → exec (.tlbInvalidation v) s =
      .next { s with tlbiCtx := v.setWidth 6, tlbiGo := v.getLsbD 31 }) ∧
    (s.tlbiGo = true → s.diesOut = [] → s.tlbiBusy = false → ∃ w, exec .tlbInvalidationComplete s = .next w ∧
      w = { s with tlb := w.tlb, cores := w.cores, tlbiGo := false } ∧
      sweeps w (fun t => t.covers s.tlbiCtx s.tlbiAddr.toNat s.tlbiLen.toNat)) ∧
    (∀ x : BitVec 6, s.boot = .ready →
      let done (op n : Nat) (u : State) : Out := .next { u with ctxcmd := BitVec.ofNat 64 (x.toNat + 2 ^ 6 * op + 2 ^ 32 * n) }
      (s.holderOf x ≠ none → exec (.ctxDestroy x) s = done 1 2 s ∧ exec (.ctxUnload x) s = done 2 2 s) ∧
      (s.holderOf x = none → s.ctxInUse x = true → exec (.ctxDestroy x) s = done 1 1 s ∧ exec (.ctxUnload x) s = done 2 1 s) ∧
      (s.holderOf x = none → s.ctxInUse x = false →
        (exec (.ctxDestroy x) s = done 1 0 (s.destroyCtx x) ∧ (s.destroyCtx x).ctx x = {}) ∧
        ((∀ k ∈ (s.ctx x).resident, k.va ≠ s.ctxarg) → exec (.ctxUnload x) s = done 2 3 s) ∧
        ((∃ k ∈ (s.ctx x).resident, k.va = s.ctxarg) → exec (.ctxUnload x) s = done 2 0
          (s.onCtx x (fun q => { q with resident := q.resident.filter (fun k => k.va != s.ctxarg) })))))

/-- R4, R9, R11, R13, R14, R304, R305, R314 to R316, R323, R326, R331 to R337. A die's re-admission is an act of its
own (log 31); what a thermal trip leaves is log 42, what a warm device reset keeps, and that it brings the die back,
log 44, the width of a BAR0 access log 56. -/
def Obligations.ResetsAndPlatform : Prop :=
  ∀ s : State,
    (s.boot = .ready → ∃ w, exec .warmDeviceReset s = .next w ∧ (∀ c, (w.core c).task = none) ∧
      (∀ x, w.slot x = none) ∧ w.pool = [] ∧ w.tlt = [] ∧ w.shlim = 1800000 ∧ w.pthrot = false ∧ w.tthrot = false ∧
      (s.tripped = false → w.diesOut = []) ∧
      (∀ c, (w.core c).frames = Vector.replicate 16 {}) ∧ ∀ fn, (w.tdiOf fn).viol = 0) ∧
    (∀ die : BitVec 2,
      (s.boot = .ready → s.diesOut = [] → ∃ w, exec (.warmDieReset die) s = .next w ∧ w.diesOut = [die.toNat]) ∧
      (s.tripped = false → die.toNat ∈ s.diesOut → runAct (.dieReadmit die) s = .next { s with
        diesOut := s.diesOut.filter (fun e => e != die.toNat)
        downLinks := s.downLinks.filter (fun p => p.1 != die.toNat && p.2 != die.toNat) }) ∧
      (s.tripped = true → runAct (.dieReadmit die) s = .next s)) ∧
    (∀ c, s.boot = .ready → s.diesOut = [] → s.present c = true → ∃ w, exec (.coreReset c) s = .next w ∧
      ∀ sp off, (w.core c).bufByte sp off = 0) ∧
    (∀ die c, s.diesOut ≠ [] → exec (.warmDieReset die) s = .next s ∧ exec (.coreReset c) s = .next s) ∧
    (∀ up : BringUp,
      let img (p : FwPart) : FwImage := match s.staged[p.index] with
        | some g => if g.signed = true ∧ up.minVersion.toNat ≤ g.version.toNat then g else s.flash[p.index]
        | none => s.flash[p.index]
      let bad (p : FwPart) : Option (BitVec 8) :=
        if (img p).signed = false then some 1 else if (img p).version.toNat < up.minVersion.toNat then some 2 else none
      let noPort : Prop := up.pcie0 = .none ∧ up.pcie1 = .none
      let code : Option (BitVec 8) :=
        if (bad .sec).isSome then bad .sec else if up.hbm = false then some 3 else if up.ucie = false then some 4
        else if noPort then some 4 else if (bad .dev).isSome then bad .dev else bad .mgmt
      ∃ w, exec (.coldReset up) s = .next w ∧ w.boot = (if code = none then .ready else .fail) ∧ w.failcode = code.getD 0 ∧
        w.caps = (if (bad .sec).isSome ∨ up.hbm = false then Vector.replicate 8 0
          else bringCaps up up.pcie0 up.pcie1) ∧
        (w.noPcie = true ↔ (bad .sec).isSome = false ∧ up.hbm = true ∧ noPort) ∧
        w.devid = up.devid ∧ (∀ c, w.core c = {}) ∧ ∀ p ∈ w.mem, isPcie p.1 = true) ∧
    (∀ (up : BringUp) (d e : Fin 4), ∀ i < 32,
      (bringCapCore up d e).getLsbD i = decide (i < 32 - (up.coresOff[d]).val) ∧
      (bringCapCore up d e).getLsbD (32 + i) = decide (i < 32 - (up.coresOff[e]).val)) ∧
    (∃ w, exec .thermalTrip s = .next w ∧ w.tripped = true ∧ w.diesOut = [0, 1, 2, 3] ∧ ∀ c, w.core c = {}) ∧
    (∀ p t : Bool, exec (.throttleChange p t) s = .next { s with pthrot := p, tthrot := t }) ∧
    (∀ a b : BitVec 3, a.toNat ≤ 4 → b.toNat ≤ 4 → a ≠ b → (min a.toNat b.toNat, max a.toNat b.toNat) ∉ s.downLinks →
      ∃ w, exec (.ucieLinkFailure a b) s = .next w ∧ w.linkUp a.toNat b.toNat = false) ∧
    (∀ p : BitVec 4, s.boot = .ready → s.nudonWidth p ≠ 0 →
      exec (.nudonPortTrain p true) s = .next { s with nudon := s.nudon ||| (1 <<< p.toNat) } ∧
      exec (.nudonPortTrain p false) s = .next s) ∧
    (s.noPcie = true → (∀ fn t off, exec (.configRequest fn) s = .next s ∧ runAct (.barRead fn t off) s = .next s)) ∧
    (s.noPcie = false →
      let tells (w : State) (r : Reply) : Out := .next { w with sent := w.sent ++ [r] }
      let value (w : State) (v : DWord) : Out := tells w (.value v)
      (∀ fn : BitVec 4, exec (.configRequest fn) s = tells s (match s.boot with
        | .boot => .configRetry fn
        | .ready => .configDone fn
        | .fail => if fn = 0 then .configDone fn else .configAbsent fn)) ∧
      (∀ fn, s.boot = .ready → exec (.violcntRead fn) s =
        value (s.onTdi fn (fun t => { t with viol := 0 })) ((s.tdiOf fn).viol.setWidth 64)) ∧
      (s.boot = .ready → exec .ldropRead s = value { s with ldrop := 0 } s.ldrop) ∧
      (s.boot = .fail → exec .ldropRead s = value s 0 ∧ ∀ fn, exec (.violcntRead fn) s = value s 0) ∧
      (∀ fn t off, s.boot = .boot → runAct (.barRead fn t off) s = .next s) ∧
      (∀ (t : Bool) (off : BitVec 32), s.boot = .fail → runAct (.barRead 0 t off) s =
        value s (if off.toNat = 0 ∨ (0x100 ≤ off.toNat ∧ off.toNat < 0x140) then s.bar0Value off.toNat else 0)) ∧
      (∀ (fn : BitVec 4) (t : Bool) (off : BitVec 32), s.boot = .fail → fn ≠ 0 → runAct (.barRead fn t off) s = .next s) ∧
      (∀ (t : Bool) (off : BitVec 32), s.boot = .ready →
        (off.toNat < 0x1000 ∨ 0x1800 ≤ off.toNat ∨ s.queueHolder ((off.toNat - 0x1000) / 32) = none →
          runAct (.barRead 0 t off) s = value (s.bar0Clear off.toNat) (s.bar0Value off.toNat)) ∧
        (0x1000 ≤ off.toNat → off.toNat < 0x1800 → s.queueHolder ((off.toNat - 0x1000) / 32) ≠ none →
          runAct (.barRead 0 t off) s = value (s.onTdi 0 Tdi.violate) (BitVec.allOnes 64)))) ∧
    (s.bar0Value 0 = BitVec.ofNat 64 ((match s.boot with
        | .boot => 0
        | .ready => 1
        | .fail => 2) + 2 ^ 8 * s.failcode.toNat + (if s.pthrot then 2 ^ 16 else 0) + (if s.tthrot then 2 ^ 17 else 0)) ∧
      s.bar0Value 8 = (if s.diesOut = [] then 0 else BitVec.ofNat 64 (2 ^ 63)) ∧
      s.bar0Value 0x180 = s.ctxbase ∧ s.bar0Value 0x188 = s.shlim ∧ s.bar0Value 0x190 = s.ldrop ∧
      s.bar0Value 0x198 = s.ctxcmd ∧ s.bar0Value 0x1A0 = s.ctxarg ∧
      (∀ i : Fin 8, s.bar0Value (0x100 + 8 * i.val) = s.caps[i] ∧ s.bar0Value (0x2000 + 8 * i.val) = s.copywt[i]) ∧
      (∀ off, 0x14000 ≤ off → s.bar0Value off = 0) ∧ (s.bar0Clear 0x190).ldrop = 0) ∧
    (∀ (fn : BitVec 4) (off : BitVec 32) (v : DWord), s.boot ≠ .ready → exec (.registerWrite fn off v) s = .next s) ∧
    (∀ v : DWord, s.boot = .ready → exec (.registerWrite 0 0x180 v) s = .next { s with ctxbase := v } ∧
      exec (.registerWrite 0 0x188 v) s = .next { s with shlim := v } ∧
      exec (.registerWrite 0 0x1A0 v) s = .next { s with ctxarg := v }) ∧
    (∀ (off : BitVec 32) (v : DWord), s.boot = .ready →
      exec (.registerWrite 0 off v) s = .next (s.writeBar0 off.toNat v) ∧
      (0x100 ≤ off.toNat → off.toNat < 0x140 → s.writeBar0 off.toNat v = s)) ∧
    (∀ (fn : BitVec 4) (off : BitVec 32) (v : DWord), s.boot = .ready → fn ≠ 0 →
      exec (.registerWrite fn off v) s = .next (s.writeTdiBar fn off.toNat v))

/-- R65, R319 to R323, R326, R327, R329 to R331. The lock walk compares sets (log 15); the ERRCAUSE of a debug enable
is a free value (log 43); what leaves the core is settled as the seal begins, and again as the frame starts (log 33);
that CHRESET leaves RESYNC on a fault or a bad form is log 49, that a channel whose descriptor has a nonzero reserved
field is served no more log 29, and what a debug access does log 55. -/
def Obligations.WorldsAndChannels : Prop :=
  ∀ (s : State) (fn : BitVec 4),
    (s.boot = .ready → ∃ w, exec (.untrustedPrivateAccess fn false) s = .next w ∧
      (w.tdiOf fn).viol.toNat = min 0xFFFFFFFF ((s.tdiOf fn).viol.toNat + 1) ∧ w.sent = s.sent ++ [.value (BitVec.allOnes 64)]) ∧
    (s.boot = .ready → ∃ w, exec (.untrustedPrivateAccess fn true) s = .next w ∧
      (w.tdiOf fn).viol.toNat = min 0xFFFFFFFF ((s.tdiOf fn).viol.toNat + 1) ∧ w.sent = s.sent) ∧
    (s.boot = .ready →
      ((s.tdiOf fn).ide.up = true → (s.tdiOf fn).isLocked = true →
        exec (.trustedSharedPageAccess fn) s = .next { s with sent := s.sent ++ [.unsupported] }) ∧
      ((s.tdiOf fn).ide.up = false ∨ (s.tdiOf fn).isLocked = false → exec (.trustedSharedPageAccess fn) s = .next s)) ∧
    (exec (.ideIntegrityFailure fn) s = .next (s.tdiError fn 3).settleFalls) ∧
    (exec (.functionLevelReset fn) s = .next (s.tdiError fn 4).settleFalls) ∧
    (exec .debugEnable s = .next { s.errorAll.settleFalls with debug := true }) ∧
    (runAct .debugAccess s = .next { s with sent := s.sent ++
      [if s.debug = true ∧ ∀ w ∈ allWorlds, (s.tdiOf w).isLocked = false then .debugDone else .debugRefused] }) ∧
    (∀ cause, ((fn ≠ 0 ∧ (s.tdiOf fn).isLocked = true) → ((s.tdiError fn cause).tdiOf fn).state = .error ∧
        ((s.tdiError fn cause).tdiOf fn).errcause = cause ∧ fn.toNat ∈ (s.tdiError fn cause).falls ∧
        ∀ g, g ≠ fn → (s.tdiError fn cause).tdiOf g = s.tdiOf g) ∧
      ((fn = 0 ∨ (s.tdiOf fn).isLocked = false) → s.tdiError fn cause = s)) ∧
    (∀ g, g ≠ 0 → (s.tdiOf g).isLocked = true → (s.errorAll.tdiOf g).state = .error) ∧
    (s.walkAt + 180000 ≤ s.clock → exec .lockDigestWalk s = .next (allWorlds.foldl (fun (t : State) w =>
      if (t.tdiOf w).isLocked = true ∧ t.lockedSet w ≠ (t.tdiOf w).lockSet then t.tdiError w 1 else t)
      { s with walkAt := s.walkAt + 180000 }).settleFalls) ∧
    (∀ (c : CoreId) (a : Nat), (s.core c).sealAt = some a → (s.core c).sealed = false → a ≤ s.clock →
      ((s.core c).task = none ∨ (s.core c).ctl.wait ≠ .message) → exec (.frameSeal c) s =
        .next ((if (s.core c).nextWorld = (s.core c).frameWorld then s.sealSame c else s.sealCore c).onCore c
          (fun k => { k with sealed := true, stays := (s.core c).nextWorld == (s.core c).frameWorld }))) ∧
    (∀ c : CoreId,
      ((s.core c).victim = false →
        s.sealSame c = (if (s.core c).task.isSome then s.toStop c else s).onCore c Core.restService) ∧
      ((s.core c).victim = true → ∀ d ∈ s.gangCores c, ((s.sealSame c).core d).victim = false ∧ ((s.sealCore c).core d).victim = false) ∧
      ((s.sealCore c).core c).task = none ∧ (∀ n, ((s.sealCore c).core c).sem n = 0) ∧
      (∀ f, ((s.sealCore c).core c).fifo f = []) ∧ (∀ sp q, ((s.sealCore c).core c).bufByte sp q = 0) ∧
      ((s.sealCore c).core c).ctl = {}) ∧
    (∀ (c : CoreId) (a : Nat), (s.core c).frameEnd = some a → (s.core c).sealed = true → a ≤ s.clock →
      let same : Prop := (s.core c).stays = true ∧ (s.core c).nextWorld = (s.core c).frameWorld
      let starts (w : State) : State := (w.closeSave c).onCore c (fun k => k.enterFrame (s.core c).nextFrame a)
      (same → exec (.frameStart c) s = .next (starts s)) ∧
      (¬same → (s.core c).stays = true → exec (.frameStart c) s = .next ((starts (s.sealCore c)).unseal c)) ∧
      ((s.core c).stays = false → exec (.frameStart c) s = .next ((starts s).unseal c))) ∧
    (∀ (k : Core) (up : Option (Nat × Vector FrameEnt 16)) (a : Nat), (k.enterFrame up a).frameAt = a ∧
      (k.enterFrame up a).sealed = false ∧ (k.enterFrame up a).frame = up.map (fun p => p.1)) ∧
    (∀ (ch : BitVec 2) (base : Word) (tail : BitVec 16), s.boot = .ready → fn ≠ 0 →
      let h := s.chan fn ch
      let leaves (w : State) : Out := .next (w.onChan fn ch (fun h => { h with state := .resync, exp := base }))
      let fails (w : State) : Out := .next (w.onChan fn ch (fun h => { h with state := .resync }))
      let fits : Prop := h.formOk = true ∧ (s.tdiOf fn).ctxs.getLsbD h.ctx.toNat = true ∧ s.descValid h.ctx = true
      (fits → (∀ t, s.resetRings fn h = .ok t → exec (.channelReset fn ch base) s =
          .next (t.onChan fn ch (fun h => { h with state := .opened, exp := base }))) ∧
        (∀ t, s.resetRings fn h = .error t → exec (.channelReset fn ch base) s = leaves t)) ∧
      (¬fits → exec (.channelReset fn ch base) s = leaves s) ∧
      (exec (.chdoorWrite fn ch tail) s = .next (s.onChan fn ch (fun h => { h with door := tail }))) ∧
      (h.state = .opened → h.en = true →
        (¬fits → exec (.bounceSlotCopy fn ch) s = fails s) ∧
        (fits →
          let hd := s.ringRead (s.chanWho fn h) (h.rings fn).1.2 ((h.rings fn).1.1 + 8) 8
          (∀ t, hd = .error t → exec (.bounceSlotCopy fn ch) s = fails t) ∧
          (∀ b, hd = .ok b → (∀ t, s.producerTail fn h = .error t → exec (.bounceSlotCopy fn ch) s = fails t) ∧
            ∀ n, s.producerTail fn h = .ok n →
              (h.ahead (leNat b) n = false → exec (.bounceSlotCopy fn ch) s = .next s) ∧
              (h.ahead (leNat b) n = true →
                (∀ t, s.copySlot fn h (leNat b) = .ok t → exec (.bounceSlotCopy fn ch) s =
                  .next (t.onChan fn ch (fun h => { h with exp := h.exp + 1 }))) ∧
                (∀ t, s.copySlot fn h (leNat b) = .error t → exec (.bounceSlotCopy fn ch) s = fails t))))) ∧
      (h.state ≠ .opened → exec (.bounceSlotCopy fn ch) s = .next s) ∧
      (s.chanWho fn h = { die := 4, ctx := h.ctx, world := fn, hyp := 0, desc := s.descOf h.ctx }) ∧
      (∀ head slot, s.ringRead (s.chanWho fn h) (h.rings fn).1.2 ((h.rings fn).1.1 + (64 + head % h.slots * h.slotSize))
          h.slotSize = .ok slot →
        fieldAt slot 0 4 ≠ h.exp.toNat ∨ h.slotSize < fieldAt slot 4 4 + 16 → s.copySlot fn h head = .error s))

/-- R63, R156 (an add of another device to an event, log 78), R289, R298, R317 to R321, R338. MCTP command 1, the
measurement requests 0 and 0xFF, sensors' numbers and numeric readings are the model's (log 16), that a descriptor
with a nonzero reserved bit refuses the lock is log 29; what a TDI in ERROR answers to requests for its version and
state is log 48. -/
def Obligations.Messages : Prop :=
  ∀ (s : State) (fn : BitVec 4) (b n : BitVec 8),
    let leaves (r : Reply) : State := { s with sent := s.sent ++ [r] }
    let ans (r : SpdmReply) : Out := .next (leaves (.spdm r))
    let tdisp (r : TdispReply) : Out := .next (leaves (.tdisp fn r))
    (s.boot ≠ .boot →
      exec .getVersion s = ans .version ∧ exec .getCapabilities s = ans .capabilities ∧ exec .getDigests s = ans .digests ∧
      exec (.spdmUnsupportedRequest n) s = ans .unsupportedRequest ∧
      exec (.negotiateAlgorithms true) s = .next { leaves (.spdm .algorithms) with spdmOk := true } ∧
      exec (.negotiateAlgorithms false) s = .next { leaves (.spdm .invalidRequest) with spdmOk := false } ∧
      exec (.getCertificate n) s = ans (if n.toNat ≤ 1 then .certificate n else .unsupportedRequest) ∧
      exec (.challenge n) s = ans (if n.toNat ≤ 1 then .challengeAuth n else .unsupportedRequest) ∧
      exec (.getMeasurements 0) s = ans (.measurementCount 5) ∧
      exec (.getMeasurements 0xFF) s = ans (.measurements (s.measured [1, 2, 3, 4, 5])) ∧
      (1 ≤ n.toNat → n.toNat ≤ 5 → exec (.getMeasurements n) s = ans (.measurements
        ((((s.meas[n.toNat - 1]?).getD none).map (fun v => (n, v))).toList))) ∧
      (5 < n.toNat → n.toNat < 255 → exec (.getMeasurements n) s = ans .unsupportedRequest) ∧
      (s.spdmOk = true → exec .keyExchange s = .next { leaves (.spdm .keyExchangeRsp) with session := .handshake }) ∧
      (s.spdmOk = false → exec .keyExchange s = ans .invalidRequest) ∧
      (s.session = .handshake → exec .finish s = .next { leaves (.spdm .finishRsp) with session := .secured }) ∧
      (s.session ≠ .handshake → exec .finish s = ans .invalidRequest) ∧
      (s.session = .secured → exec .keyUpdate s = ans .keyUpdateAck ∧ exec .heartbeat s = ans .heartbeatAck ∧
        exec .endSession s = .next { leaves (.spdm .endSessionAck) with session := .closed } ∧
        (∃ w, exec (.ideKm fn) s = .next w ∧ (w.tdiOf fn).ide = { up := true, set := false } ∧
          w.sent = s.sent ++ [.spdm .ideKmAck]) ∧
        (∀ k, (s.tdiOf fn).ide.up = true → ∃ w, exec (.kSetGo fn k) s = .next w ∧
          (w.tdiOf fn).ide = { up := true, set := k } ∧ w.sent = s.sent ++ [.spdm .kSetGoAck]) ∧
        (∀ k, (s.tdiOf fn).ide.up = false → exec (.kSetGo fn k) s = ans .invalidRequest)) ∧
      (s.session ≠ .secured → exec .keyUpdate s = ans .invalidRequest ∧ exec .heartbeat s = ans .invalidRequest ∧
        exec .endSession s = ans .invalidRequest ∧ exec (.ideKm fn) s = ans .invalidRequest ∧
        ∀ k, exec (.kSetGo fn k) s = ans .invalidRequest)) ∧
    (s.boot = .ready →
      ((s.tdiOf fn).state ≠ .error → exec (.getTdispVersion fn) s = tdisp .version ∧
        exec (.getTdispCapabilities fn) s = tdisp .capabilities ∧ exec (.getDeviceInterfaceReport fn) s = tdisp .report ∧
        exec (.getDeviceInterfaceState fn) s = tdisp (.state (if fn = 0 then .unlocked else (s.tdiOf fn).state))) ∧
      ((s.tdiOf fn).state = .error → ∀ q c, ∀ i ∈ [Instr.getTdispVersion fn, .getTdispCapabilities fn,
        .getDeviceInterfaceReport fn, .getDeviceInterfaceState fn, .lockInterfaceRequest fn q c, .startInterfaceRequest fn],
        exec i s = tdisp .invalidInterfaceState) ∧
      (exec (.tdispUnsupportedRequest fn n) s = tdisp .unsupportedRequest) ∧
      (∀ q c, s.lockRefused fn q c = false → ∃ w, exec (.lockInterfaceRequest fn q c) s = .next w ∧
        (w.tdiOf fn).state = .locked ∧ (w.tdiOf fn).errcause = 0 ∧ (w.tdiOf fn).queues = q ∧ (w.tdiOf fn).ctxs = c ∧
        w.keyGen[fn.toNat]'(fn.isLt) = s.keyGen[fn.toNat]'(fn.isLt) + 1 ∧ w.sent = s.sent ++ [.tdisp fn .lockAck]) ∧
      (∀ q c x, c.getLsbD x.toNat = true → ((s.descOf x).world ≠ fn ∨ descForm (s.descBytes x) = false) → s.lockRefused fn q c = true) ∧
      (∀ q c, s.lockRefused fn q c = true → exec (.lockInterfaceRequest fn q c) s = tdisp .invalidInterfaceState) ∧
      ((s.tdiOf fn).state = .locked → ∃ w, exec (.startInterfaceRequest fn) s = .next w ∧
        w.tdiOf fn = { s.tdiOf fn with state := .run } ∧ w.sent = s.sent ++ [.tdisp fn .startAck]) ∧
      ((s.tdiOf fn).state ≠ .locked → exec (.startInterfaceRequest fn) s = tdisp .invalidInterfaceState) ∧
      (∃ w, exec (.stopInterfaceRequest fn) s = .next w ∧ (w.tdiOf fn).state = .unlocked ∧ (w.tdiOf fn).queues = 0 ∧
        (w.tdiOf fn).ctxs = 0)) ∧
    (exec (.mctpControl b n) s = .next { leaves (.mctp b (if b.toNat = 1 then n else s.eid)) with
      eid := if b.toNat = 1 then n else s.eid }) ∧
    (exec .pldmDiscovery s = .next (leaves .pldmDiscovery)) ∧
    (exec (.pldmMonitoring 0) s = .next (leaves (.pldmSensor 0 (BitVec.ofNat 64 s.boot.code)))) ∧
    (s.stateSensor n.toNat = none → ∃ v, exec (.pldmMonitoring n) s =
      .next { leaves (.pldmSensor n v) with freeCtr := s.freeCtr + 1 }) ∧
    (∀ (p : FwPart) (i : FwImage), exec (.pldmFirmwareUpdate p i) s =
      .next { leaves .pldmUpdate with staged := s.staged.set p.index (some i) }) ∧
    (exec (.mctpUnsupportedType n) s = .next s) ∧
    (∀ (dev : BitVec 9) (r : RemoteReq),
      let a := r.acc
      let msd : Prop := r.mside = true ∧ remoteAddr a < hbmEnd
      (∀ c, s.remoteBar a = some c → exec (.remoteHomeAccess dev r) s = .next (leaves (.denied c))) ∧
      (s.remoteBar a = none → msd →
        (∀ w, s.enqueueTermite (remoteAddr a) (.remote a) = some w → exec (.remoteHomeAccess dev r) s = .next w) ∧
        (s.enqueueTermite (remoteAddr a) (.remote a) = none → exec (.remoteHomeAccess dev r) s = .next s)) ∧
      (s.remoteBar a = none → ¬msd → exec (.remoteHomeAccess dev r) s = .next (s.performRemote a))) ∧
    (∀ a : RemoteAcc, ∃ bs,
      (∀ pa m, a = .load pa m → s.performRemote a = { s.dropAhead with sent := s.dropAhead.sent ++ [.bytes bs] } ∧
        bs = s.homeBytes pa.toNat m.toNat) ∧
      (∀ pa xs, a = .store pa xs →
        s.performRemote a = { s.homeStore pa.toNat xs with sent := (s.homeStore pa.toNat xs).sent ++ [.bytes bs] } ∧ bs = []) ∧
      (∀ pa op sz v e, a = .amo pa op sz v e → bs = s.homeBytes pa.toNat (amoBytes sz) ∧
        (∀ x, amoNew op sz (BitVec.ofNat 64 (leNat bs)) v e = some x →
          let y := s.homeStore pa.toNat (storeBytes (amoBytes sz) x)
          let w := if op = .add ∧ sz = .d then y.wakeEvent none pa.toNat x else y
          s.performRemote a = { w with sent := w.sent ++ [.bytes bs] }) ∧
        (amoNew op sz (BitVec.ofNat 64 (leNat bs)) v e = none →
          s.performRemote a = { s.dropAhead with sent := s.dropAhead.sent ++ [.bytes bs] })))
end

