-- ==== Sys2Proof/Laws/State.lean ====
section
/-!
SUPPORT. One lemma per field of State and update of it: what each of the state's own updates leaves as it was, and reading
a core, a context, a slot or a register after writing one.
-/

namespace Sys2Proof.Machine

/-! State.setCore -/

@[simp] theorem State.setCore_schedule (s : State) (c : CoreId) (k : Core) : (s.setCore c k).schedule = s.schedule := rfl
@[simp] theorem State.setCore_turn (s : State) (c : CoreId) (k : Core) : (s.setCore c k).turn = s.turn := rfl
@[simp] theorem State.setCore_freeCtr (s : State) (c : CoreId) (k : Core) : (s.setCore c k).freeCtr = s.freeCtr := rfl
@[simp] theorem State.setCore_seqNo (s : State) (c : CoreId) (k : Core) : (s.setCore c k).seqNo = s.seqNo := rfl
@[simp] theorem State.setCore_actCore (s : State) (c : CoreId) (k : Core) : (s.setCore c k).actCore = s.actCore := rfl
@[simp] theorem State.setCore_actSeq (s : State) (c : CoreId) (k : Core) : (s.setCore c k).actSeq = s.actSeq := rfl
@[simp] theorem State.setCore_clock (s : State) (c : CoreId) (k : Core) : (s.setCore c k).clock = s.clock := rfl
@[simp] theorem State.setCore_caps (s : State) (c : CoreId) (k : Core) : (s.setCore c k).caps = s.caps := rfl
@[simp] theorem State.setCore_devid (s : State) (c : CoreId) (k : Core) : (s.setCore c k).devid = s.devid := rfl
@[simp] theorem State.setCore_mem (s : State) (c : CoreId) (k : Core) : (s.setCore c k).mem = s.mem := rfl
@[simp] theorem State.setCore_remote (s : State) (c : CoreId) (k : Core) : (s.setCore c k).remote = s.remote := rfl
@[simp] theorem State.setCore_remoteUp (s : State) (c : CoreId) (k : Core) : (s.setCore c k).remoteUp = s.remoteUp := rfl
@[simp] theorem State.setCore_badLines (s : State) (c : CoreId) (k : Core) : (s.setCore c k).badLines = s.badLines := rfl
@[simp] theorem State.setCore_tags (s : State) (c : CoreId) (k : Core) : (s.setCore c k).tags = s.tags := rfl
@[simp] theorem State.setCore_keyGen (s : State) (c : CoreId) (k : Core) : (s.setCore c k).keyGen = s.keyGen := rfl
@[simp] theorem State.setCore_atsAbsent (s : State) (c : CoreId) (k : Core) : (s.setCore c k).atsAbsent = s.atsAbsent := rfl
@[simp] theorem State.setCore_tlb (s : State) (c : CoreId) (k : Core) : (s.setCore c k).tlb = s.tlb := rfl
@[simp] theorem State.setCore_windows (s : State) (c : CoreId) (k : Core) : (s.setCore c k).windows = s.windows := rfl
@[simp] theorem State.setCore_ctxs (s : State) (c : CoreId) (k : Core) : (s.setCore c k).ctxs = s.ctxs := rfl
@[simp] theorem State.setCore_ctxbase (s : State) (c : CoreId) (k : Core) : (s.setCore c k).ctxbase = s.ctxbase := rfl
@[simp] theorem State.setCore_tlt (s : State) (c : CoreId) (k : Core) : (s.setCore c k).tlt = s.tlt := rfl
@[simp] theorem State.setCore_stale (s : State) (c : CoreId) (k : Core) : (s.setCore c k).stale = s.stale := rfl
@[simp] theorem State.setCore_downLinks (s : State) (c : CoreId) (k : Core) : (s.setCore c k).downLinks = s.downLinks := rfl
@[simp] theorem State.setCore_diesOut (s : State) (c : CoreId) (k : Core) : (s.setCore c k).diesOut = s.diesOut := rfl
@[simp] theorem State.setCore_termite (s : State) (c : CoreId) (k : Core) : (s.setCore c k).termite = s.termite := rfl
@[simp] theorem State.setCore_posted (s : State) (c : CoreId) (k : Core) : (s.setCore c k).posted = s.posted := rfl
@[simp] theorem State.setCore_postNum (s : State) (c : CoreId) (k : Core) : (s.setCore c k).postNum = s.postNum := rfl
@[simp] theorem State.setCore_peeks (s : State) (c : CoreId) (k : Core) : (s.setCore c k).peeks = s.peeks := rfl
@[simp] theorem State.setCore_nextUid (s : State) (c : CoreId) (k : Core) : (s.setCore c k).nextUid = s.nextUid := rfl
@[simp] theorem State.setCore_msgs (s : State) (c : CoreId) (k : Core) : (s.setCore c k).msgs = s.msgs := rfl
@[simp] theorem State.setCore_media (s : State) (c : CoreId) (k : Core) : (s.setCore c k).media = s.media := rfl
@[simp] theorem State.setCore_colls (s : State) (c : CoreId) (k : Core) : (s.setCore c k).colls = s.colls := rfl
@[simp] theorem State.setCore_collData (s : State) (c : CoreId) (k : Core) : (s.setCore c k).collData = s.collData := rfl
@[simp] theorem State.setCore_collReports (s : State) (c : CoreId) (k : Core) : (s.setCore c k).collReports = s.collReports := rfl
@[simp] theorem State.setCore_collNotes (s : State) (c : CoreId) (k : Core) : (s.setCore c k).collNotes = s.collNotes := rfl
@[simp] theorem State.setCore_collEvents (s : State) (c : CoreId) (k : Core) : (s.setCore c k).collEvents = s.collEvents := rfl
@[simp] theorem State.setCore_collNum (s : State) (c : CoreId) (k : Core) : (s.setCore c k).collNum = s.collNum := rfl
@[simp] theorem State.setCore_lq (s : State) (c : CoreId) (k : Core) : (s.setCore c k).lq = s.lq := rfl
@[simp] theorem State.setCore_slots (s : State) (c : CoreId) (k : Core) : (s.setCore c k).slots = s.slots := rfl
@[simp] theorem State.setCore_pool (s : State) (c : CoreId) (k : Core) : (s.setCore c k).pool = s.pool := rfl
@[simp] theorem State.setCore_spillq (s : State) (c : CoreId) (k : Core) : (s.setCore c k).spillq = s.spillq := rfl
@[simp] theorem State.setCore_recPtr (s : State) (c : CoreId) (k : Core) : (s.setCore c k).recPtr = s.recPtr := rfl
@[simp] theorem State.setCore_selPtr (s : State) (c : CoreId) (k : Core) : (s.setCore c k).selPtr = s.selPtr := rfl
@[simp] theorem State.setCore_nextAge (s : State) (c : CoreId) (k : Core) : (s.setCore c k).nextAge = s.nextAge := rfl
@[simp] theorem State.setCore_ldrop (s : State) (c : CoreId) (k : Core) : (s.setCore c k).ldrop = s.ldrop := rfl
@[simp] theorem State.setCore_shlim (s : State) (c : CoreId) (k : Core) : (s.setCore c k).shlim = s.shlim := rfl
@[simp] theorem State.setCore_ctxcmd (s : State) (c : CoreId) (k : Core) : (s.setCore c k).ctxcmd = s.ctxcmd := rfl
@[simp] theorem State.setCore_ctxarg (s : State) (c : CoreId) (k : Core) : (s.setCore c k).ctxarg = s.ctxarg := rfl
@[simp] theorem State.setCore_copywt (s : State) (c : CoreId) (k : Core) : (s.setCore c k).copywt = s.copywt := rfl
@[simp] theorem State.setCore_armReqs (s : State) (c : CoreId) (k : Core) : (s.setCore c k).armReqs = s.armReqs := rfl
@[simp] theorem State.setCore_armed (s : State) (c : CoreId) (k : Core) : (s.setCore c k).armed = s.armed := rfl
@[simp] theorem State.setCore_rounds (s : State) (c : CoreId) (k : Core) : (s.setCore c k).rounds = s.rounds := rfl
@[simp] theorem State.setCore_boot (s : State) (c : CoreId) (k : Core) : (s.setCore c k).boot = s.boot := rfl
@[simp] theorem State.setCore_failcode (s : State) (c : CoreId) (k : Core) : (s.setCore c k).failcode = s.failcode := rfl
@[simp] theorem State.setCore_pthrot (s : State) (c : CoreId) (k : Core) : (s.setCore c k).pthrot = s.pthrot := rfl
@[simp] theorem State.setCore_tthrot (s : State) (c : CoreId) (k : Core) : (s.setCore c k).tthrot = s.tthrot := rfl
@[simp] theorem State.setCore_tlbiAddr (s : State) (c : CoreId) (k : Core) : (s.setCore c k).tlbiAddr = s.tlbiAddr := rfl
@[simp] theorem State.setCore_tlbiLen (s : State) (c : CoreId) (k : Core) : (s.setCore c k).tlbiLen = s.tlbiLen := rfl
@[simp] theorem State.setCore_tlbiCtx (s : State) (c : CoreId) (k : Core) : (s.setCore c k).tlbiCtx = s.tlbiCtx := rfl
@[simp] theorem State.setCore_tlbiGo (s : State) (c : CoreId) (k : Core) : (s.setCore c k).tlbiGo = s.tlbiGo := rfl
@[simp] theorem State.setCore_tripped (s : State) (c : CoreId) (k : Core) : (s.setCore c k).tripped = s.tripped := rfl
@[simp] theorem State.setCore_nudon (s : State) (c : CoreId) (k : Core) : (s.setCore c k).nudon = s.nudon := rfl
@[simp] theorem State.setCore_tdi (s : State) (c : CoreId) (k : Core) : (s.setCore c k).tdi = s.tdi := rfl
@[simp] theorem State.setCore_falls (s : State) (c : CoreId) (k : Core) : (s.setCore c k).falls = s.falls := rfl
@[simp] theorem State.setCore_walkAt (s : State) (c : CoreId) (k : Core) : (s.setCore c k).walkAt = s.walkAt := rfl
@[simp] theorem State.setCore_spdmOk (s : State) (c : CoreId) (k : Core) : (s.setCore c k).spdmOk = s.spdmOk := rfl
@[simp] theorem State.setCore_session (s : State) (c : CoreId) (k : Core) : (s.setCore c k).session = s.session := rfl
@[simp] theorem State.setCore_eid (s : State) (c : CoreId) (k : Core) : (s.setCore c k).eid = s.eid := rfl
@[simp] theorem State.setCore_flash (s : State) (c : CoreId) (k : Core) : (s.setCore c k).flash = s.flash := rfl
@[simp] theorem State.setCore_staged (s : State) (c : CoreId) (k : Core) : (s.setCore c k).staged = s.staged := rfl
@[simp] theorem State.setCore_meas (s : State) (c : CoreId) (k : Core) : (s.setCore c k).meas = s.meas := rfl
@[simp] theorem State.setCore_noPcie (s : State) (c : CoreId) (k : Core) : (s.setCore c k).noPcie = s.noPcie := rfl
@[simp] theorem State.setCore_debug (s : State) (c : CoreId) (k : Core) : (s.setCore c k).debug = s.debug := rfl
@[simp] theorem State.setCore_sent (s : State) (c : CoreId) (k : Core) : (s.setCore c k).sent = s.sent := rfl

/-! State.onCore -/

@[simp] theorem State.onCore_schedule (s : State) (c : CoreId) (f : Core → Core) : (s.onCore c f).schedule = s.schedule := rfl
@[simp] theorem State.onCore_turn (s : State) (c : CoreId) (f : Core → Core) : (s.onCore c f).turn = s.turn := rfl
@[simp] theorem State.onCore_freeCtr (s : State) (c : CoreId) (f : Core → Core) : (s.onCore c f).freeCtr = s.freeCtr := rfl
@[simp] theorem State.onCore_seqNo (s : State) (c : CoreId) (f : Core → Core) : (s.onCore c f).seqNo = s.seqNo := rfl
@[simp] theorem State.onCore_actCore (s : State) (c : CoreId) (f : Core → Core) : (s.onCore c f).actCore = s.actCore := rfl
@[simp] theorem State.onCore_actSeq (s : State) (c : CoreId) (f : Core → Core) : (s.onCore c f).actSeq = s.actSeq := rfl
@[simp] theorem State.onCore_clock (s : State) (c : CoreId) (f : Core → Core) : (s.onCore c f).clock = s.clock := rfl
@[simp] theorem State.onCore_caps (s : State) (c : CoreId) (f : Core → Core) : (s.onCore c f).caps = s.caps := rfl
@[simp] theorem State.onCore_devid (s : State) (c : CoreId) (f : Core → Core) : (s.onCore c f).devid = s.devid := rfl
@[simp] theorem State.onCore_mem (s : State) (c : CoreId) (f : Core → Core) : (s.onCore c f).mem = s.mem := rfl
@[simp] theorem State.onCore_remote (s : State) (c : CoreId) (f : Core → Core) : (s.onCore c f).remote = s.remote := rfl
@[simp] theorem State.onCore_remoteUp (s : State) (c : CoreId) (f : Core → Core) : (s.onCore c f).remoteUp = s.remoteUp := rfl
@[simp] theorem State.onCore_badLines (s : State) (c : CoreId) (f : Core → Core) : (s.onCore c f).badLines = s.badLines := rfl
@[simp] theorem State.onCore_tags (s : State) (c : CoreId) (f : Core → Core) : (s.onCore c f).tags = s.tags := rfl
@[simp] theorem State.onCore_keyGen (s : State) (c : CoreId) (f : Core → Core) : (s.onCore c f).keyGen = s.keyGen := rfl
@[simp] theorem State.onCore_atsAbsent (s : State) (c : CoreId) (f : Core → Core) : (s.onCore c f).atsAbsent = s.atsAbsent := rfl
@[simp] theorem State.onCore_tlb (s : State) (c : CoreId) (f : Core → Core) : (s.onCore c f).tlb = s.tlb := rfl
@[simp] theorem State.onCore_windows (s : State) (c : CoreId) (f : Core → Core) : (s.onCore c f).windows = s.windows := rfl
@[simp] theorem State.onCore_ctxs (s : State) (c : CoreId) (f : Core → Core) : (s.onCore c f).ctxs = s.ctxs := rfl
@[simp] theorem State.onCore_ctxbase (s : State) (c : CoreId) (f : Core → Core) : (s.onCore c f).ctxbase = s.ctxbase := rfl
@[simp] theorem State.onCore_tlt (s : State) (c : CoreId) (f : Core → Core) : (s.onCore c f).tlt = s.tlt := rfl
@[simp] theorem State.onCore_stale (s : State) (c : CoreId) (f : Core → Core) : (s.onCore c f).stale = s.stale := rfl
@[simp] theorem State.onCore_downLinks (s : State) (c : CoreId) (f : Core → Core) : (s.onCore c f).downLinks = s.downLinks := rfl
@[simp] theorem State.onCore_diesOut (s : State) (c : CoreId) (f : Core → Core) : (s.onCore c f).diesOut = s.diesOut := rfl
@[simp] theorem State.onCore_termite (s : State) (c : CoreId) (f : Core → Core) : (s.onCore c f).termite = s.termite := rfl
@[simp] theorem State.onCore_posted (s : State) (c : CoreId) (f : Core → Core) : (s.onCore c f).posted = s.posted := rfl
@[simp] theorem State.onCore_postNum (s : State) (c : CoreId) (f : Core → Core) : (s.onCore c f).postNum = s.postNum := rfl
@[simp] theorem State.onCore_peeks (s : State) (c : CoreId) (f : Core → Core) : (s.onCore c f).peeks = s.peeks := rfl
@[simp] theorem State.onCore_nextUid (s : State) (c : CoreId) (f : Core → Core) : (s.onCore c f).nextUid = s.nextUid := rfl
@[simp] theorem State.onCore_msgs (s : State) (c : CoreId) (f : Core → Core) : (s.onCore c f).msgs = s.msgs := rfl
@[simp] theorem State.onCore_media (s : State) (c : CoreId) (f : Core → Core) : (s.onCore c f).media = s.media := rfl
@[simp] theorem State.onCore_colls (s : State) (c : CoreId) (f : Core → Core) : (s.onCore c f).colls = s.colls := rfl
@[simp] theorem State.onCore_collData (s : State) (c : CoreId) (f : Core → Core) : (s.onCore c f).collData = s.collData := rfl
@[simp] theorem State.onCore_collReports (s : State) (c : CoreId) (f : Core → Core) : (s.onCore c f).collReports = s.collReports := rfl
@[simp] theorem State.onCore_collNotes (s : State) (c : CoreId) (f : Core → Core) : (s.onCore c f).collNotes = s.collNotes := rfl
@[simp] theorem State.onCore_collEvents (s : State) (c : CoreId) (f : Core → Core) : (s.onCore c f).collEvents = s.collEvents := rfl
@[simp] theorem State.onCore_collNum (s : State) (c : CoreId) (f : Core → Core) : (s.onCore c f).collNum = s.collNum := rfl
@[simp] theorem State.onCore_lq (s : State) (c : CoreId) (f : Core → Core) : (s.onCore c f).lq = s.lq := rfl
@[simp] theorem State.onCore_slots (s : State) (c : CoreId) (f : Core → Core) : (s.onCore c f).slots = s.slots := rfl
@[simp] theorem State.onCore_pool (s : State) (c : CoreId) (f : Core → Core) : (s.onCore c f).pool = s.pool := rfl
@[simp] theorem State.onCore_spillq (s : State) (c : CoreId) (f : Core → Core) : (s.onCore c f).spillq = s.spillq := rfl
@[simp] theorem State.onCore_recPtr (s : State) (c : CoreId) (f : Core → Core) : (s.onCore c f).recPtr = s.recPtr := rfl
@[simp] theorem State.onCore_selPtr (s : State) (c : CoreId) (f : Core → Core) : (s.onCore c f).selPtr = s.selPtr := rfl
@[simp] theorem State.onCore_nextAge (s : State) (c : CoreId) (f : Core → Core) : (s.onCore c f).nextAge = s.nextAge := rfl
@[simp] theorem State.onCore_ldrop (s : State) (c : CoreId) (f : Core → Core) : (s.onCore c f).ldrop = s.ldrop := rfl
@[simp] theorem State.onCore_shlim (s : State) (c : CoreId) (f : Core → Core) : (s.onCore c f).shlim = s.shlim := rfl
@[simp] theorem State.onCore_ctxcmd (s : State) (c : CoreId) (f : Core → Core) : (s.onCore c f).ctxcmd = s.ctxcmd := rfl
@[simp] theorem State.onCore_ctxarg (s : State) (c : CoreId) (f : Core → Core) : (s.onCore c f).ctxarg = s.ctxarg := rfl
@[simp] theorem State.onCore_copywt (s : State) (c : CoreId) (f : Core → Core) : (s.onCore c f).copywt = s.copywt := rfl
@[simp] theorem State.onCore_armReqs (s : State) (c : CoreId) (f : Core → Core) : (s.onCore c f).armReqs = s.armReqs := rfl
@[simp] theorem State.onCore_armed (s : State) (c : CoreId) (f : Core → Core) : (s.onCore c f).armed = s.armed := rfl
@[simp] theorem State.onCore_rounds (s : State) (c : CoreId) (f : Core → Core) : (s.onCore c f).rounds = s.rounds := rfl
@[simp] theorem State.onCore_boot (s : State) (c : CoreId) (f : Core → Core) : (s.onCore c f).boot = s.boot := rfl
@[simp] theorem State.onCore_failcode (s : State) (c : CoreId) (f : Core → Core) : (s.onCore c f).failcode = s.failcode := rfl
@[simp] theorem State.onCore_pthrot (s : State) (c : CoreId) (f : Core → Core) : (s.onCore c f).pthrot = s.pthrot := rfl
@[simp] theorem State.onCore_tthrot (s : State) (c : CoreId) (f : Core → Core) : (s.onCore c f).tthrot = s.tthrot := rfl
@[simp] theorem State.onCore_tlbiAddr (s : State) (c : CoreId) (f : Core → Core) : (s.onCore c f).tlbiAddr = s.tlbiAddr := rfl
@[simp] theorem State.onCore_tlbiLen (s : State) (c : CoreId) (f : Core → Core) : (s.onCore c f).tlbiLen = s.tlbiLen := rfl
@[simp] theorem State.onCore_tlbiCtx (s : State) (c : CoreId) (f : Core → Core) : (s.onCore c f).tlbiCtx = s.tlbiCtx := rfl
@[simp] theorem State.onCore_tlbiGo (s : State) (c : CoreId) (f : Core → Core) : (s.onCore c f).tlbiGo = s.tlbiGo := rfl
@[simp] theorem State.onCore_tripped (s : State) (c : CoreId) (f : Core → Core) : (s.onCore c f).tripped = s.tripped := rfl
@[simp] theorem State.onCore_nudon (s : State) (c : CoreId) (f : Core → Core) : (s.onCore c f).nudon = s.nudon := rfl
@[simp] theorem State.onCore_tdi (s : State) (c : CoreId) (f : Core → Core) : (s.onCore c f).tdi = s.tdi := rfl
@[simp] theorem State.onCore_falls (s : State) (c : CoreId) (f : Core → Core) : (s.onCore c f).falls = s.falls := rfl
@[simp] theorem State.onCore_walkAt (s : State) (c : CoreId) (f : Core → Core) : (s.onCore c f).walkAt = s.walkAt := rfl
@[simp] theorem State.onCore_spdmOk (s : State) (c : CoreId) (f : Core → Core) : (s.onCore c f).spdmOk = s.spdmOk := rfl
@[simp] theorem State.onCore_session (s : State) (c : CoreId) (f : Core → Core) : (s.onCore c f).session = s.session := rfl
@[simp] theorem State.onCore_eid (s : State) (c : CoreId) (f : Core → Core) : (s.onCore c f).eid = s.eid := rfl
@[simp] theorem State.onCore_flash (s : State) (c : CoreId) (f : Core → Core) : (s.onCore c f).flash = s.flash := rfl
@[simp] theorem State.onCore_staged (s : State) (c : CoreId) (f : Core → Core) : (s.onCore c f).staged = s.staged := rfl
@[simp] theorem State.onCore_meas (s : State) (c : CoreId) (f : Core → Core) : (s.onCore c f).meas = s.meas := rfl
@[simp] theorem State.onCore_noPcie (s : State) (c : CoreId) (f : Core → Core) : (s.onCore c f).noPcie = s.noPcie := rfl
@[simp] theorem State.onCore_debug (s : State) (c : CoreId) (f : Core → Core) : (s.onCore c f).debug = s.debug := rfl
@[simp] theorem State.onCore_sent (s : State) (c : CoreId) (f : Core → Core) : (s.onCore c f).sent = s.sent := rfl

/-! State.onHere -/

@[simp] theorem State.onHere_schedule (s : State) (f : Core → Core) : (s.onHere f).schedule = s.schedule := rfl
@[simp] theorem State.onHere_turn (s : State) (f : Core → Core) : (s.onHere f).turn = s.turn := rfl
@[simp] theorem State.onHere_freeCtr (s : State) (f : Core → Core) : (s.onHere f).freeCtr = s.freeCtr := rfl
@[simp] theorem State.onHere_seqNo (s : State) (f : Core → Core) : (s.onHere f).seqNo = s.seqNo := rfl
@[simp] theorem State.onHere_actCore (s : State) (f : Core → Core) : (s.onHere f).actCore = s.actCore := rfl
@[simp] theorem State.onHere_actSeq (s : State) (f : Core → Core) : (s.onHere f).actSeq = s.actSeq := rfl
@[simp] theorem State.onHere_clock (s : State) (f : Core → Core) : (s.onHere f).clock = s.clock := rfl
@[simp] theorem State.onHere_caps (s : State) (f : Core → Core) : (s.onHere f).caps = s.caps := rfl
@[simp] theorem State.onHere_devid (s : State) (f : Core → Core) : (s.onHere f).devid = s.devid := rfl
@[simp] theorem State.onHere_mem (s : State) (f : Core → Core) : (s.onHere f).mem = s.mem := rfl
@[simp] theorem State.onHere_remote (s : State) (f : Core → Core) : (s.onHere f).remote = s.remote := rfl
@[simp] theorem State.onHere_remoteUp (s : State) (f : Core → Core) : (s.onHere f).remoteUp = s.remoteUp := rfl
@[simp] theorem State.onHere_badLines (s : State) (f : Core → Core) : (s.onHere f).badLines = s.badLines := rfl
@[simp] theorem State.onHere_tags (s : State) (f : Core → Core) : (s.onHere f).tags = s.tags := rfl
@[simp] theorem State.onHere_keyGen (s : State) (f : Core → Core) : (s.onHere f).keyGen = s.keyGen := rfl
@[simp] theorem State.onHere_atsAbsent (s : State) (f : Core → Core) : (s.onHere f).atsAbsent = s.atsAbsent := rfl
@[simp] theorem State.onHere_tlb (s : State) (f : Core → Core) : (s.onHere f).tlb = s.tlb := rfl
@[simp] theorem State.onHere_windows (s : State) (f : Core → Core) : (s.onHere f).windows = s.windows := rfl
@[simp] theorem State.onHere_ctxs (s : State) (f : Core → Core) : (s.onHere f).ctxs = s.ctxs := rfl
@[simp] theorem State.onHere_ctxbase (s : State) (f : Core → Core) : (s.onHere f).ctxbase = s.ctxbase := rfl
@[simp] theorem State.onHere_tlt (s : State) (f : Core → Core) : (s.onHere f).tlt = s.tlt := rfl
@[simp] theorem State.onHere_stale (s : State) (f : Core → Core) : (s.onHere f).stale = s.stale := rfl
@[simp] theorem State.onHere_downLinks (s : State) (f : Core → Core) : (s.onHere f).downLinks = s.downLinks := rfl
@[simp] theorem State.onHere_diesOut (s : State) (f : Core → Core) : (s.onHere f).diesOut = s.diesOut := rfl
@[simp] theorem State.onHere_termite (s : State) (f : Core → Core) : (s.onHere f).termite = s.termite := rfl
@[simp] theorem State.onHere_posted (s : State) (f : Core → Core) : (s.onHere f).posted = s.posted := rfl
@[simp] theorem State.onHere_postNum (s : State) (f : Core → Core) : (s.onHere f).postNum = s.postNum := rfl
@[simp] theorem State.onHere_peeks (s : State) (f : Core → Core) : (s.onHere f).peeks = s.peeks := rfl
@[simp] theorem State.onHere_nextUid (s : State) (f : Core → Core) : (s.onHere f).nextUid = s.nextUid := rfl
@[simp] theorem State.onHere_msgs (s : State) (f : Core → Core) : (s.onHere f).msgs = s.msgs := rfl
@[simp] theorem State.onHere_media (s : State) (f : Core → Core) : (s.onHere f).media = s.media := rfl
@[simp] theorem State.onHere_colls (s : State) (f : Core → Core) : (s.onHere f).colls = s.colls := rfl
@[simp] theorem State.onHere_collData (s : State) (f : Core → Core) : (s.onHere f).collData = s.collData := rfl
@[simp] theorem State.onHere_collReports (s : State) (f : Core → Core) : (s.onHere f).collReports = s.collReports := rfl
@[simp] theorem State.onHere_collNotes (s : State) (f : Core → Core) : (s.onHere f).collNotes = s.collNotes := rfl
@[simp] theorem State.onHere_collEvents (s : State) (f : Core → Core) : (s.onHere f).collEvents = s.collEvents := rfl
@[simp] theorem State.onHere_collNum (s : State) (f : Core → Core) : (s.onHere f).collNum = s.collNum := rfl
@[simp] theorem State.onHere_lq (s : State) (f : Core → Core) : (s.onHere f).lq = s.lq := rfl
@[simp] theorem State.onHere_slots (s : State) (f : Core → Core) : (s.onHere f).slots = s.slots := rfl
@[simp] theorem State.onHere_pool (s : State) (f : Core → Core) : (s.onHere f).pool = s.pool := rfl
@[simp] theorem State.onHere_spillq (s : State) (f : Core → Core) : (s.onHere f).spillq = s.spillq := rfl
@[simp] theorem State.onHere_recPtr (s : State) (f : Core → Core) : (s.onHere f).recPtr = s.recPtr := rfl
@[simp] theorem State.onHere_selPtr (s : State) (f : Core → Core) : (s.onHere f).selPtr = s.selPtr := rfl
@[simp] theorem State.onHere_nextAge (s : State) (f : Core → Core) : (s.onHere f).nextAge = s.nextAge := rfl
@[simp] theorem State.onHere_ldrop (s : State) (f : Core → Core) : (s.onHere f).ldrop = s.ldrop := rfl
@[simp] theorem State.onHere_shlim (s : State) (f : Core → Core) : (s.onHere f).shlim = s.shlim := rfl
@[simp] theorem State.onHere_ctxcmd (s : State) (f : Core → Core) : (s.onHere f).ctxcmd = s.ctxcmd := rfl
@[simp] theorem State.onHere_ctxarg (s : State) (f : Core → Core) : (s.onHere f).ctxarg = s.ctxarg := rfl
@[simp] theorem State.onHere_copywt (s : State) (f : Core → Core) : (s.onHere f).copywt = s.copywt := rfl
@[simp] theorem State.onHere_armReqs (s : State) (f : Core → Core) : (s.onHere f).armReqs = s.armReqs := rfl
@[simp] theorem State.onHere_armed (s : State) (f : Core → Core) : (s.onHere f).armed = s.armed := rfl
@[simp] theorem State.onHere_rounds (s : State) (f : Core → Core) : (s.onHere f).rounds = s.rounds := rfl
@[simp] theorem State.onHere_boot (s : State) (f : Core → Core) : (s.onHere f).boot = s.boot := rfl
@[simp] theorem State.onHere_failcode (s : State) (f : Core → Core) : (s.onHere f).failcode = s.failcode := rfl
@[simp] theorem State.onHere_pthrot (s : State) (f : Core → Core) : (s.onHere f).pthrot = s.pthrot := rfl
@[simp] theorem State.onHere_tthrot (s : State) (f : Core → Core) : (s.onHere f).tthrot = s.tthrot := rfl
@[simp] theorem State.onHere_tlbiAddr (s : State) (f : Core → Core) : (s.onHere f).tlbiAddr = s.tlbiAddr := rfl
@[simp] theorem State.onHere_tlbiLen (s : State) (f : Core → Core) : (s.onHere f).tlbiLen = s.tlbiLen := rfl
@[simp] theorem State.onHere_tlbiCtx (s : State) (f : Core → Core) : (s.onHere f).tlbiCtx = s.tlbiCtx := rfl
@[simp] theorem State.onHere_tlbiGo (s : State) (f : Core → Core) : (s.onHere f).tlbiGo = s.tlbiGo := rfl
@[simp] theorem State.onHere_tripped (s : State) (f : Core → Core) : (s.onHere f).tripped = s.tripped := rfl
@[simp] theorem State.onHere_nudon (s : State) (f : Core → Core) : (s.onHere f).nudon = s.nudon := rfl
@[simp] theorem State.onHere_tdi (s : State) (f : Core → Core) : (s.onHere f).tdi = s.tdi := rfl
@[simp] theorem State.onHere_falls (s : State) (f : Core → Core) : (s.onHere f).falls = s.falls := rfl
@[simp] theorem State.onHere_walkAt (s : State) (f : Core → Core) : (s.onHere f).walkAt = s.walkAt := rfl
@[simp] theorem State.onHere_spdmOk (s : State) (f : Core → Core) : (s.onHere f).spdmOk = s.spdmOk := rfl
@[simp] theorem State.onHere_session (s : State) (f : Core → Core) : (s.onHere f).session = s.session := rfl
@[simp] theorem State.onHere_eid (s : State) (f : Core → Core) : (s.onHere f).eid = s.eid := rfl
@[simp] theorem State.onHere_flash (s : State) (f : Core → Core) : (s.onHere f).flash = s.flash := rfl
@[simp] theorem State.onHere_staged (s : State) (f : Core → Core) : (s.onHere f).staged = s.staged := rfl
@[simp] theorem State.onHere_meas (s : State) (f : Core → Core) : (s.onHere f).meas = s.meas := rfl
@[simp] theorem State.onHere_noPcie (s : State) (f : Core → Core) : (s.onHere f).noPcie = s.noPcie := rfl
@[simp] theorem State.onHere_debug (s : State) (f : Core → Core) : (s.onHere f).debug = s.debug := rfl
@[simp] theorem State.onHere_sent (s : State) (f : Core → Core) : (s.onHere f).sent = s.sent := rfl

/-! State.onCtl -/

@[simp] theorem State.onCtl_schedule (s : State) (f : Ctl → Ctl) : (s.onCtl f).schedule = s.schedule := rfl
@[simp] theorem State.onCtl_turn (s : State) (f : Ctl → Ctl) : (s.onCtl f).turn = s.turn := rfl
@[simp] theorem State.onCtl_freeCtr (s : State) (f : Ctl → Ctl) : (s.onCtl f).freeCtr = s.freeCtr := rfl
@[simp] theorem State.onCtl_seqNo (s : State) (f : Ctl → Ctl) : (s.onCtl f).seqNo = s.seqNo := rfl
@[simp] theorem State.onCtl_actCore (s : State) (f : Ctl → Ctl) : (s.onCtl f).actCore = s.actCore := rfl
@[simp] theorem State.onCtl_actSeq (s : State) (f : Ctl → Ctl) : (s.onCtl f).actSeq = s.actSeq := rfl
@[simp] theorem State.onCtl_clock (s : State) (f : Ctl → Ctl) : (s.onCtl f).clock = s.clock := rfl
@[simp] theorem State.onCtl_caps (s : State) (f : Ctl → Ctl) : (s.onCtl f).caps = s.caps := rfl
@[simp] theorem State.onCtl_devid (s : State) (f : Ctl → Ctl) : (s.onCtl f).devid = s.devid := rfl
@[simp] theorem State.onCtl_mem (s : State) (f : Ctl → Ctl) : (s.onCtl f).mem = s.mem := rfl
@[simp] theorem State.onCtl_remote (s : State) (f : Ctl → Ctl) : (s.onCtl f).remote = s.remote := rfl
@[simp] theorem State.onCtl_remoteUp (s : State) (f : Ctl → Ctl) : (s.onCtl f).remoteUp = s.remoteUp := rfl
@[simp] theorem State.onCtl_badLines (s : State) (f : Ctl → Ctl) : (s.onCtl f).badLines = s.badLines := rfl
@[simp] theorem State.onCtl_tags (s : State) (f : Ctl → Ctl) : (s.onCtl f).tags = s.tags := rfl
@[simp] theorem State.onCtl_keyGen (s : State) (f : Ctl → Ctl) : (s.onCtl f).keyGen = s.keyGen := rfl
@[simp] theorem State.onCtl_atsAbsent (s : State) (f : Ctl → Ctl) : (s.onCtl f).atsAbsent = s.atsAbsent := rfl
@[simp] theorem State.onCtl_tlb (s : State) (f : Ctl → Ctl) : (s.onCtl f).tlb = s.tlb := rfl
@[simp] theorem State.onCtl_windows (s : State) (f : Ctl → Ctl) : (s.onCtl f).windows = s.windows := rfl
@[simp] theorem State.onCtl_ctxs (s : State) (f : Ctl → Ctl) : (s.onCtl f).ctxs = s.ctxs := rfl
@[simp] theorem State.onCtl_ctxbase (s : State) (f : Ctl → Ctl) : (s.onCtl f).ctxbase = s.ctxbase := rfl
@[simp] theorem State.onCtl_tlt (s : State) (f : Ctl → Ctl) : (s.onCtl f).tlt = s.tlt := rfl
@[simp] theorem State.onCtl_stale (s : State) (f : Ctl → Ctl) : (s.onCtl f).stale = s.stale := rfl
@[simp] theorem State.onCtl_downLinks (s : State) (f : Ctl → Ctl) : (s.onCtl f).downLinks = s.downLinks := rfl
@[simp] theorem State.onCtl_diesOut (s : State) (f : Ctl → Ctl) : (s.onCtl f).diesOut = s.diesOut := rfl
@[simp] theorem State.onCtl_termite (s : State) (f : Ctl → Ctl) : (s.onCtl f).termite = s.termite := rfl
@[simp] theorem State.onCtl_posted (s : State) (f : Ctl → Ctl) : (s.onCtl f).posted = s.posted := rfl
@[simp] theorem State.onCtl_postNum (s : State) (f : Ctl → Ctl) : (s.onCtl f).postNum = s.postNum := rfl
@[simp] theorem State.onCtl_peeks (s : State) (f : Ctl → Ctl) : (s.onCtl f).peeks = s.peeks := rfl
@[simp] theorem State.onCtl_nextUid (s : State) (f : Ctl → Ctl) : (s.onCtl f).nextUid = s.nextUid := rfl
@[simp] theorem State.onCtl_msgs (s : State) (f : Ctl → Ctl) : (s.onCtl f).msgs = s.msgs := rfl
@[simp] theorem State.onCtl_media (s : State) (f : Ctl → Ctl) : (s.onCtl f).media = s.media := rfl
@[simp] theorem State.onCtl_colls (s : State) (f : Ctl → Ctl) : (s.onCtl f).colls = s.colls := rfl
@[simp] theorem State.onCtl_collData (s : State) (f : Ctl → Ctl) : (s.onCtl f).collData = s.collData := rfl
@[simp] theorem State.onCtl_collReports (s : State) (f : Ctl → Ctl) : (s.onCtl f).collReports = s.collReports := rfl
@[simp] theorem State.onCtl_collNotes (s : State) (f : Ctl → Ctl) : (s.onCtl f).collNotes = s.collNotes := rfl
@[simp] theorem State.onCtl_collEvents (s : State) (f : Ctl → Ctl) : (s.onCtl f).collEvents = s.collEvents := rfl
@[simp] theorem State.onCtl_collNum (s : State) (f : Ctl → Ctl) : (s.onCtl f).collNum = s.collNum := rfl
@[simp] theorem State.onCtl_lq (s : State) (f : Ctl → Ctl) : (s.onCtl f).lq = s.lq := rfl
@[simp] theorem State.onCtl_slots (s : State) (f : Ctl → Ctl) : (s.onCtl f).slots = s.slots := rfl
@[simp] theorem State.onCtl_pool (s : State) (f : Ctl → Ctl) : (s.onCtl f).pool = s.pool := rfl
@[simp] theorem State.onCtl_spillq (s : State) (f : Ctl → Ctl) : (s.onCtl f).spillq = s.spillq := rfl
@[simp] theorem State.onCtl_recPtr (s : State) (f : Ctl → Ctl) : (s.onCtl f).recPtr = s.recPtr := rfl
@[simp] theorem State.onCtl_selPtr (s : State) (f : Ctl → Ctl) : (s.onCtl f).selPtr = s.selPtr := rfl
@[simp] theorem State.onCtl_nextAge (s : State) (f : Ctl → Ctl) : (s.onCtl f).nextAge = s.nextAge := rfl
@[simp] theorem State.onCtl_ldrop (s : State) (f : Ctl → Ctl) : (s.onCtl f).ldrop = s.ldrop := rfl
@[simp] theorem State.onCtl_shlim (s : State) (f : Ctl → Ctl) : (s.onCtl f).shlim = s.shlim := rfl
@[simp] theorem State.onCtl_ctxcmd (s : State) (f : Ctl → Ctl) : (s.onCtl f).ctxcmd = s.ctxcmd := rfl
@[simp] theorem State.onCtl_ctxarg (s : State) (f : Ctl → Ctl) : (s.onCtl f).ctxarg = s.ctxarg := rfl
@[simp] theorem State.onCtl_copywt (s : State) (f : Ctl → Ctl) : (s.onCtl f).copywt = s.copywt := rfl
@[simp] theorem State.onCtl_armReqs (s : State) (f : Ctl → Ctl) : (s.onCtl f).armReqs = s.armReqs := rfl
@[simp] theorem State.onCtl_armed (s : State) (f : Ctl → Ctl) : (s.onCtl f).armed = s.armed := rfl
@[simp] theorem State.onCtl_rounds (s : State) (f : Ctl → Ctl) : (s.onCtl f).rounds = s.rounds := rfl
@[simp] theorem State.onCtl_boot (s : State) (f : Ctl → Ctl) : (s.onCtl f).boot = s.boot := rfl
@[simp] theorem State.onCtl_failcode (s : State) (f : Ctl → Ctl) : (s.onCtl f).failcode = s.failcode := rfl
@[simp] theorem State.onCtl_pthrot (s : State) (f : Ctl → Ctl) : (s.onCtl f).pthrot = s.pthrot := rfl
@[simp] theorem State.onCtl_tthrot (s : State) (f : Ctl → Ctl) : (s.onCtl f).tthrot = s.tthrot := rfl
@[simp] theorem State.onCtl_tlbiAddr (s : State) (f : Ctl → Ctl) : (s.onCtl f).tlbiAddr = s.tlbiAddr := rfl
@[simp] theorem State.onCtl_tlbiLen (s : State) (f : Ctl → Ctl) : (s.onCtl f).tlbiLen = s.tlbiLen := rfl
@[simp] theorem State.onCtl_tlbiCtx (s : State) (f : Ctl → Ctl) : (s.onCtl f).tlbiCtx = s.tlbiCtx := rfl
@[simp] theorem State.onCtl_tlbiGo (s : State) (f : Ctl → Ctl) : (s.onCtl f).tlbiGo = s.tlbiGo := rfl
@[simp] theorem State.onCtl_tripped (s : State) (f : Ctl → Ctl) : (s.onCtl f).tripped = s.tripped := rfl
@[simp] theorem State.onCtl_nudon (s : State) (f : Ctl → Ctl) : (s.onCtl f).nudon = s.nudon := rfl
@[simp] theorem State.onCtl_tdi (s : State) (f : Ctl → Ctl) : (s.onCtl f).tdi = s.tdi := rfl
@[simp] theorem State.onCtl_falls (s : State) (f : Ctl → Ctl) : (s.onCtl f).falls = s.falls := rfl
@[simp] theorem State.onCtl_walkAt (s : State) (f : Ctl → Ctl) : (s.onCtl f).walkAt = s.walkAt := rfl
@[simp] theorem State.onCtl_spdmOk (s : State) (f : Ctl → Ctl) : (s.onCtl f).spdmOk = s.spdmOk := rfl
@[simp] theorem State.onCtl_session (s : State) (f : Ctl → Ctl) : (s.onCtl f).session = s.session := rfl
@[simp] theorem State.onCtl_eid (s : State) (f : Ctl → Ctl) : (s.onCtl f).eid = s.eid := rfl
@[simp] theorem State.onCtl_flash (s : State) (f : Ctl → Ctl) : (s.onCtl f).flash = s.flash := rfl
@[simp] theorem State.onCtl_staged (s : State) (f : Ctl → Ctl) : (s.onCtl f).staged = s.staged := rfl
@[simp] theorem State.onCtl_meas (s : State) (f : Ctl → Ctl) : (s.onCtl f).meas = s.meas := rfl
@[simp] theorem State.onCtl_noPcie (s : State) (f : Ctl → Ctl) : (s.onCtl f).noPcie = s.noPcie := rfl
@[simp] theorem State.onCtl_debug (s : State) (f : Ctl → Ctl) : (s.onCtl f).debug = s.debug := rfl
@[simp] theorem State.onCtl_sent (s : State) (f : Ctl → Ctl) : (s.onCtl f).sent = s.sent := rfl

/-! State.setSreg -/

@[simp] theorem State.setSreg_schedule (s : State) (r : BitVec 5) (v : DWord) : (s.setSreg r v).schedule = s.schedule := rfl
@[simp] theorem State.setSreg_turn (s : State) (r : BitVec 5) (v : DWord) : (s.setSreg r v).turn = s.turn := rfl
@[simp] theorem State.setSreg_freeCtr (s : State) (r : BitVec 5) (v : DWord) : (s.setSreg r v).freeCtr = s.freeCtr := rfl
@[simp] theorem State.setSreg_seqNo (s : State) (r : BitVec 5) (v : DWord) : (s.setSreg r v).seqNo = s.seqNo := rfl
@[simp] theorem State.setSreg_actCore (s : State) (r : BitVec 5) (v : DWord) : (s.setSreg r v).actCore = s.actCore := rfl
@[simp] theorem State.setSreg_actSeq (s : State) (r : BitVec 5) (v : DWord) : (s.setSreg r v).actSeq = s.actSeq := rfl
@[simp] theorem State.setSreg_clock (s : State) (r : BitVec 5) (v : DWord) : (s.setSreg r v).clock = s.clock := rfl
@[simp] theorem State.setSreg_caps (s : State) (r : BitVec 5) (v : DWord) : (s.setSreg r v).caps = s.caps := rfl
@[simp] theorem State.setSreg_devid (s : State) (r : BitVec 5) (v : DWord) : (s.setSreg r v).devid = s.devid := rfl
@[simp] theorem State.setSreg_mem (s : State) (r : BitVec 5) (v : DWord) : (s.setSreg r v).mem = s.mem := rfl
@[simp] theorem State.setSreg_remote (s : State) (r : BitVec 5) (v : DWord) : (s.setSreg r v).remote = s.remote := rfl
@[simp] theorem State.setSreg_remoteUp (s : State) (r : BitVec 5) (v : DWord) : (s.setSreg r v).remoteUp = s.remoteUp := rfl
@[simp] theorem State.setSreg_badLines (s : State) (r : BitVec 5) (v : DWord) : (s.setSreg r v).badLines = s.badLines := rfl
@[simp] theorem State.setSreg_tags (s : State) (r : BitVec 5) (v : DWord) : (s.setSreg r v).tags = s.tags := rfl
@[simp] theorem State.setSreg_keyGen (s : State) (r : BitVec 5) (v : DWord) : (s.setSreg r v).keyGen = s.keyGen := rfl
@[simp] theorem State.setSreg_atsAbsent (s : State) (r : BitVec 5) (v : DWord) : (s.setSreg r v).atsAbsent = s.atsAbsent := rfl
@[simp] theorem State.setSreg_tlb (s : State) (r : BitVec 5) (v : DWord) : (s.setSreg r v).tlb = s.tlb := rfl
@[simp] theorem State.setSreg_windows (s : State) (r : BitVec 5) (v : DWord) : (s.setSreg r v).windows = s.windows := rfl
@[simp] theorem State.setSreg_ctxs (s : State) (r : BitVec 5) (v : DWord) : (s.setSreg r v).ctxs = s.ctxs := rfl
@[simp] theorem State.setSreg_ctxbase (s : State) (r : BitVec 5) (v : DWord) : (s.setSreg r v).ctxbase = s.ctxbase := rfl
@[simp] theorem State.setSreg_tlt (s : State) (r : BitVec 5) (v : DWord) : (s.setSreg r v).tlt = s.tlt := rfl
@[simp] theorem State.setSreg_stale (s : State) (r : BitVec 5) (v : DWord) : (s.setSreg r v).stale = s.stale := rfl
@[simp] theorem State.setSreg_downLinks (s : State) (r : BitVec 5) (v : DWord) : (s.setSreg r v).downLinks = s.downLinks := rfl
@[simp] theorem State.setSreg_diesOut (s : State) (r : BitVec 5) (v : DWord) : (s.setSreg r v).diesOut = s.diesOut := rfl
@[simp] theorem State.setSreg_termite (s : State) (r : BitVec 5) (v : DWord) : (s.setSreg r v).termite = s.termite := rfl
@[simp] theorem State.setSreg_posted (s : State) (r : BitVec 5) (v : DWord) : (s.setSreg r v).posted = s.posted := rfl
@[simp] theorem State.setSreg_postNum (s : State) (r : BitVec 5) (v : DWord) : (s.setSreg r v).postNum = s.postNum := rfl
@[simp] theorem State.setSreg_peeks (s : State) (r : BitVec 5) (v : DWord) : (s.setSreg r v).peeks = s.peeks := rfl
@[simp] theorem State.setSreg_nextUid (s : State) (r : BitVec 5) (v : DWord) : (s.setSreg r v).nextUid = s.nextUid := rfl
@[simp] theorem State.setSreg_msgs (s : State) (r : BitVec 5) (v : DWord) : (s.setSreg r v).msgs = s.msgs := rfl
@[simp] theorem State.setSreg_media (s : State) (r : BitVec 5) (v : DWord) : (s.setSreg r v).media = s.media := rfl
@[simp] theorem State.setSreg_colls (s : State) (r : BitVec 5) (v : DWord) : (s.setSreg r v).colls = s.colls := rfl
@[simp] theorem State.setSreg_collData (s : State) (r : BitVec 5) (v : DWord) : (s.setSreg r v).collData = s.collData := rfl
@[simp] theorem State.setSreg_collReports (s : State) (r : BitVec 5) (v : DWord) : (s.setSreg r v).collReports = s.collReports := rfl
@[simp] theorem State.setSreg_collNotes (s : State) (r : BitVec 5) (v : DWord) : (s.setSreg r v).collNotes = s.collNotes := rfl
@[simp] theorem State.setSreg_collEvents (s : State) (r : BitVec 5) (v : DWord) : (s.setSreg r v).collEvents = s.collEvents := rfl
@[simp] theorem State.setSreg_collNum (s : State) (r : BitVec 5) (v : DWord) : (s.setSreg r v).collNum = s.collNum := rfl
@[simp] theorem State.setSreg_lq (s : State) (r : BitVec 5) (v : DWord) : (s.setSreg r v).lq = s.lq := rfl
@[simp] theorem State.setSreg_slots (s : State) (r : BitVec 5) (v : DWord) : (s.setSreg r v).slots = s.slots := rfl
@[simp] theorem State.setSreg_pool (s : State) (r : BitVec 5) (v : DWord) : (s.setSreg r v).pool = s.pool := rfl
@[simp] theorem State.setSreg_spillq (s : State) (r : BitVec 5) (v : DWord) : (s.setSreg r v).spillq = s.spillq := rfl
@[simp] theorem State.setSreg_recPtr (s : State) (r : BitVec 5) (v : DWord) : (s.setSreg r v).recPtr = s.recPtr := rfl
@[simp] theorem State.setSreg_selPtr (s : State) (r : BitVec 5) (v : DWord) : (s.setSreg r v).selPtr = s.selPtr := rfl
@[simp] theorem State.setSreg_nextAge (s : State) (r : BitVec 5) (v : DWord) : (s.setSreg r v).nextAge = s.nextAge := rfl
@[simp] theorem State.setSreg_ldrop (s : State) (r : BitVec 5) (v : DWord) : (s.setSreg r v).ldrop = s.ldrop := rfl
@[simp] theorem State.setSreg_shlim (s : State) (r : BitVec 5) (v : DWord) : (s.setSreg r v).shlim = s.shlim := rfl
@[simp] theorem State.setSreg_ctxcmd (s : State) (r : BitVec 5) (v : DWord) : (s.setSreg r v).ctxcmd = s.ctxcmd := rfl
@[simp] theorem State.setSreg_ctxarg (s : State) (r : BitVec 5) (v : DWord) : (s.setSreg r v).ctxarg = s.ctxarg := rfl
@[simp] theorem State.setSreg_copywt (s : State) (r : BitVec 5) (v : DWord) : (s.setSreg r v).copywt = s.copywt := rfl
@[simp] theorem State.setSreg_armReqs (s : State) (r : BitVec 5) (v : DWord) : (s.setSreg r v).armReqs = s.armReqs := rfl
@[simp] theorem State.setSreg_armed (s : State) (r : BitVec 5) (v : DWord) : (s.setSreg r v).armed = s.armed := rfl
@[simp] theorem State.setSreg_rounds (s : State) (r : BitVec 5) (v : DWord) : (s.setSreg r v).rounds = s.rounds := rfl
@[simp] theorem State.setSreg_boot (s : State) (r : BitVec 5) (v : DWord) : (s.setSreg r v).boot = s.boot := rfl
@[simp] theorem State.setSreg_failcode (s : State) (r : BitVec 5) (v : DWord) : (s.setSreg r v).failcode = s.failcode := rfl
@[simp] theorem State.setSreg_pthrot (s : State) (r : BitVec 5) (v : DWord) : (s.setSreg r v).pthrot = s.pthrot := rfl
@[simp] theorem State.setSreg_tthrot (s : State) (r : BitVec 5) (v : DWord) : (s.setSreg r v).tthrot = s.tthrot := rfl
@[simp] theorem State.setSreg_tlbiAddr (s : State) (r : BitVec 5) (v : DWord) : (s.setSreg r v).tlbiAddr = s.tlbiAddr := rfl
@[simp] theorem State.setSreg_tlbiLen (s : State) (r : BitVec 5) (v : DWord) : (s.setSreg r v).tlbiLen = s.tlbiLen := rfl
@[simp] theorem State.setSreg_tlbiCtx (s : State) (r : BitVec 5) (v : DWord) : (s.setSreg r v).tlbiCtx = s.tlbiCtx := rfl
@[simp] theorem State.setSreg_tlbiGo (s : State) (r : BitVec 5) (v : DWord) : (s.setSreg r v).tlbiGo = s.tlbiGo := rfl
@[simp] theorem State.setSreg_tripped (s : State) (r : BitVec 5) (v : DWord) : (s.setSreg r v).tripped = s.tripped := rfl
@[simp] theorem State.setSreg_nudon (s : State) (r : BitVec 5) (v : DWord) : (s.setSreg r v).nudon = s.nudon := rfl
@[simp] theorem State.setSreg_tdi (s : State) (r : BitVec 5) (v : DWord) : (s.setSreg r v).tdi = s.tdi := rfl
@[simp] theorem State.setSreg_falls (s : State) (r : BitVec 5) (v : DWord) : (s.setSreg r v).falls = s.falls := rfl
@[simp] theorem State.setSreg_walkAt (s : State) (r : BitVec 5) (v : DWord) : (s.setSreg r v).walkAt = s.walkAt := rfl
@[simp] theorem State.setSreg_spdmOk (s : State) (r : BitVec 5) (v : DWord) : (s.setSreg r v).spdmOk = s.spdmOk := rfl
@[simp] theorem State.setSreg_session (s : State) (r : BitVec 5) (v : DWord) : (s.setSreg r v).session = s.session := rfl
@[simp] theorem State.setSreg_eid (s : State) (r : BitVec 5) (v : DWord) : (s.setSreg r v).eid = s.eid := rfl
@[simp] theorem State.setSreg_flash (s : State) (r : BitVec 5) (v : DWord) : (s.setSreg r v).flash = s.flash := rfl
@[simp] theorem State.setSreg_staged (s : State) (r : BitVec 5) (v : DWord) : (s.setSreg r v).staged = s.staged := rfl
@[simp] theorem State.setSreg_meas (s : State) (r : BitVec 5) (v : DWord) : (s.setSreg r v).meas = s.meas := rfl
@[simp] theorem State.setSreg_noPcie (s : State) (r : BitVec 5) (v : DWord) : (s.setSreg r v).noPcie = s.noPcie := rfl
@[simp] theorem State.setSreg_debug (s : State) (r : BitVec 5) (v : DWord) : (s.setSreg r v).debug = s.debug := rfl
@[simp] theorem State.setSreg_sent (s : State) (r : BitVec 5) (v : DWord) : (s.setSreg r v).sent = s.sent := rfl

/-! State.retire -/

@[simp] theorem State.retire_schedule (s : State) : (s.retire).schedule = s.schedule := rfl
@[simp] theorem State.retire_turn (s : State) : (s.retire).turn = s.turn := rfl
@[simp] theorem State.retire_freeCtr (s : State) : (s.retire).freeCtr = s.freeCtr := rfl
@[simp] theorem State.retire_seqNo (s : State) : (s.retire).seqNo = s.seqNo := rfl
@[simp] theorem State.retire_actCore (s : State) : (s.retire).actCore = s.actCore := rfl
@[simp] theorem State.retire_actSeq (s : State) : (s.retire).actSeq = s.actSeq := rfl
@[simp] theorem State.retire_clock (s : State) : (s.retire).clock = s.clock := rfl
@[simp] theorem State.retire_caps (s : State) : (s.retire).caps = s.caps := rfl
@[simp] theorem State.retire_devid (s : State) : (s.retire).devid = s.devid := rfl
@[simp] theorem State.retire_mem (s : State) : (s.retire).mem = s.mem := rfl
@[simp] theorem State.retire_remote (s : State) : (s.retire).remote = s.remote := rfl
@[simp] theorem State.retire_remoteUp (s : State) : (s.retire).remoteUp = s.remoteUp := rfl
@[simp] theorem State.retire_badLines (s : State) : (s.retire).badLines = s.badLines := rfl
@[simp] theorem State.retire_tags (s : State) : (s.retire).tags = s.tags := rfl
@[simp] theorem State.retire_keyGen (s : State) : (s.retire).keyGen = s.keyGen := rfl
@[simp] theorem State.retire_atsAbsent (s : State) : (s.retire).atsAbsent = s.atsAbsent := rfl
@[simp] theorem State.retire_tlb (s : State) : (s.retire).tlb = s.tlb := rfl
@[simp] theorem State.retire_windows (s : State) : (s.retire).windows = s.windows := rfl
@[simp] theorem State.retire_ctxs (s : State) : (s.retire).ctxs = s.ctxs := rfl
@[simp] theorem State.retire_ctxbase (s : State) : (s.retire).ctxbase = s.ctxbase := rfl
@[simp] theorem State.retire_tlt (s : State) : (s.retire).tlt = s.tlt := rfl
@[simp] theorem State.retire_stale (s : State) : (s.retire).stale = s.stale := rfl
@[simp] theorem State.retire_downLinks (s : State) : (s.retire).downLinks = s.downLinks := rfl
@[simp] theorem State.retire_diesOut (s : State) : (s.retire).diesOut = s.diesOut := rfl
@[simp] theorem State.retire_termite (s : State) : (s.retire).termite = s.termite := rfl
@[simp] theorem State.retire_posted (s : State) : (s.retire).posted = s.posted := rfl
@[simp] theorem State.retire_postNum (s : State) : (s.retire).postNum = s.postNum := rfl
@[simp] theorem State.retire_peeks (s : State) : (s.retire).peeks = s.peeks := rfl
@[simp] theorem State.retire_nextUid (s : State) : (s.retire).nextUid = s.nextUid := rfl
@[simp] theorem State.retire_msgs (s : State) : (s.retire).msgs = s.msgs := rfl
@[simp] theorem State.retire_media (s : State) : (s.retire).media = s.media := rfl
@[simp] theorem State.retire_colls (s : State) : (s.retire).colls = s.colls := rfl
@[simp] theorem State.retire_collData (s : State) : (s.retire).collData = s.collData := rfl
@[simp] theorem State.retire_collReports (s : State) : (s.retire).collReports = s.collReports := rfl
@[simp] theorem State.retire_collNotes (s : State) : (s.retire).collNotes = s.collNotes := rfl
@[simp] theorem State.retire_collEvents (s : State) : (s.retire).collEvents = s.collEvents := rfl
@[simp] theorem State.retire_collNum (s : State) : (s.retire).collNum = s.collNum := rfl
@[simp] theorem State.retire_lq (s : State) : (s.retire).lq = s.lq := rfl
@[simp] theorem State.retire_slots (s : State) : (s.retire).slots = s.slots := rfl
@[simp] theorem State.retire_pool (s : State) : (s.retire).pool = s.pool := rfl
@[simp] theorem State.retire_spillq (s : State) : (s.retire).spillq = s.spillq := rfl
@[simp] theorem State.retire_recPtr (s : State) : (s.retire).recPtr = s.recPtr := rfl
@[simp] theorem State.retire_selPtr (s : State) : (s.retire).selPtr = s.selPtr := rfl
@[simp] theorem State.retire_nextAge (s : State) : (s.retire).nextAge = s.nextAge := rfl
@[simp] theorem State.retire_ldrop (s : State) : (s.retire).ldrop = s.ldrop := rfl
@[simp] theorem State.retire_shlim (s : State) : (s.retire).shlim = s.shlim := rfl
@[simp] theorem State.retire_ctxcmd (s : State) : (s.retire).ctxcmd = s.ctxcmd := rfl
@[simp] theorem State.retire_ctxarg (s : State) : (s.retire).ctxarg = s.ctxarg := rfl
@[simp] theorem State.retire_copywt (s : State) : (s.retire).copywt = s.copywt := rfl
@[simp] theorem State.retire_armReqs (s : State) : (s.retire).armReqs = s.armReqs := rfl
@[simp] theorem State.retire_armed (s : State) : (s.retire).armed = s.armed := rfl
@[simp] theorem State.retire_rounds (s : State) : (s.retire).rounds = s.rounds := rfl
@[simp] theorem State.retire_boot (s : State) : (s.retire).boot = s.boot := rfl
@[simp] theorem State.retire_failcode (s : State) : (s.retire).failcode = s.failcode := rfl
@[simp] theorem State.retire_pthrot (s : State) : (s.retire).pthrot = s.pthrot := rfl
@[simp] theorem State.retire_tthrot (s : State) : (s.retire).tthrot = s.tthrot := rfl
@[simp] theorem State.retire_tlbiAddr (s : State) : (s.retire).tlbiAddr = s.tlbiAddr := rfl
@[simp] theorem State.retire_tlbiLen (s : State) : (s.retire).tlbiLen = s.tlbiLen := rfl
@[simp] theorem State.retire_tlbiCtx (s : State) : (s.retire).tlbiCtx = s.tlbiCtx := rfl
@[simp] theorem State.retire_tlbiGo (s : State) : (s.retire).tlbiGo = s.tlbiGo := rfl
@[simp] theorem State.retire_tripped (s : State) : (s.retire).tripped = s.tripped := rfl
@[simp] theorem State.retire_nudon (s : State) : (s.retire).nudon = s.nudon := rfl
@[simp] theorem State.retire_tdi (s : State) : (s.retire).tdi = s.tdi := rfl
@[simp] theorem State.retire_falls (s : State) : (s.retire).falls = s.falls := rfl
@[simp] theorem State.retire_walkAt (s : State) : (s.retire).walkAt = s.walkAt := rfl
@[simp] theorem State.retire_spdmOk (s : State) : (s.retire).spdmOk = s.spdmOk := rfl
@[simp] theorem State.retire_session (s : State) : (s.retire).session = s.session := rfl
@[simp] theorem State.retire_eid (s : State) : (s.retire).eid = s.eid := rfl
@[simp] theorem State.retire_flash (s : State) : (s.retire).flash = s.flash := rfl
@[simp] theorem State.retire_staged (s : State) : (s.retire).staged = s.staged := rfl
@[simp] theorem State.retire_meas (s : State) : (s.retire).meas = s.meas := rfl
@[simp] theorem State.retire_noPcie (s : State) : (s.retire).noPcie = s.noPcie := rfl
@[simp] theorem State.retire_debug (s : State) : (s.retire).debug = s.debug := rfl
@[simp] theorem State.retire_sent (s : State) : (s.retire).sent = s.sent := rfl

/-! State.setAreg -/

@[simp] theorem State.setAreg_schedule (s : State) (r : BitVec 4) (v : DWord) : (s.setAreg r v).schedule = s.schedule := rfl
@[simp] theorem State.setAreg_turn (s : State) (r : BitVec 4) (v : DWord) : (s.setAreg r v).turn = s.turn := rfl
@[simp] theorem State.setAreg_freeCtr (s : State) (r : BitVec 4) (v : DWord) : (s.setAreg r v).freeCtr = s.freeCtr := rfl
@[simp] theorem State.setAreg_seqNo (s : State) (r : BitVec 4) (v : DWord) : (s.setAreg r v).seqNo = s.seqNo := rfl
@[simp] theorem State.setAreg_actCore (s : State) (r : BitVec 4) (v : DWord) : (s.setAreg r v).actCore = s.actCore := rfl
@[simp] theorem State.setAreg_actSeq (s : State) (r : BitVec 4) (v : DWord) : (s.setAreg r v).actSeq = s.actSeq := rfl
@[simp] theorem State.setAreg_clock (s : State) (r : BitVec 4) (v : DWord) : (s.setAreg r v).clock = s.clock := rfl
@[simp] theorem State.setAreg_caps (s : State) (r : BitVec 4) (v : DWord) : (s.setAreg r v).caps = s.caps := rfl
@[simp] theorem State.setAreg_devid (s : State) (r : BitVec 4) (v : DWord) : (s.setAreg r v).devid = s.devid := rfl
@[simp] theorem State.setAreg_mem (s : State) (r : BitVec 4) (v : DWord) : (s.setAreg r v).mem = s.mem := rfl
@[simp] theorem State.setAreg_remote (s : State) (r : BitVec 4) (v : DWord) : (s.setAreg r v).remote = s.remote := rfl
@[simp] theorem State.setAreg_remoteUp (s : State) (r : BitVec 4) (v : DWord) : (s.setAreg r v).remoteUp = s.remoteUp := rfl
@[simp] theorem State.setAreg_badLines (s : State) (r : BitVec 4) (v : DWord) : (s.setAreg r v).badLines = s.badLines := rfl
@[simp] theorem State.setAreg_tags (s : State) (r : BitVec 4) (v : DWord) : (s.setAreg r v).tags = s.tags := rfl
@[simp] theorem State.setAreg_keyGen (s : State) (r : BitVec 4) (v : DWord) : (s.setAreg r v).keyGen = s.keyGen := rfl
@[simp] theorem State.setAreg_atsAbsent (s : State) (r : BitVec 4) (v : DWord) : (s.setAreg r v).atsAbsent = s.atsAbsent := rfl
@[simp] theorem State.setAreg_tlb (s : State) (r : BitVec 4) (v : DWord) : (s.setAreg r v).tlb = s.tlb := rfl
@[simp] theorem State.setAreg_windows (s : State) (r : BitVec 4) (v : DWord) : (s.setAreg r v).windows = s.windows := rfl
@[simp] theorem State.setAreg_ctxs (s : State) (r : BitVec 4) (v : DWord) : (s.setAreg r v).ctxs = s.ctxs := rfl
@[simp] theorem State.setAreg_ctxbase (s : State) (r : BitVec 4) (v : DWord) : (s.setAreg r v).ctxbase = s.ctxbase := rfl
@[simp] theorem State.setAreg_tlt (s : State) (r : BitVec 4) (v : DWord) : (s.setAreg r v).tlt = s.tlt := rfl
@[simp] theorem State.setAreg_stale (s : State) (r : BitVec 4) (v : DWord) : (s.setAreg r v).stale = s.stale := rfl
@[simp] theorem State.setAreg_downLinks (s : State) (r : BitVec 4) (v : DWord) : (s.setAreg r v).downLinks = s.downLinks := rfl
@[simp] theorem State.setAreg_diesOut (s : State) (r : BitVec 4) (v : DWord) : (s.setAreg r v).diesOut = s.diesOut := rfl
@[simp] theorem State.setAreg_termite (s : State) (r : BitVec 4) (v : DWord) : (s.setAreg r v).termite = s.termite := rfl
@[simp] theorem State.setAreg_posted (s : State) (r : BitVec 4) (v : DWord) : (s.setAreg r v).posted = s.posted := rfl
@[simp] theorem State.setAreg_postNum (s : State) (r : BitVec 4) (v : DWord) : (s.setAreg r v).postNum = s.postNum := rfl
@[simp] theorem State.setAreg_peeks (s : State) (r : BitVec 4) (v : DWord) : (s.setAreg r v).peeks = s.peeks := rfl
@[simp] theorem State.setAreg_nextUid (s : State) (r : BitVec 4) (v : DWord) : (s.setAreg r v).nextUid = s.nextUid := rfl
@[simp] theorem State.setAreg_msgs (s : State) (r : BitVec 4) (v : DWord) : (s.setAreg r v).msgs = s.msgs := rfl
@[simp] theorem State.setAreg_media (s : State) (r : BitVec 4) (v : DWord) : (s.setAreg r v).media = s.media := rfl
@[simp] theorem State.setAreg_colls (s : State) (r : BitVec 4) (v : DWord) : (s.setAreg r v).colls = s.colls := rfl
@[simp] theorem State.setAreg_collData (s : State) (r : BitVec 4) (v : DWord) : (s.setAreg r v).collData = s.collData := rfl
@[simp] theorem State.setAreg_collReports (s : State) (r : BitVec 4) (v : DWord) : (s.setAreg r v).collReports = s.collReports := rfl
@[simp] theorem State.setAreg_collNotes (s : State) (r : BitVec 4) (v : DWord) : (s.setAreg r v).collNotes = s.collNotes := rfl
@[simp] theorem State.setAreg_collEvents (s : State) (r : BitVec 4) (v : DWord) : (s.setAreg r v).collEvents = s.collEvents := rfl
@[simp] theorem State.setAreg_collNum (s : State) (r : BitVec 4) (v : DWord) : (s.setAreg r v).collNum = s.collNum := rfl
@[simp] theorem State.setAreg_lq (s : State) (r : BitVec 4) (v : DWord) : (s.setAreg r v).lq = s.lq := rfl
@[simp] theorem State.setAreg_slots (s : State) (r : BitVec 4) (v : DWord) : (s.setAreg r v).slots = s.slots := rfl
@[simp] theorem State.setAreg_pool (s : State) (r : BitVec 4) (v : DWord) : (s.setAreg r v).pool = s.pool := rfl
@[simp] theorem State.setAreg_spillq (s : State) (r : BitVec 4) (v : DWord) : (s.setAreg r v).spillq = s.spillq := rfl
@[simp] theorem State.setAreg_recPtr (s : State) (r : BitVec 4) (v : DWord) : (s.setAreg r v).recPtr = s.recPtr := rfl
@[simp] theorem State.setAreg_selPtr (s : State) (r : BitVec 4) (v : DWord) : (s.setAreg r v).selPtr = s.selPtr := rfl
@[simp] theorem State.setAreg_nextAge (s : State) (r : BitVec 4) (v : DWord) : (s.setAreg r v).nextAge = s.nextAge := rfl
@[simp] theorem State.setAreg_ldrop (s : State) (r : BitVec 4) (v : DWord) : (s.setAreg r v).ldrop = s.ldrop := rfl
@[simp] theorem State.setAreg_shlim (s : State) (r : BitVec 4) (v : DWord) : (s.setAreg r v).shlim = s.shlim := rfl
@[simp] theorem State.setAreg_ctxcmd (s : State) (r : BitVec 4) (v : DWord) : (s.setAreg r v).ctxcmd = s.ctxcmd := rfl
@[simp] theorem State.setAreg_ctxarg (s : State) (r : BitVec 4) (v : DWord) : (s.setAreg r v).ctxarg = s.ctxarg := rfl
@[simp] theorem State.setAreg_copywt (s : State) (r : BitVec 4) (v : DWord) : (s.setAreg r v).copywt = s.copywt := rfl
@[simp] theorem State.setAreg_armReqs (s : State) (r : BitVec 4) (v : DWord) : (s.setAreg r v).armReqs = s.armReqs := rfl
@[simp] theorem State.setAreg_armed (s : State) (r : BitVec 4) (v : DWord) : (s.setAreg r v).armed = s.armed := rfl
@[simp] theorem State.setAreg_rounds (s : State) (r : BitVec 4) (v : DWord) : (s.setAreg r v).rounds = s.rounds := rfl
@[simp] theorem State.setAreg_boot (s : State) (r : BitVec 4) (v : DWord) : (s.setAreg r v).boot = s.boot := rfl
@[simp] theorem State.setAreg_failcode (s : State) (r : BitVec 4) (v : DWord) : (s.setAreg r v).failcode = s.failcode := rfl
@[simp] theorem State.setAreg_pthrot (s : State) (r : BitVec 4) (v : DWord) : (s.setAreg r v).pthrot = s.pthrot := rfl
@[simp] theorem State.setAreg_tthrot (s : State) (r : BitVec 4) (v : DWord) : (s.setAreg r v).tthrot = s.tthrot := rfl
@[simp] theorem State.setAreg_tlbiAddr (s : State) (r : BitVec 4) (v : DWord) : (s.setAreg r v).tlbiAddr = s.tlbiAddr := rfl
@[simp] theorem State.setAreg_tlbiLen (s : State) (r : BitVec 4) (v : DWord) : (s.setAreg r v).tlbiLen = s.tlbiLen := rfl
@[simp] theorem State.setAreg_tlbiCtx (s : State) (r : BitVec 4) (v : DWord) : (s.setAreg r v).tlbiCtx = s.tlbiCtx := rfl
@[simp] theorem State.setAreg_tlbiGo (s : State) (r : BitVec 4) (v : DWord) : (s.setAreg r v).tlbiGo = s.tlbiGo := rfl
@[simp] theorem State.setAreg_tripped (s : State) (r : BitVec 4) (v : DWord) : (s.setAreg r v).tripped = s.tripped := rfl
@[simp] theorem State.setAreg_nudon (s : State) (r : BitVec 4) (v : DWord) : (s.setAreg r v).nudon = s.nudon := rfl
@[simp] theorem State.setAreg_tdi (s : State) (r : BitVec 4) (v : DWord) : (s.setAreg r v).tdi = s.tdi := rfl
@[simp] theorem State.setAreg_falls (s : State) (r : BitVec 4) (v : DWord) : (s.setAreg r v).falls = s.falls := rfl
@[simp] theorem State.setAreg_walkAt (s : State) (r : BitVec 4) (v : DWord) : (s.setAreg r v).walkAt = s.walkAt := rfl
@[simp] theorem State.setAreg_spdmOk (s : State) (r : BitVec 4) (v : DWord) : (s.setAreg r v).spdmOk = s.spdmOk := rfl
@[simp] theorem State.setAreg_session (s : State) (r : BitVec 4) (v : DWord) : (s.setAreg r v).session = s.session := rfl
@[simp] theorem State.setAreg_eid (s : State) (r : BitVec 4) (v : DWord) : (s.setAreg r v).eid = s.eid := rfl
@[simp] theorem State.setAreg_flash (s : State) (r : BitVec 4) (v : DWord) : (s.setAreg r v).flash = s.flash := rfl
@[simp] theorem State.setAreg_staged (s : State) (r : BitVec 4) (v : DWord) : (s.setAreg r v).staged = s.staged := rfl
@[simp] theorem State.setAreg_meas (s : State) (r : BitVec 4) (v : DWord) : (s.setAreg r v).meas = s.meas := rfl
@[simp] theorem State.setAreg_noPcie (s : State) (r : BitVec 4) (v : DWord) : (s.setAreg r v).noPcie = s.noPcie := rfl
@[simp] theorem State.setAreg_debug (s : State) (r : BitVec 4) (v : DWord) : (s.setAreg r v).debug = s.debug := rfl
@[simp] theorem State.setAreg_sent (s : State) (r : BitVec 4) (v : DWord) : (s.setAreg r v).sent = s.sent := rfl

/-! State.setKreg -/

@[simp] theorem State.setKreg_schedule (s : State) (r : BitVec 4) (v : DWord) : (s.setKreg r v).schedule = s.schedule := rfl
@[simp] theorem State.setKreg_turn (s : State) (r : BitVec 4) (v : DWord) : (s.setKreg r v).turn = s.turn := rfl
@[simp] theorem State.setKreg_freeCtr (s : State) (r : BitVec 4) (v : DWord) : (s.setKreg r v).freeCtr = s.freeCtr := rfl
@[simp] theorem State.setKreg_seqNo (s : State) (r : BitVec 4) (v : DWord) : (s.setKreg r v).seqNo = s.seqNo := rfl
@[simp] theorem State.setKreg_actCore (s : State) (r : BitVec 4) (v : DWord) : (s.setKreg r v).actCore = s.actCore := rfl
@[simp] theorem State.setKreg_actSeq (s : State) (r : BitVec 4) (v : DWord) : (s.setKreg r v).actSeq = s.actSeq := rfl
@[simp] theorem State.setKreg_clock (s : State) (r : BitVec 4) (v : DWord) : (s.setKreg r v).clock = s.clock := rfl
@[simp] theorem State.setKreg_caps (s : State) (r : BitVec 4) (v : DWord) : (s.setKreg r v).caps = s.caps := rfl
@[simp] theorem State.setKreg_devid (s : State) (r : BitVec 4) (v : DWord) : (s.setKreg r v).devid = s.devid := rfl
@[simp] theorem State.setKreg_mem (s : State) (r : BitVec 4) (v : DWord) : (s.setKreg r v).mem = s.mem := rfl
@[simp] theorem State.setKreg_remote (s : State) (r : BitVec 4) (v : DWord) : (s.setKreg r v).remote = s.remote := rfl
@[simp] theorem State.setKreg_remoteUp (s : State) (r : BitVec 4) (v : DWord) : (s.setKreg r v).remoteUp = s.remoteUp := rfl
@[simp] theorem State.setKreg_badLines (s : State) (r : BitVec 4) (v : DWord) : (s.setKreg r v).badLines = s.badLines := rfl
@[simp] theorem State.setKreg_tags (s : State) (r : BitVec 4) (v : DWord) : (s.setKreg r v).tags = s.tags := rfl
@[simp] theorem State.setKreg_keyGen (s : State) (r : BitVec 4) (v : DWord) : (s.setKreg r v).keyGen = s.keyGen := rfl
@[simp] theorem State.setKreg_atsAbsent (s : State) (r : BitVec 4) (v : DWord) : (s.setKreg r v).atsAbsent = s.atsAbsent := rfl
@[simp] theorem State.setKreg_tlb (s : State) (r : BitVec 4) (v : DWord) : (s.setKreg r v).tlb = s.tlb := rfl
@[simp] theorem State.setKreg_windows (s : State) (r : BitVec 4) (v : DWord) : (s.setKreg r v).windows = s.windows := rfl
@[simp] theorem State.setKreg_ctxs (s : State) (r : BitVec 4) (v : DWord) : (s.setKreg r v).ctxs = s.ctxs := rfl
@[simp] theorem State.setKreg_ctxbase (s : State) (r : BitVec 4) (v : DWord) : (s.setKreg r v).ctxbase = s.ctxbase := rfl
@[simp] theorem State.setKreg_tlt (s : State) (r : BitVec 4) (v : DWord) : (s.setKreg r v).tlt = s.tlt := rfl
@[simp] theorem State.setKreg_stale (s : State) (r : BitVec 4) (v : DWord) : (s.setKreg r v).stale = s.stale := rfl
@[simp] theorem State.setKreg_downLinks (s : State) (r : BitVec 4) (v : DWord) : (s.setKreg r v).downLinks = s.downLinks := rfl
@[simp] theorem State.setKreg_diesOut (s : State) (r : BitVec 4) (v : DWord) : (s.setKreg r v).diesOut = s.diesOut := rfl
@[simp] theorem State.setKreg_termite (s : State) (r : BitVec 4) (v : DWord) : (s.setKreg r v).termite = s.termite := rfl
@[simp] theorem State.setKreg_posted (s : State) (r : BitVec 4) (v : DWord) : (s.setKreg r v).posted = s.posted := rfl
@[simp] theorem State.setKreg_postNum (s : State) (r : BitVec 4) (v : DWord) : (s.setKreg r v).postNum = s.postNum := rfl
@[simp] theorem State.setKreg_peeks (s : State) (r : BitVec 4) (v : DWord) : (s.setKreg r v).peeks = s.peeks := rfl
@[simp] theorem State.setKreg_nextUid (s : State) (r : BitVec 4) (v : DWord) : (s.setKreg r v).nextUid = s.nextUid := rfl
@[simp] theorem State.setKreg_msgs (s : State) (r : BitVec 4) (v : DWord) : (s.setKreg r v).msgs = s.msgs := rfl
@[simp] theorem State.setKreg_media (s : State) (r : BitVec 4) (v : DWord) : (s.setKreg r v).media = s.media := rfl
@[simp] theorem State.setKreg_colls (s : State) (r : BitVec 4) (v : DWord) : (s.setKreg r v).colls = s.colls := rfl
@[simp] theorem State.setKreg_collData (s : State) (r : BitVec 4) (v : DWord) : (s.setKreg r v).collData = s.collData := rfl
@[simp] theorem State.setKreg_collReports (s : State) (r : BitVec 4) (v : DWord) : (s.setKreg r v).collReports = s.collReports := rfl
@[simp] theorem State.setKreg_collNotes (s : State) (r : BitVec 4) (v : DWord) : (s.setKreg r v).collNotes = s.collNotes := rfl
@[simp] theorem State.setKreg_collEvents (s : State) (r : BitVec 4) (v : DWord) : (s.setKreg r v).collEvents = s.collEvents := rfl
@[simp] theorem State.setKreg_collNum (s : State) (r : BitVec 4) (v : DWord) : (s.setKreg r v).collNum = s.collNum := rfl
@[simp] theorem State.setKreg_lq (s : State) (r : BitVec 4) (v : DWord) : (s.setKreg r v).lq = s.lq := rfl
@[simp] theorem State.setKreg_slots (s : State) (r : BitVec 4) (v : DWord) : (s.setKreg r v).slots = s.slots := rfl
@[simp] theorem State.setKreg_pool (s : State) (r : BitVec 4) (v : DWord) : (s.setKreg r v).pool = s.pool := rfl
@[simp] theorem State.setKreg_spillq (s : State) (r : BitVec 4) (v : DWord) : (s.setKreg r v).spillq = s.spillq := rfl
@[simp] theorem State.setKreg_recPtr (s : State) (r : BitVec 4) (v : DWord) : (s.setKreg r v).recPtr = s.recPtr := rfl
@[simp] theorem State.setKreg_selPtr (s : State) (r : BitVec 4) (v : DWord) : (s.setKreg r v).selPtr = s.selPtr := rfl
@[simp] theorem State.setKreg_nextAge (s : State) (r : BitVec 4) (v : DWord) : (s.setKreg r v).nextAge = s.nextAge := rfl
@[simp] theorem State.setKreg_ldrop (s : State) (r : BitVec 4) (v : DWord) : (s.setKreg r v).ldrop = s.ldrop := rfl
@[simp] theorem State.setKreg_shlim (s : State) (r : BitVec 4) (v : DWord) : (s.setKreg r v).shlim = s.shlim := rfl
@[simp] theorem State.setKreg_ctxcmd (s : State) (r : BitVec 4) (v : DWord) : (s.setKreg r v).ctxcmd = s.ctxcmd := rfl
@[simp] theorem State.setKreg_ctxarg (s : State) (r : BitVec 4) (v : DWord) : (s.setKreg r v).ctxarg = s.ctxarg := rfl
@[simp] theorem State.setKreg_copywt (s : State) (r : BitVec 4) (v : DWord) : (s.setKreg r v).copywt = s.copywt := rfl
@[simp] theorem State.setKreg_armReqs (s : State) (r : BitVec 4) (v : DWord) : (s.setKreg r v).armReqs = s.armReqs := rfl
@[simp] theorem State.setKreg_armed (s : State) (r : BitVec 4) (v : DWord) : (s.setKreg r v).armed = s.armed := rfl
@[simp] theorem State.setKreg_rounds (s : State) (r : BitVec 4) (v : DWord) : (s.setKreg r v).rounds = s.rounds := rfl
@[simp] theorem State.setKreg_boot (s : State) (r : BitVec 4) (v : DWord) : (s.setKreg r v).boot = s.boot := rfl
@[simp] theorem State.setKreg_failcode (s : State) (r : BitVec 4) (v : DWord) : (s.setKreg r v).failcode = s.failcode := rfl
@[simp] theorem State.setKreg_pthrot (s : State) (r : BitVec 4) (v : DWord) : (s.setKreg r v).pthrot = s.pthrot := rfl
@[simp] theorem State.setKreg_tthrot (s : State) (r : BitVec 4) (v : DWord) : (s.setKreg r v).tthrot = s.tthrot := rfl
@[simp] theorem State.setKreg_tlbiAddr (s : State) (r : BitVec 4) (v : DWord) : (s.setKreg r v).tlbiAddr = s.tlbiAddr := rfl
@[simp] theorem State.setKreg_tlbiLen (s : State) (r : BitVec 4) (v : DWord) : (s.setKreg r v).tlbiLen = s.tlbiLen := rfl
@[simp] theorem State.setKreg_tlbiCtx (s : State) (r : BitVec 4) (v : DWord) : (s.setKreg r v).tlbiCtx = s.tlbiCtx := rfl
@[simp] theorem State.setKreg_tlbiGo (s : State) (r : BitVec 4) (v : DWord) : (s.setKreg r v).tlbiGo = s.tlbiGo := rfl
@[simp] theorem State.setKreg_tripped (s : State) (r : BitVec 4) (v : DWord) : (s.setKreg r v).tripped = s.tripped := rfl
@[simp] theorem State.setKreg_nudon (s : State) (r : BitVec 4) (v : DWord) : (s.setKreg r v).nudon = s.nudon := rfl
@[simp] theorem State.setKreg_tdi (s : State) (r : BitVec 4) (v : DWord) : (s.setKreg r v).tdi = s.tdi := rfl
@[simp] theorem State.setKreg_falls (s : State) (r : BitVec 4) (v : DWord) : (s.setKreg r v).falls = s.falls := rfl
@[simp] theorem State.setKreg_walkAt (s : State) (r : BitVec 4) (v : DWord) : (s.setKreg r v).walkAt = s.walkAt := rfl
@[simp] theorem State.setKreg_spdmOk (s : State) (r : BitVec 4) (v : DWord) : (s.setKreg r v).spdmOk = s.spdmOk := rfl
@[simp] theorem State.setKreg_session (s : State) (r : BitVec 4) (v : DWord) : (s.setKreg r v).session = s.session := rfl
@[simp] theorem State.setKreg_eid (s : State) (r : BitVec 4) (v : DWord) : (s.setKreg r v).eid = s.eid := rfl
@[simp] theorem State.setKreg_flash (s : State) (r : BitVec 4) (v : DWord) : (s.setKreg r v).flash = s.flash := rfl
@[simp] theorem State.setKreg_staged (s : State) (r : BitVec 4) (v : DWord) : (s.setKreg r v).staged = s.staged := rfl
@[simp] theorem State.setKreg_meas (s : State) (r : BitVec 4) (v : DWord) : (s.setKreg r v).meas = s.meas := rfl
@[simp] theorem State.setKreg_noPcie (s : State) (r : BitVec 4) (v : DWord) : (s.setKreg r v).noPcie = s.noPcie := rfl
@[simp] theorem State.setKreg_debug (s : State) (r : BitVec 4) (v : DWord) : (s.setKreg r v).debug = s.debug := rfl
@[simp] theorem State.setKreg_sent (s : State) (r : BitVec 4) (v : DWord) : (s.setKreg r v).sent = s.sent := rfl

/-! State.setVreg -/

@[simp] theorem State.setVreg_schedule (s : State) (r : BitVec 5) (v : VReg) : (s.setVreg r v).schedule = s.schedule := rfl
@[simp] theorem State.setVreg_turn (s : State) (r : BitVec 5) (v : VReg) : (s.setVreg r v).turn = s.turn := rfl
@[simp] theorem State.setVreg_freeCtr (s : State) (r : BitVec 5) (v : VReg) : (s.setVreg r v).freeCtr = s.freeCtr := rfl
@[simp] theorem State.setVreg_seqNo (s : State) (r : BitVec 5) (v : VReg) : (s.setVreg r v).seqNo = s.seqNo := rfl
@[simp] theorem State.setVreg_actCore (s : State) (r : BitVec 5) (v : VReg) : (s.setVreg r v).actCore = s.actCore := rfl
@[simp] theorem State.setVreg_actSeq (s : State) (r : BitVec 5) (v : VReg) : (s.setVreg r v).actSeq = s.actSeq := rfl
@[simp] theorem State.setVreg_clock (s : State) (r : BitVec 5) (v : VReg) : (s.setVreg r v).clock = s.clock := rfl
@[simp] theorem State.setVreg_caps (s : State) (r : BitVec 5) (v : VReg) : (s.setVreg r v).caps = s.caps := rfl
@[simp] theorem State.setVreg_devid (s : State) (r : BitVec 5) (v : VReg) : (s.setVreg r v).devid = s.devid := rfl
@[simp] theorem State.setVreg_mem (s : State) (r : BitVec 5) (v : VReg) : (s.setVreg r v).mem = s.mem := rfl
@[simp] theorem State.setVreg_remote (s : State) (r : BitVec 5) (v : VReg) : (s.setVreg r v).remote = s.remote := rfl
@[simp] theorem State.setVreg_remoteUp (s : State) (r : BitVec 5) (v : VReg) : (s.setVreg r v).remoteUp = s.remoteUp := rfl
@[simp] theorem State.setVreg_badLines (s : State) (r : BitVec 5) (v : VReg) : (s.setVreg r v).badLines = s.badLines := rfl
@[simp] theorem State.setVreg_tags (s : State) (r : BitVec 5) (v : VReg) : (s.setVreg r v).tags = s.tags := rfl
@[simp] theorem State.setVreg_keyGen (s : State) (r : BitVec 5) (v : VReg) : (s.setVreg r v).keyGen = s.keyGen := rfl
@[simp] theorem State.setVreg_atsAbsent (s : State) (r : BitVec 5) (v : VReg) : (s.setVreg r v).atsAbsent = s.atsAbsent := rfl
@[simp] theorem State.setVreg_tlb (s : State) (r : BitVec 5) (v : VReg) : (s.setVreg r v).tlb = s.tlb := rfl
@[simp] theorem State.setVreg_windows (s : State) (r : BitVec 5) (v : VReg) : (s.setVreg r v).windows = s.windows := rfl
@[simp] theorem State.setVreg_ctxs (s : State) (r : BitVec 5) (v : VReg) : (s.setVreg r v).ctxs = s.ctxs := rfl
@[simp] theorem State.setVreg_ctxbase (s : State) (r : BitVec 5) (v : VReg) : (s.setVreg r v).ctxbase = s.ctxbase := rfl
@[simp] theorem State.setVreg_tlt (s : State) (r : BitVec 5) (v : VReg) : (s.setVreg r v).tlt = s.tlt := rfl
@[simp] theorem State.setVreg_stale (s : State) (r : BitVec 5) (v : VReg) : (s.setVreg r v).stale = s.stale := rfl
@[simp] theorem State.setVreg_downLinks (s : State) (r : BitVec 5) (v : VReg) : (s.setVreg r v).downLinks = s.downLinks := rfl
@[simp] theorem State.setVreg_diesOut (s : State) (r : BitVec 5) (v : VReg) : (s.setVreg r v).diesOut = s.diesOut := rfl
@[simp] theorem State.setVreg_termite (s : State) (r : BitVec 5) (v : VReg) : (s.setVreg r v).termite = s.termite := rfl
@[simp] theorem State.setVreg_posted (s : State) (r : BitVec 5) (v : VReg) : (s.setVreg r v).posted = s.posted := rfl
@[simp] theorem State.setVreg_postNum (s : State) (r : BitVec 5) (v : VReg) : (s.setVreg r v).postNum = s.postNum := rfl
@[simp] theorem State.setVreg_peeks (s : State) (r : BitVec 5) (v : VReg) : (s.setVreg r v).peeks = s.peeks := rfl
@[simp] theorem State.setVreg_nextUid (s : State) (r : BitVec 5) (v : VReg) : (s.setVreg r v).nextUid = s.nextUid := rfl
@[simp] theorem State.setVreg_msgs (s : State) (r : BitVec 5) (v : VReg) : (s.setVreg r v).msgs = s.msgs := rfl
@[simp] theorem State.setVreg_media (s : State) (r : BitVec 5) (v : VReg) : (s.setVreg r v).media = s.media := rfl
@[simp] theorem State.setVreg_colls (s : State) (r : BitVec 5) (v : VReg) : (s.setVreg r v).colls = s.colls := rfl
@[simp] theorem State.setVreg_collData (s : State) (r : BitVec 5) (v : VReg) : (s.setVreg r v).collData = s.collData := rfl
@[simp] theorem State.setVreg_collReports (s : State) (r : BitVec 5) (v : VReg) : (s.setVreg r v).collReports = s.collReports := rfl
@[simp] theorem State.setVreg_collNotes (s : State) (r : BitVec 5) (v : VReg) : (s.setVreg r v).collNotes = s.collNotes := rfl
@[simp] theorem State.setVreg_collEvents (s : State) (r : BitVec 5) (v : VReg) : (s.setVreg r v).collEvents = s.collEvents := rfl
@[simp] theorem State.setVreg_collNum (s : State) (r : BitVec 5) (v : VReg) : (s.setVreg r v).collNum = s.collNum := rfl
@[simp] theorem State.setVreg_lq (s : State) (r : BitVec 5) (v : VReg) : (s.setVreg r v).lq = s.lq := rfl
@[simp] theorem State.setVreg_slots (s : State) (r : BitVec 5) (v : VReg) : (s.setVreg r v).slots = s.slots := rfl
@[simp] theorem State.setVreg_pool (s : State) (r : BitVec 5) (v : VReg) : (s.setVreg r v).pool = s.pool := rfl
@[simp] theorem State.setVreg_spillq (s : State) (r : BitVec 5) (v : VReg) : (s.setVreg r v).spillq = s.spillq := rfl
@[simp] theorem State.setVreg_recPtr (s : State) (r : BitVec 5) (v : VReg) : (s.setVreg r v).recPtr = s.recPtr := rfl
@[simp] theorem State.setVreg_selPtr (s : State) (r : BitVec 5) (v : VReg) : (s.setVreg r v).selPtr = s.selPtr := rfl
@[simp] theorem State.setVreg_nextAge (s : State) (r : BitVec 5) (v : VReg) : (s.setVreg r v).nextAge = s.nextAge := rfl
@[simp] theorem State.setVreg_ldrop (s : State) (r : BitVec 5) (v : VReg) : (s.setVreg r v).ldrop = s.ldrop := rfl
@[simp] theorem State.setVreg_shlim (s : State) (r : BitVec 5) (v : VReg) : (s.setVreg r v).shlim = s.shlim := rfl
@[simp] theorem State.setVreg_ctxcmd (s : State) (r : BitVec 5) (v : VReg) : (s.setVreg r v).ctxcmd = s.ctxcmd := rfl
@[simp] theorem State.setVreg_ctxarg (s : State) (r : BitVec 5) (v : VReg) : (s.setVreg r v).ctxarg = s.ctxarg := rfl
@[simp] theorem State.setVreg_copywt (s : State) (r : BitVec 5) (v : VReg) : (s.setVreg r v).copywt = s.copywt := rfl
@[simp] theorem State.setVreg_armReqs (s : State) (r : BitVec 5) (v : VReg) : (s.setVreg r v).armReqs = s.armReqs := rfl
@[simp] theorem State.setVreg_armed (s : State) (r : BitVec 5) (v : VReg) : (s.setVreg r v).armed = s.armed := rfl
@[simp] theorem State.setVreg_rounds (s : State) (r : BitVec 5) (v : VReg) : (s.setVreg r v).rounds = s.rounds := rfl
@[simp] theorem State.setVreg_boot (s : State) (r : BitVec 5) (v : VReg) : (s.setVreg r v).boot = s.boot := rfl
@[simp] theorem State.setVreg_failcode (s : State) (r : BitVec 5) (v : VReg) : (s.setVreg r v).failcode = s.failcode := rfl
@[simp] theorem State.setVreg_pthrot (s : State) (r : BitVec 5) (v : VReg) : (s.setVreg r v).pthrot = s.pthrot := rfl
@[simp] theorem State.setVreg_tthrot (s : State) (r : BitVec 5) (v : VReg) : (s.setVreg r v).tthrot = s.tthrot := rfl
@[simp] theorem State.setVreg_tlbiAddr (s : State) (r : BitVec 5) (v : VReg) : (s.setVreg r v).tlbiAddr = s.tlbiAddr := rfl
@[simp] theorem State.setVreg_tlbiLen (s : State) (r : BitVec 5) (v : VReg) : (s.setVreg r v).tlbiLen = s.tlbiLen := rfl
@[simp] theorem State.setVreg_tlbiCtx (s : State) (r : BitVec 5) (v : VReg) : (s.setVreg r v).tlbiCtx = s.tlbiCtx := rfl
@[simp] theorem State.setVreg_tlbiGo (s : State) (r : BitVec 5) (v : VReg) : (s.setVreg r v).tlbiGo = s.tlbiGo := rfl
@[simp] theorem State.setVreg_tripped (s : State) (r : BitVec 5) (v : VReg) : (s.setVreg r v).tripped = s.tripped := rfl
@[simp] theorem State.setVreg_nudon (s : State) (r : BitVec 5) (v : VReg) : (s.setVreg r v).nudon = s.nudon := rfl
@[simp] theorem State.setVreg_tdi (s : State) (r : BitVec 5) (v : VReg) : (s.setVreg r v).tdi = s.tdi := rfl
@[simp] theorem State.setVreg_falls (s : State) (r : BitVec 5) (v : VReg) : (s.setVreg r v).falls = s.falls := rfl
@[simp] theorem State.setVreg_walkAt (s : State) (r : BitVec 5) (v : VReg) : (s.setVreg r v).walkAt = s.walkAt := rfl
@[simp] theorem State.setVreg_spdmOk (s : State) (r : BitVec 5) (v : VReg) : (s.setVreg r v).spdmOk = s.spdmOk := rfl
@[simp] theorem State.setVreg_session (s : State) (r : BitVec 5) (v : VReg) : (s.setVreg r v).session = s.session := rfl
@[simp] theorem State.setVreg_eid (s : State) (r : BitVec 5) (v : VReg) : (s.setVreg r v).eid = s.eid := rfl
@[simp] theorem State.setVreg_flash (s : State) (r : BitVec 5) (v : VReg) : (s.setVreg r v).flash = s.flash := rfl
@[simp] theorem State.setVreg_staged (s : State) (r : BitVec 5) (v : VReg) : (s.setVreg r v).staged = s.staged := rfl
@[simp] theorem State.setVreg_meas (s : State) (r : BitVec 5) (v : VReg) : (s.setVreg r v).meas = s.meas := rfl
@[simp] theorem State.setVreg_noPcie (s : State) (r : BitVec 5) (v : VReg) : (s.setVreg r v).noPcie = s.noPcie := rfl
@[simp] theorem State.setVreg_debug (s : State) (r : BitVec 5) (v : VReg) : (s.setVreg r v).debug = s.debug := rfl
@[simp] theorem State.setVreg_sent (s : State) (r : BitVec 5) (v : VReg) : (s.setVreg r v).sent = s.sent := rfl

/-! State.onCtx -/

@[simp] theorem State.onCtx_schedule (s : State) (x : BitVec 6) (f : Ctx → Ctx) : (s.onCtx x f).schedule = s.schedule := rfl
@[simp] theorem State.onCtx_turn (s : State) (x : BitVec 6) (f : Ctx → Ctx) : (s.onCtx x f).turn = s.turn := rfl
@[simp] theorem State.onCtx_freeCtr (s : State) (x : BitVec 6) (f : Ctx → Ctx) : (s.onCtx x f).freeCtr = s.freeCtr := rfl
@[simp] theorem State.onCtx_seqNo (s : State) (x : BitVec 6) (f : Ctx → Ctx) : (s.onCtx x f).seqNo = s.seqNo := rfl
@[simp] theorem State.onCtx_actCore (s : State) (x : BitVec 6) (f : Ctx → Ctx) : (s.onCtx x f).actCore = s.actCore := rfl
@[simp] theorem State.onCtx_actSeq (s : State) (x : BitVec 6) (f : Ctx → Ctx) : (s.onCtx x f).actSeq = s.actSeq := rfl
@[simp] theorem State.onCtx_clock (s : State) (x : BitVec 6) (f : Ctx → Ctx) : (s.onCtx x f).clock = s.clock := rfl
@[simp] theorem State.onCtx_cores (s : State) (x : BitVec 6) (f : Ctx → Ctx) : (s.onCtx x f).cores = s.cores := rfl
@[simp] theorem State.onCtx_caps (s : State) (x : BitVec 6) (f : Ctx → Ctx) : (s.onCtx x f).caps = s.caps := rfl
@[simp] theorem State.onCtx_devid (s : State) (x : BitVec 6) (f : Ctx → Ctx) : (s.onCtx x f).devid = s.devid := rfl
@[simp] theorem State.onCtx_mem (s : State) (x : BitVec 6) (f : Ctx → Ctx) : (s.onCtx x f).mem = s.mem := rfl
@[simp] theorem State.onCtx_remote (s : State) (x : BitVec 6) (f : Ctx → Ctx) : (s.onCtx x f).remote = s.remote := rfl
@[simp] theorem State.onCtx_remoteUp (s : State) (x : BitVec 6) (f : Ctx → Ctx) : (s.onCtx x f).remoteUp = s.remoteUp := rfl
@[simp] theorem State.onCtx_badLines (s : State) (x : BitVec 6) (f : Ctx → Ctx) : (s.onCtx x f).badLines = s.badLines := rfl
@[simp] theorem State.onCtx_tags (s : State) (x : BitVec 6) (f : Ctx → Ctx) : (s.onCtx x f).tags = s.tags := rfl
@[simp] theorem State.onCtx_keyGen (s : State) (x : BitVec 6) (f : Ctx → Ctx) : (s.onCtx x f).keyGen = s.keyGen := rfl
@[simp] theorem State.onCtx_atsAbsent (s : State) (x : BitVec 6) (f : Ctx → Ctx) : (s.onCtx x f).atsAbsent = s.atsAbsent := rfl
@[simp] theorem State.onCtx_tlb (s : State) (x : BitVec 6) (f : Ctx → Ctx) : (s.onCtx x f).tlb = s.tlb := rfl
@[simp] theorem State.onCtx_windows (s : State) (x : BitVec 6) (f : Ctx → Ctx) : (s.onCtx x f).windows = s.windows := rfl
@[simp] theorem State.onCtx_ctxbase (s : State) (x : BitVec 6) (f : Ctx → Ctx) : (s.onCtx x f).ctxbase = s.ctxbase := rfl
@[simp] theorem State.onCtx_tlt (s : State) (x : BitVec 6) (f : Ctx → Ctx) : (s.onCtx x f).tlt = s.tlt := rfl
@[simp] theorem State.onCtx_stale (s : State) (x : BitVec 6) (f : Ctx → Ctx) : (s.onCtx x f).stale = s.stale := rfl
@[simp] theorem State.onCtx_downLinks (s : State) (x : BitVec 6) (f : Ctx → Ctx) : (s.onCtx x f).downLinks = s.downLinks := rfl
@[simp] theorem State.onCtx_diesOut (s : State) (x : BitVec 6) (f : Ctx → Ctx) : (s.onCtx x f).diesOut = s.diesOut := rfl
@[simp] theorem State.onCtx_termite (s : State) (x : BitVec 6) (f : Ctx → Ctx) : (s.onCtx x f).termite = s.termite := rfl
@[simp] theorem State.onCtx_posted (s : State) (x : BitVec 6) (f : Ctx → Ctx) : (s.onCtx x f).posted = s.posted := rfl
@[simp] theorem State.onCtx_postNum (s : State) (x : BitVec 6) (f : Ctx → Ctx) : (s.onCtx x f).postNum = s.postNum := rfl
@[simp] theorem State.onCtx_peeks (s : State) (x : BitVec 6) (f : Ctx → Ctx) : (s.onCtx x f).peeks = s.peeks := rfl
@[simp] theorem State.onCtx_nextUid (s : State) (x : BitVec 6) (f : Ctx → Ctx) : (s.onCtx x f).nextUid = s.nextUid := rfl
@[simp] theorem State.onCtx_msgs (s : State) (x : BitVec 6) (f : Ctx → Ctx) : (s.onCtx x f).msgs = s.msgs := rfl
@[simp] theorem State.onCtx_media (s : State) (x : BitVec 6) (f : Ctx → Ctx) : (s.onCtx x f).media = s.media := rfl
@[simp] theorem State.onCtx_colls (s : State) (x : BitVec 6) (f : Ctx → Ctx) : (s.onCtx x f).colls = s.colls := rfl
@[simp] theorem State.onCtx_collData (s : State) (x : BitVec 6) (f : Ctx → Ctx) : (s.onCtx x f).collData = s.collData := rfl
@[simp] theorem State.onCtx_collReports (s : State) (x : BitVec 6) (f : Ctx → Ctx) : (s.onCtx x f).collReports = s.collReports := rfl
@[simp] theorem State.onCtx_collNotes (s : State) (x : BitVec 6) (f : Ctx → Ctx) : (s.onCtx x f).collNotes = s.collNotes := rfl
@[simp] theorem State.onCtx_collEvents (s : State) (x : BitVec 6) (f : Ctx → Ctx) : (s.onCtx x f).collEvents = s.collEvents := rfl
@[simp] theorem State.onCtx_collNum (s : State) (x : BitVec 6) (f : Ctx → Ctx) : (s.onCtx x f).collNum = s.collNum := rfl
@[simp] theorem State.onCtx_lq (s : State) (x : BitVec 6) (f : Ctx → Ctx) : (s.onCtx x f).lq = s.lq := rfl
@[simp] theorem State.onCtx_slots (s : State) (x : BitVec 6) (f : Ctx → Ctx) : (s.onCtx x f).slots = s.slots := rfl
@[simp] theorem State.onCtx_pool (s : State) (x : BitVec 6) (f : Ctx → Ctx) : (s.onCtx x f).pool = s.pool := rfl
@[simp] theorem State.onCtx_spillq (s : State) (x : BitVec 6) (f : Ctx → Ctx) : (s.onCtx x f).spillq = s.spillq := rfl
@[simp] theorem State.onCtx_recPtr (s : State) (x : BitVec 6) (f : Ctx → Ctx) : (s.onCtx x f).recPtr = s.recPtr := rfl
@[simp] theorem State.onCtx_selPtr (s : State) (x : BitVec 6) (f : Ctx → Ctx) : (s.onCtx x f).selPtr = s.selPtr := rfl
@[simp] theorem State.onCtx_nextAge (s : State) (x : BitVec 6) (f : Ctx → Ctx) : (s.onCtx x f).nextAge = s.nextAge := rfl
@[simp] theorem State.onCtx_ldrop (s : State) (x : BitVec 6) (f : Ctx → Ctx) : (s.onCtx x f).ldrop = s.ldrop := rfl
@[simp] theorem State.onCtx_shlim (s : State) (x : BitVec 6) (f : Ctx → Ctx) : (s.onCtx x f).shlim = s.shlim := rfl
@[simp] theorem State.onCtx_ctxcmd (s : State) (x : BitVec 6) (f : Ctx → Ctx) : (s.onCtx x f).ctxcmd = s.ctxcmd := rfl
@[simp] theorem State.onCtx_ctxarg (s : State) (x : BitVec 6) (f : Ctx → Ctx) : (s.onCtx x f).ctxarg = s.ctxarg := rfl
@[simp] theorem State.onCtx_copywt (s : State) (x : BitVec 6) (f : Ctx → Ctx) : (s.onCtx x f).copywt = s.copywt := rfl
@[simp] theorem State.onCtx_armReqs (s : State) (x : BitVec 6) (f : Ctx → Ctx) : (s.onCtx x f).armReqs = s.armReqs := rfl
@[simp] theorem State.onCtx_armed (s : State) (x : BitVec 6) (f : Ctx → Ctx) : (s.onCtx x f).armed = s.armed := rfl
@[simp] theorem State.onCtx_rounds (s : State) (x : BitVec 6) (f : Ctx → Ctx) : (s.onCtx x f).rounds = s.rounds := rfl
@[simp] theorem State.onCtx_boot (s : State) (x : BitVec 6) (f : Ctx → Ctx) : (s.onCtx x f).boot = s.boot := rfl
@[simp] theorem State.onCtx_failcode (s : State) (x : BitVec 6) (f : Ctx → Ctx) : (s.onCtx x f).failcode = s.failcode := rfl
@[simp] theorem State.onCtx_pthrot (s : State) (x : BitVec 6) (f : Ctx → Ctx) : (s.onCtx x f).pthrot = s.pthrot := rfl
@[simp] theorem State.onCtx_tthrot (s : State) (x : BitVec 6) (f : Ctx → Ctx) : (s.onCtx x f).tthrot = s.tthrot := rfl
@[simp] theorem State.onCtx_tlbiAddr (s : State) (x : BitVec 6) (f : Ctx → Ctx) : (s.onCtx x f).tlbiAddr = s.tlbiAddr := rfl
@[simp] theorem State.onCtx_tlbiLen (s : State) (x : BitVec 6) (f : Ctx → Ctx) : (s.onCtx x f).tlbiLen = s.tlbiLen := rfl
@[simp] theorem State.onCtx_tlbiCtx (s : State) (x : BitVec 6) (f : Ctx → Ctx) : (s.onCtx x f).tlbiCtx = s.tlbiCtx := rfl
@[simp] theorem State.onCtx_tlbiGo (s : State) (x : BitVec 6) (f : Ctx → Ctx) : (s.onCtx x f).tlbiGo = s.tlbiGo := rfl
@[simp] theorem State.onCtx_tripped (s : State) (x : BitVec 6) (f : Ctx → Ctx) : (s.onCtx x f).tripped = s.tripped := rfl
@[simp] theorem State.onCtx_nudon (s : State) (x : BitVec 6) (f : Ctx → Ctx) : (s.onCtx x f).nudon = s.nudon := rfl
@[simp] theorem State.onCtx_tdi (s : State) (x : BitVec 6) (f : Ctx → Ctx) : (s.onCtx x f).tdi = s.tdi := rfl
@[simp] theorem State.onCtx_falls (s : State) (x : BitVec 6) (f : Ctx → Ctx) : (s.onCtx x f).falls = s.falls := rfl
@[simp] theorem State.onCtx_walkAt (s : State) (x : BitVec 6) (f : Ctx → Ctx) : (s.onCtx x f).walkAt = s.walkAt := rfl
@[simp] theorem State.onCtx_spdmOk (s : State) (x : BitVec 6) (f : Ctx → Ctx) : (s.onCtx x f).spdmOk = s.spdmOk := rfl
@[simp] theorem State.onCtx_session (s : State) (x : BitVec 6) (f : Ctx → Ctx) : (s.onCtx x f).session = s.session := rfl
@[simp] theorem State.onCtx_eid (s : State) (x : BitVec 6) (f : Ctx → Ctx) : (s.onCtx x f).eid = s.eid := rfl
@[simp] theorem State.onCtx_flash (s : State) (x : BitVec 6) (f : Ctx → Ctx) : (s.onCtx x f).flash = s.flash := rfl
@[simp] theorem State.onCtx_staged (s : State) (x : BitVec 6) (f : Ctx → Ctx) : (s.onCtx x f).staged = s.staged := rfl
@[simp] theorem State.onCtx_meas (s : State) (x : BitVec 6) (f : Ctx → Ctx) : (s.onCtx x f).meas = s.meas := rfl
@[simp] theorem State.onCtx_noPcie (s : State) (x : BitVec 6) (f : Ctx → Ctx) : (s.onCtx x f).noPcie = s.noPcie := rfl
@[simp] theorem State.onCtx_debug (s : State) (x : BitVec 6) (f : Ctx → Ctx) : (s.onCtx x f).debug = s.debug := rfl
@[simp] theorem State.onCtx_sent (s : State) (x : BitVec 6) (f : Ctx → Ctx) : (s.onCtx x f).sent = s.sent := rfl

/-! State.setSlot -/

@[simp] theorem State.setSlot_schedule (s : State) (x : BitVec 8) (l : Option Launch) : (s.setSlot x l).schedule = s.schedule := rfl
@[simp] theorem State.setSlot_turn (s : State) (x : BitVec 8) (l : Option Launch) : (s.setSlot x l).turn = s.turn := rfl
@[simp] theorem State.setSlot_freeCtr (s : State) (x : BitVec 8) (l : Option Launch) : (s.setSlot x l).freeCtr = s.freeCtr := rfl
@[simp] theorem State.setSlot_seqNo (s : State) (x : BitVec 8) (l : Option Launch) : (s.setSlot x l).seqNo = s.seqNo := rfl
@[simp] theorem State.setSlot_actCore (s : State) (x : BitVec 8) (l : Option Launch) : (s.setSlot x l).actCore = s.actCore := rfl
@[simp] theorem State.setSlot_actSeq (s : State) (x : BitVec 8) (l : Option Launch) : (s.setSlot x l).actSeq = s.actSeq := rfl
@[simp] theorem State.setSlot_clock (s : State) (x : BitVec 8) (l : Option Launch) : (s.setSlot x l).clock = s.clock := rfl
@[simp] theorem State.setSlot_cores (s : State) (x : BitVec 8) (l : Option Launch) : (s.setSlot x l).cores = s.cores := rfl
@[simp] theorem State.setSlot_caps (s : State) (x : BitVec 8) (l : Option Launch) : (s.setSlot x l).caps = s.caps := rfl
@[simp] theorem State.setSlot_devid (s : State) (x : BitVec 8) (l : Option Launch) : (s.setSlot x l).devid = s.devid := rfl
@[simp] theorem State.setSlot_mem (s : State) (x : BitVec 8) (l : Option Launch) : (s.setSlot x l).mem = s.mem := rfl
@[simp] theorem State.setSlot_remote (s : State) (x : BitVec 8) (l : Option Launch) : (s.setSlot x l).remote = s.remote := rfl
@[simp] theorem State.setSlot_remoteUp (s : State) (x : BitVec 8) (l : Option Launch) : (s.setSlot x l).remoteUp = s.remoteUp := rfl
@[simp] theorem State.setSlot_badLines (s : State) (x : BitVec 8) (l : Option Launch) : (s.setSlot x l).badLines = s.badLines := rfl
@[simp] theorem State.setSlot_tags (s : State) (x : BitVec 8) (l : Option Launch) : (s.setSlot x l).tags = s.tags := rfl
@[simp] theorem State.setSlot_keyGen (s : State) (x : BitVec 8) (l : Option Launch) : (s.setSlot x l).keyGen = s.keyGen := rfl
@[simp] theorem State.setSlot_atsAbsent (s : State) (x : BitVec 8) (l : Option Launch) : (s.setSlot x l).atsAbsent = s.atsAbsent := rfl
@[simp] theorem State.setSlot_tlb (s : State) (x : BitVec 8) (l : Option Launch) : (s.setSlot x l).tlb = s.tlb := rfl
@[simp] theorem State.setSlot_windows (s : State) (x : BitVec 8) (l : Option Launch) : (s.setSlot x l).windows = s.windows := rfl
@[simp] theorem State.setSlot_ctxs (s : State) (x : BitVec 8) (l : Option Launch) : (s.setSlot x l).ctxs = s.ctxs := rfl
@[simp] theorem State.setSlot_ctxbase (s : State) (x : BitVec 8) (l : Option Launch) : (s.setSlot x l).ctxbase = s.ctxbase := rfl
@[simp] theorem State.setSlot_tlt (s : State) (x : BitVec 8) (l : Option Launch) : (s.setSlot x l).tlt = s.tlt := rfl
@[simp] theorem State.setSlot_stale (s : State) (x : BitVec 8) (l : Option Launch) : (s.setSlot x l).stale = s.stale := rfl
@[simp] theorem State.setSlot_downLinks (s : State) (x : BitVec 8) (l : Option Launch) : (s.setSlot x l).downLinks = s.downLinks := rfl
@[simp] theorem State.setSlot_diesOut (s : State) (x : BitVec 8) (l : Option Launch) : (s.setSlot x l).diesOut = s.diesOut := rfl
@[simp] theorem State.setSlot_termite (s : State) (x : BitVec 8) (l : Option Launch) : (s.setSlot x l).termite = s.termite := rfl
@[simp] theorem State.setSlot_posted (s : State) (x : BitVec 8) (l : Option Launch) : (s.setSlot x l).posted = s.posted := rfl
@[simp] theorem State.setSlot_postNum (s : State) (x : BitVec 8) (l : Option Launch) : (s.setSlot x l).postNum = s.postNum := rfl
@[simp] theorem State.setSlot_peeks (s : State) (x : BitVec 8) (l : Option Launch) : (s.setSlot x l).peeks = s.peeks := rfl
@[simp] theorem State.setSlot_nextUid (s : State) (x : BitVec 8) (l : Option Launch) : (s.setSlot x l).nextUid = s.nextUid := rfl
@[simp] theorem State.setSlot_msgs (s : State) (x : BitVec 8) (l : Option Launch) : (s.setSlot x l).msgs = s.msgs := rfl
@[simp] theorem State.setSlot_media (s : State) (x : BitVec 8) (l : Option Launch) : (s.setSlot x l).media = s.media := rfl
@[simp] theorem State.setSlot_colls (s : State) (x : BitVec 8) (l : Option Launch) : (s.setSlot x l).colls = s.colls := rfl
@[simp] theorem State.setSlot_collData (s : State) (x : BitVec 8) (l : Option Launch) : (s.setSlot x l).collData = s.collData := rfl
@[simp] theorem State.setSlot_collReports (s : State) (x : BitVec 8) (l : Option Launch) : (s.setSlot x l).collReports = s.collReports := rfl
@[simp] theorem State.setSlot_collNotes (s : State) (x : BitVec 8) (l : Option Launch) : (s.setSlot x l).collNotes = s.collNotes := rfl
@[simp] theorem State.setSlot_collEvents (s : State) (x : BitVec 8) (l : Option Launch) : (s.setSlot x l).collEvents = s.collEvents := rfl
@[simp] theorem State.setSlot_collNum (s : State) (x : BitVec 8) (l : Option Launch) : (s.setSlot x l).collNum = s.collNum := rfl
@[simp] theorem State.setSlot_lq (s : State) (x : BitVec 8) (l : Option Launch) : (s.setSlot x l).lq = s.lq := rfl
@[simp] theorem State.setSlot_pool (s : State) (x : BitVec 8) (l : Option Launch) : (s.setSlot x l).pool = s.pool := rfl
@[simp] theorem State.setSlot_spillq (s : State) (x : BitVec 8) (l : Option Launch) : (s.setSlot x l).spillq = s.spillq := rfl
@[simp] theorem State.setSlot_recPtr (s : State) (x : BitVec 8) (l : Option Launch) : (s.setSlot x l).recPtr = s.recPtr := rfl
@[simp] theorem State.setSlot_selPtr (s : State) (x : BitVec 8) (l : Option Launch) : (s.setSlot x l).selPtr = s.selPtr := rfl
@[simp] theorem State.setSlot_nextAge (s : State) (x : BitVec 8) (l : Option Launch) : (s.setSlot x l).nextAge = s.nextAge := rfl
@[simp] theorem State.setSlot_ldrop (s : State) (x : BitVec 8) (l : Option Launch) : (s.setSlot x l).ldrop = s.ldrop := rfl
@[simp] theorem State.setSlot_shlim (s : State) (x : BitVec 8) (l : Option Launch) : (s.setSlot x l).shlim = s.shlim := rfl
@[simp] theorem State.setSlot_ctxcmd (s : State) (x : BitVec 8) (l : Option Launch) : (s.setSlot x l).ctxcmd = s.ctxcmd := rfl
@[simp] theorem State.setSlot_ctxarg (s : State) (x : BitVec 8) (l : Option Launch) : (s.setSlot x l).ctxarg = s.ctxarg := rfl
@[simp] theorem State.setSlot_copywt (s : State) (x : BitVec 8) (l : Option Launch) : (s.setSlot x l).copywt = s.copywt := rfl
@[simp] theorem State.setSlot_armReqs (s : State) (x : BitVec 8) (l : Option Launch) : (s.setSlot x l).armReqs = s.armReqs := rfl
@[simp] theorem State.setSlot_armed (s : State) (x : BitVec 8) (l : Option Launch) : (s.setSlot x l).armed = s.armed := rfl
@[simp] theorem State.setSlot_rounds (s : State) (x : BitVec 8) (l : Option Launch) : (s.setSlot x l).rounds = s.rounds := rfl
@[simp] theorem State.setSlot_boot (s : State) (x : BitVec 8) (l : Option Launch) : (s.setSlot x l).boot = s.boot := rfl
@[simp] theorem State.setSlot_failcode (s : State) (x : BitVec 8) (l : Option Launch) : (s.setSlot x l).failcode = s.failcode := rfl
@[simp] theorem State.setSlot_pthrot (s : State) (x : BitVec 8) (l : Option Launch) : (s.setSlot x l).pthrot = s.pthrot := rfl
@[simp] theorem State.setSlot_tthrot (s : State) (x : BitVec 8) (l : Option Launch) : (s.setSlot x l).tthrot = s.tthrot := rfl
@[simp] theorem State.setSlot_tlbiAddr (s : State) (x : BitVec 8) (l : Option Launch) : (s.setSlot x l).tlbiAddr = s.tlbiAddr := rfl
@[simp] theorem State.setSlot_tlbiLen (s : State) (x : BitVec 8) (l : Option Launch) : (s.setSlot x l).tlbiLen = s.tlbiLen := rfl
@[simp] theorem State.setSlot_tlbiCtx (s : State) (x : BitVec 8) (l : Option Launch) : (s.setSlot x l).tlbiCtx = s.tlbiCtx := rfl
@[simp] theorem State.setSlot_tlbiGo (s : State) (x : BitVec 8) (l : Option Launch) : (s.setSlot x l).tlbiGo = s.tlbiGo := rfl
@[simp] theorem State.setSlot_tripped (s : State) (x : BitVec 8) (l : Option Launch) : (s.setSlot x l).tripped = s.tripped := rfl
@[simp] theorem State.setSlot_nudon (s : State) (x : BitVec 8) (l : Option Launch) : (s.setSlot x l).nudon = s.nudon := rfl
@[simp] theorem State.setSlot_tdi (s : State) (x : BitVec 8) (l : Option Launch) : (s.setSlot x l).tdi = s.tdi := rfl
@[simp] theorem State.setSlot_falls (s : State) (x : BitVec 8) (l : Option Launch) : (s.setSlot x l).falls = s.falls := rfl
@[simp] theorem State.setSlot_walkAt (s : State) (x : BitVec 8) (l : Option Launch) : (s.setSlot x l).walkAt = s.walkAt := rfl
@[simp] theorem State.setSlot_spdmOk (s : State) (x : BitVec 8) (l : Option Launch) : (s.setSlot x l).spdmOk = s.spdmOk := rfl
@[simp] theorem State.setSlot_session (s : State) (x : BitVec 8) (l : Option Launch) : (s.setSlot x l).session = s.session := rfl
@[simp] theorem State.setSlot_eid (s : State) (x : BitVec 8) (l : Option Launch) : (s.setSlot x l).eid = s.eid := rfl
@[simp] theorem State.setSlot_flash (s : State) (x : BitVec 8) (l : Option Launch) : (s.setSlot x l).flash = s.flash := rfl
@[simp] theorem State.setSlot_staged (s : State) (x : BitVec 8) (l : Option Launch) : (s.setSlot x l).staged = s.staged := rfl
@[simp] theorem State.setSlot_meas (s : State) (x : BitVec 8) (l : Option Launch) : (s.setSlot x l).meas = s.meas := rfl
@[simp] theorem State.setSlot_noPcie (s : State) (x : BitVec 8) (l : Option Launch) : (s.setSlot x l).noPcie = s.noPcie := rfl
@[simp] theorem State.setSlot_debug (s : State) (x : BitVec 8) (l : Option Launch) : (s.setSlot x l).debug = s.debug := rfl
@[simp] theorem State.setSlot_sent (s : State) (x : BitVec 8) (l : Option Launch) : (s.setSlot x l).sent = s.sent := rfl

/-! State.onSlot -/

@[simp] theorem State.onSlot_schedule (s : State) (x : BitVec 8) (f : Launch → Launch) : (s.onSlot x f).schedule = s.schedule := rfl
@[simp] theorem State.onSlot_turn (s : State) (x : BitVec 8) (f : Launch → Launch) : (s.onSlot x f).turn = s.turn := rfl
@[simp] theorem State.onSlot_freeCtr (s : State) (x : BitVec 8) (f : Launch → Launch) : (s.onSlot x f).freeCtr = s.freeCtr := rfl
@[simp] theorem State.onSlot_seqNo (s : State) (x : BitVec 8) (f : Launch → Launch) : (s.onSlot x f).seqNo = s.seqNo := rfl
@[simp] theorem State.onSlot_actCore (s : State) (x : BitVec 8) (f : Launch → Launch) : (s.onSlot x f).actCore = s.actCore := rfl
@[simp] theorem State.onSlot_actSeq (s : State) (x : BitVec 8) (f : Launch → Launch) : (s.onSlot x f).actSeq = s.actSeq := rfl
@[simp] theorem State.onSlot_clock (s : State) (x : BitVec 8) (f : Launch → Launch) : (s.onSlot x f).clock = s.clock := rfl
@[simp] theorem State.onSlot_cores (s : State) (x : BitVec 8) (f : Launch → Launch) : (s.onSlot x f).cores = s.cores := rfl
@[simp] theorem State.onSlot_caps (s : State) (x : BitVec 8) (f : Launch → Launch) : (s.onSlot x f).caps = s.caps := rfl
@[simp] theorem State.onSlot_devid (s : State) (x : BitVec 8) (f : Launch → Launch) : (s.onSlot x f).devid = s.devid := rfl
@[simp] theorem State.onSlot_mem (s : State) (x : BitVec 8) (f : Launch → Launch) : (s.onSlot x f).mem = s.mem := rfl
@[simp] theorem State.onSlot_remote (s : State) (x : BitVec 8) (f : Launch → Launch) : (s.onSlot x f).remote = s.remote := rfl
@[simp] theorem State.onSlot_remoteUp (s : State) (x : BitVec 8) (f : Launch → Launch) : (s.onSlot x f).remoteUp = s.remoteUp := rfl
@[simp] theorem State.onSlot_badLines (s : State) (x : BitVec 8) (f : Launch → Launch) : (s.onSlot x f).badLines = s.badLines := rfl
@[simp] theorem State.onSlot_tags (s : State) (x : BitVec 8) (f : Launch → Launch) : (s.onSlot x f).tags = s.tags := rfl
@[simp] theorem State.onSlot_keyGen (s : State) (x : BitVec 8) (f : Launch → Launch) : (s.onSlot x f).keyGen = s.keyGen := rfl
@[simp] theorem State.onSlot_atsAbsent (s : State) (x : BitVec 8) (f : Launch → Launch) : (s.onSlot x f).atsAbsent = s.atsAbsent := rfl
@[simp] theorem State.onSlot_tlb (s : State) (x : BitVec 8) (f : Launch → Launch) : (s.onSlot x f).tlb = s.tlb := rfl
@[simp] theorem State.onSlot_windows (s : State) (x : BitVec 8) (f : Launch → Launch) : (s.onSlot x f).windows = s.windows := rfl
@[simp] theorem State.onSlot_ctxs (s : State) (x : BitVec 8) (f : Launch → Launch) : (s.onSlot x f).ctxs = s.ctxs := rfl
@[simp] theorem State.onSlot_ctxbase (s : State) (x : BitVec 8) (f : Launch → Launch) : (s.onSlot x f).ctxbase = s.ctxbase := rfl
@[simp] theorem State.onSlot_tlt (s : State) (x : BitVec 8) (f : Launch → Launch) : (s.onSlot x f).tlt = s.tlt := rfl
@[simp] theorem State.onSlot_stale (s : State) (x : BitVec 8) (f : Launch → Launch) : (s.onSlot x f).stale = s.stale := rfl
@[simp] theorem State.onSlot_downLinks (s : State) (x : BitVec 8) (f : Launch → Launch) : (s.onSlot x f).downLinks = s.downLinks := rfl
@[simp] theorem State.onSlot_diesOut (s : State) (x : BitVec 8) (f : Launch → Launch) : (s.onSlot x f).diesOut = s.diesOut := rfl
@[simp] theorem State.onSlot_termite (s : State) (x : BitVec 8) (f : Launch → Launch) : (s.onSlot x f).termite = s.termite := rfl
@[simp] theorem State.onSlot_posted (s : State) (x : BitVec 8) (f : Launch → Launch) : (s.onSlot x f).posted = s.posted := rfl
@[simp] theorem State.onSlot_postNum (s : State) (x : BitVec 8) (f : Launch → Launch) : (s.onSlot x f).postNum = s.postNum := rfl
@[simp] theorem State.onSlot_peeks (s : State) (x : BitVec 8) (f : Launch → Launch) : (s.onSlot x f).peeks = s.peeks := rfl
@[simp] theorem State.onSlot_nextUid (s : State) (x : BitVec 8) (f : Launch → Launch) : (s.onSlot x f).nextUid = s.nextUid := rfl
@[simp] theorem State.onSlot_msgs (s : State) (x : BitVec 8) (f : Launch → Launch) : (s.onSlot x f).msgs = s.msgs := rfl
@[simp] theorem State.onSlot_media (s : State) (x : BitVec 8) (f : Launch → Launch) : (s.onSlot x f).media = s.media := rfl
@[simp] theorem State.onSlot_colls (s : State) (x : BitVec 8) (f : Launch → Launch) : (s.onSlot x f).colls = s.colls := rfl
@[simp] theorem State.onSlot_collData (s : State) (x : BitVec 8) (f : Launch → Launch) : (s.onSlot x f).collData = s.collData := rfl
@[simp] theorem State.onSlot_collReports (s : State) (x : BitVec 8) (f : Launch → Launch) : (s.onSlot x f).collReports = s.collReports := rfl
@[simp] theorem State.onSlot_collNotes (s : State) (x : BitVec 8) (f : Launch → Launch) : (s.onSlot x f).collNotes = s.collNotes := rfl
@[simp] theorem State.onSlot_collEvents (s : State) (x : BitVec 8) (f : Launch → Launch) : (s.onSlot x f).collEvents = s.collEvents := rfl
@[simp] theorem State.onSlot_collNum (s : State) (x : BitVec 8) (f : Launch → Launch) : (s.onSlot x f).collNum = s.collNum := rfl
@[simp] theorem State.onSlot_lq (s : State) (x : BitVec 8) (f : Launch → Launch) : (s.onSlot x f).lq = s.lq := rfl
@[simp] theorem State.onSlot_pool (s : State) (x : BitVec 8) (f : Launch → Launch) : (s.onSlot x f).pool = s.pool := rfl
@[simp] theorem State.onSlot_spillq (s : State) (x : BitVec 8) (f : Launch → Launch) : (s.onSlot x f).spillq = s.spillq := rfl
@[simp] theorem State.onSlot_recPtr (s : State) (x : BitVec 8) (f : Launch → Launch) : (s.onSlot x f).recPtr = s.recPtr := rfl
@[simp] theorem State.onSlot_selPtr (s : State) (x : BitVec 8) (f : Launch → Launch) : (s.onSlot x f).selPtr = s.selPtr := rfl
@[simp] theorem State.onSlot_nextAge (s : State) (x : BitVec 8) (f : Launch → Launch) : (s.onSlot x f).nextAge = s.nextAge := rfl
@[simp] theorem State.onSlot_ldrop (s : State) (x : BitVec 8) (f : Launch → Launch) : (s.onSlot x f).ldrop = s.ldrop := rfl
@[simp] theorem State.onSlot_shlim (s : State) (x : BitVec 8) (f : Launch → Launch) : (s.onSlot x f).shlim = s.shlim := rfl
@[simp] theorem State.onSlot_ctxcmd (s : State) (x : BitVec 8) (f : Launch → Launch) : (s.onSlot x f).ctxcmd = s.ctxcmd := rfl
@[simp] theorem State.onSlot_ctxarg (s : State) (x : BitVec 8) (f : Launch → Launch) : (s.onSlot x f).ctxarg = s.ctxarg := rfl
@[simp] theorem State.onSlot_copywt (s : State) (x : BitVec 8) (f : Launch → Launch) : (s.onSlot x f).copywt = s.copywt := rfl
@[simp] theorem State.onSlot_armReqs (s : State) (x : BitVec 8) (f : Launch → Launch) : (s.onSlot x f).armReqs = s.armReqs := rfl
@[simp] theorem State.onSlot_armed (s : State) (x : BitVec 8) (f : Launch → Launch) : (s.onSlot x f).armed = s.armed := rfl
@[simp] theorem State.onSlot_rounds (s : State) (x : BitVec 8) (f : Launch → Launch) : (s.onSlot x f).rounds = s.rounds := rfl
@[simp] theorem State.onSlot_boot (s : State) (x : BitVec 8) (f : Launch → Launch) : (s.onSlot x f).boot = s.boot := rfl
@[simp] theorem State.onSlot_failcode (s : State) (x : BitVec 8) (f : Launch → Launch) : (s.onSlot x f).failcode = s.failcode := rfl
@[simp] theorem State.onSlot_pthrot (s : State) (x : BitVec 8) (f : Launch → Launch) : (s.onSlot x f).pthrot = s.pthrot := rfl
@[simp] theorem State.onSlot_tthrot (s : State) (x : BitVec 8) (f : Launch → Launch) : (s.onSlot x f).tthrot = s.tthrot := rfl
@[simp] theorem State.onSlot_tlbiAddr (s : State) (x : BitVec 8) (f : Launch → Launch) : (s.onSlot x f).tlbiAddr = s.tlbiAddr := rfl
@[simp] theorem State.onSlot_tlbiLen (s : State) (x : BitVec 8) (f : Launch → Launch) : (s.onSlot x f).tlbiLen = s.tlbiLen := rfl
@[simp] theorem State.onSlot_tlbiCtx (s : State) (x : BitVec 8) (f : Launch → Launch) : (s.onSlot x f).tlbiCtx = s.tlbiCtx := rfl
@[simp] theorem State.onSlot_tlbiGo (s : State) (x : BitVec 8) (f : Launch → Launch) : (s.onSlot x f).tlbiGo = s.tlbiGo := rfl
@[simp] theorem State.onSlot_tripped (s : State) (x : BitVec 8) (f : Launch → Launch) : (s.onSlot x f).tripped = s.tripped := rfl
@[simp] theorem State.onSlot_nudon (s : State) (x : BitVec 8) (f : Launch → Launch) : (s.onSlot x f).nudon = s.nudon := rfl
@[simp] theorem State.onSlot_tdi (s : State) (x : BitVec 8) (f : Launch → Launch) : (s.onSlot x f).tdi = s.tdi := rfl
@[simp] theorem State.onSlot_falls (s : State) (x : BitVec 8) (f : Launch → Launch) : (s.onSlot x f).falls = s.falls := rfl
@[simp] theorem State.onSlot_walkAt (s : State) (x : BitVec 8) (f : Launch → Launch) : (s.onSlot x f).walkAt = s.walkAt := rfl
@[simp] theorem State.onSlot_spdmOk (s : State) (x : BitVec 8) (f : Launch → Launch) : (s.onSlot x f).spdmOk = s.spdmOk := rfl
@[simp] theorem State.onSlot_session (s : State) (x : BitVec 8) (f : Launch → Launch) : (s.onSlot x f).session = s.session := rfl
@[simp] theorem State.onSlot_eid (s : State) (x : BitVec 8) (f : Launch → Launch) : (s.onSlot x f).eid = s.eid := rfl
@[simp] theorem State.onSlot_flash (s : State) (x : BitVec 8) (f : Launch → Launch) : (s.onSlot x f).flash = s.flash := rfl
@[simp] theorem State.onSlot_staged (s : State) (x : BitVec 8) (f : Launch → Launch) : (s.onSlot x f).staged = s.staged := rfl
@[simp] theorem State.onSlot_meas (s : State) (x : BitVec 8) (f : Launch → Launch) : (s.onSlot x f).meas = s.meas := rfl
@[simp] theorem State.onSlot_noPcie (s : State) (x : BitVec 8) (f : Launch → Launch) : (s.onSlot x f).noPcie = s.noPcie := rfl
@[simp] theorem State.onSlot_debug (s : State) (x : BitVec 8) (f : Launch → Launch) : (s.onSlot x f).debug = s.debug := rfl
@[simp] theorem State.onSlot_sent (s : State) (x : BitVec 8) (f : Launch → Launch) : (s.onSlot x f).sent = s.sent := rfl

/-! State.onTdi -/

@[simp] theorem State.onTdi_schedule (s : State) (w : BitVec 4) (f : Tdi → Tdi) : (s.onTdi w f).schedule = s.schedule := rfl
@[simp] theorem State.onTdi_turn (s : State) (w : BitVec 4) (f : Tdi → Tdi) : (s.onTdi w f).turn = s.turn := rfl
@[simp] theorem State.onTdi_freeCtr (s : State) (w : BitVec 4) (f : Tdi → Tdi) : (s.onTdi w f).freeCtr = s.freeCtr := rfl
@[simp] theorem State.onTdi_seqNo (s : State) (w : BitVec 4) (f : Tdi → Tdi) : (s.onTdi w f).seqNo = s.seqNo := rfl
@[simp] theorem State.onTdi_actCore (s : State) (w : BitVec 4) (f : Tdi → Tdi) : (s.onTdi w f).actCore = s.actCore := rfl
@[simp] theorem State.onTdi_actSeq (s : State) (w : BitVec 4) (f : Tdi → Tdi) : (s.onTdi w f).actSeq = s.actSeq := rfl
@[simp] theorem State.onTdi_clock (s : State) (w : BitVec 4) (f : Tdi → Tdi) : (s.onTdi w f).clock = s.clock := rfl
@[simp] theorem State.onTdi_cores (s : State) (w : BitVec 4) (f : Tdi → Tdi) : (s.onTdi w f).cores = s.cores := rfl
@[simp] theorem State.onTdi_caps (s : State) (w : BitVec 4) (f : Tdi → Tdi) : (s.onTdi w f).caps = s.caps := rfl
@[simp] theorem State.onTdi_devid (s : State) (w : BitVec 4) (f : Tdi → Tdi) : (s.onTdi w f).devid = s.devid := rfl
@[simp] theorem State.onTdi_mem (s : State) (w : BitVec 4) (f : Tdi → Tdi) : (s.onTdi w f).mem = s.mem := rfl
@[simp] theorem State.onTdi_remote (s : State) (w : BitVec 4) (f : Tdi → Tdi) : (s.onTdi w f).remote = s.remote := rfl
@[simp] theorem State.onTdi_remoteUp (s : State) (w : BitVec 4) (f : Tdi → Tdi) : (s.onTdi w f).remoteUp = s.remoteUp := rfl
@[simp] theorem State.onTdi_badLines (s : State) (w : BitVec 4) (f : Tdi → Tdi) : (s.onTdi w f).badLines = s.badLines := rfl
@[simp] theorem State.onTdi_tags (s : State) (w : BitVec 4) (f : Tdi → Tdi) : (s.onTdi w f).tags = s.tags := rfl
@[simp] theorem State.onTdi_keyGen (s : State) (w : BitVec 4) (f : Tdi → Tdi) : (s.onTdi w f).keyGen = s.keyGen := rfl
@[simp] theorem State.onTdi_atsAbsent (s : State) (w : BitVec 4) (f : Tdi → Tdi) : (s.onTdi w f).atsAbsent = s.atsAbsent := rfl
@[simp] theorem State.onTdi_tlb (s : State) (w : BitVec 4) (f : Tdi → Tdi) : (s.onTdi w f).tlb = s.tlb := rfl
@[simp] theorem State.onTdi_windows (s : State) (w : BitVec 4) (f : Tdi → Tdi) : (s.onTdi w f).windows = s.windows := rfl
@[simp] theorem State.onTdi_ctxs (s : State) (w : BitVec 4) (f : Tdi → Tdi) : (s.onTdi w f).ctxs = s.ctxs := rfl
@[simp] theorem State.onTdi_ctxbase (s : State) (w : BitVec 4) (f : Tdi → Tdi) : (s.onTdi w f).ctxbase = s.ctxbase := rfl
@[simp] theorem State.onTdi_tlt (s : State) (w : BitVec 4) (f : Tdi → Tdi) : (s.onTdi w f).tlt = s.tlt := rfl
@[simp] theorem State.onTdi_stale (s : State) (w : BitVec 4) (f : Tdi → Tdi) : (s.onTdi w f).stale = s.stale := rfl
@[simp] theorem State.onTdi_downLinks (s : State) (w : BitVec 4) (f : Tdi → Tdi) : (s.onTdi w f).downLinks = s.downLinks := rfl
@[simp] theorem State.onTdi_diesOut (s : State) (w : BitVec 4) (f : Tdi → Tdi) : (s.onTdi w f).diesOut = s.diesOut := rfl
@[simp] theorem State.onTdi_termite (s : State) (w : BitVec 4) (f : Tdi → Tdi) : (s.onTdi w f).termite = s.termite := rfl
@[simp] theorem State.onTdi_posted (s : State) (w : BitVec 4) (f : Tdi → Tdi) : (s.onTdi w f).posted = s.posted := rfl
@[simp] theorem State.onTdi_postNum (s : State) (w : BitVec 4) (f : Tdi → Tdi) : (s.onTdi w f).postNum = s.postNum := rfl
@[simp] theorem State.onTdi_peeks (s : State) (w : BitVec 4) (f : Tdi → Tdi) : (s.onTdi w f).peeks = s.peeks := rfl
@[simp] theorem State.onTdi_nextUid (s : State) (w : BitVec 4) (f : Tdi → Tdi) : (s.onTdi w f).nextUid = s.nextUid := rfl
@[simp] theorem State.onTdi_msgs (s : State) (w : BitVec 4) (f : Tdi → Tdi) : (s.onTdi w f).msgs = s.msgs := rfl
@[simp] theorem State.onTdi_media (s : State) (w : BitVec 4) (f : Tdi → Tdi) : (s.onTdi w f).media = s.media := rfl
@[simp] theorem State.onTdi_colls (s : State) (w : BitVec 4) (f : Tdi → Tdi) : (s.onTdi w f).colls = s.colls := rfl
@[simp] theorem State.onTdi_collData (s : State) (w : BitVec 4) (f : Tdi → Tdi) : (s.onTdi w f).collData = s.collData := rfl
@[simp] theorem State.onTdi_collReports (s : State) (w : BitVec 4) (f : Tdi → Tdi) : (s.onTdi w f).collReports = s.collReports := rfl
@[simp] theorem State.onTdi_collNotes (s : State) (w : BitVec 4) (f : Tdi → Tdi) : (s.onTdi w f).collNotes = s.collNotes := rfl
@[simp] theorem State.onTdi_collEvents (s : State) (w : BitVec 4) (f : Tdi → Tdi) : (s.onTdi w f).collEvents = s.collEvents := rfl
@[simp] theorem State.onTdi_collNum (s : State) (w : BitVec 4) (f : Tdi → Tdi) : (s.onTdi w f).collNum = s.collNum := rfl
@[simp] theorem State.onTdi_lq (s : State) (w : BitVec 4) (f : Tdi → Tdi) : (s.onTdi w f).lq = s.lq := rfl
@[simp] theorem State.onTdi_slots (s : State) (w : BitVec 4) (f : Tdi → Tdi) : (s.onTdi w f).slots = s.slots := rfl
@[simp] theorem State.onTdi_pool (s : State) (w : BitVec 4) (f : Tdi → Tdi) : (s.onTdi w f).pool = s.pool := rfl
@[simp] theorem State.onTdi_spillq (s : State) (w : BitVec 4) (f : Tdi → Tdi) : (s.onTdi w f).spillq = s.spillq := rfl
@[simp] theorem State.onTdi_recPtr (s : State) (w : BitVec 4) (f : Tdi → Tdi) : (s.onTdi w f).recPtr = s.recPtr := rfl
@[simp] theorem State.onTdi_selPtr (s : State) (w : BitVec 4) (f : Tdi → Tdi) : (s.onTdi w f).selPtr = s.selPtr := rfl
@[simp] theorem State.onTdi_nextAge (s : State) (w : BitVec 4) (f : Tdi → Tdi) : (s.onTdi w f).nextAge = s.nextAge := rfl
@[simp] theorem State.onTdi_ldrop (s : State) (w : BitVec 4) (f : Tdi → Tdi) : (s.onTdi w f).ldrop = s.ldrop := rfl
@[simp] theorem State.onTdi_shlim (s : State) (w : BitVec 4) (f : Tdi → Tdi) : (s.onTdi w f).shlim = s.shlim := rfl
@[simp] theorem State.onTdi_ctxcmd (s : State) (w : BitVec 4) (f : Tdi → Tdi) : (s.onTdi w f).ctxcmd = s.ctxcmd := rfl
@[simp] theorem State.onTdi_ctxarg (s : State) (w : BitVec 4) (f : Tdi → Tdi) : (s.onTdi w f).ctxarg = s.ctxarg := rfl
@[simp] theorem State.onTdi_copywt (s : State) (w : BitVec 4) (f : Tdi → Tdi) : (s.onTdi w f).copywt = s.copywt := rfl
@[simp] theorem State.onTdi_armReqs (s : State) (w : BitVec 4) (f : Tdi → Tdi) : (s.onTdi w f).armReqs = s.armReqs := rfl
@[simp] theorem State.onTdi_armed (s : State) (w : BitVec 4) (f : Tdi → Tdi) : (s.onTdi w f).armed = s.armed := rfl
@[simp] theorem State.onTdi_rounds (s : State) (w : BitVec 4) (f : Tdi → Tdi) : (s.onTdi w f).rounds = s.rounds := rfl
@[simp] theorem State.onTdi_boot (s : State) (w : BitVec 4) (f : Tdi → Tdi) : (s.onTdi w f).boot = s.boot := rfl
@[simp] theorem State.onTdi_failcode (s : State) (w : BitVec 4) (f : Tdi → Tdi) : (s.onTdi w f).failcode = s.failcode := rfl
@[simp] theorem State.onTdi_pthrot (s : State) (w : BitVec 4) (f : Tdi → Tdi) : (s.onTdi w f).pthrot = s.pthrot := rfl
@[simp] theorem State.onTdi_tthrot (s : State) (w : BitVec 4) (f : Tdi → Tdi) : (s.onTdi w f).tthrot = s.tthrot := rfl
@[simp] theorem State.onTdi_tlbiAddr (s : State) (w : BitVec 4) (f : Tdi → Tdi) : (s.onTdi w f).tlbiAddr = s.tlbiAddr := rfl
@[simp] theorem State.onTdi_tlbiLen (s : State) (w : BitVec 4) (f : Tdi → Tdi) : (s.onTdi w f).tlbiLen = s.tlbiLen := rfl
@[simp] theorem State.onTdi_tlbiCtx (s : State) (w : BitVec 4) (f : Tdi → Tdi) : (s.onTdi w f).tlbiCtx = s.tlbiCtx := rfl
@[simp] theorem State.onTdi_tlbiGo (s : State) (w : BitVec 4) (f : Tdi → Tdi) : (s.onTdi w f).tlbiGo = s.tlbiGo := rfl
@[simp] theorem State.onTdi_tripped (s : State) (w : BitVec 4) (f : Tdi → Tdi) : (s.onTdi w f).tripped = s.tripped := rfl
@[simp] theorem State.onTdi_nudon (s : State) (w : BitVec 4) (f : Tdi → Tdi) : (s.onTdi w f).nudon = s.nudon := rfl
@[simp] theorem State.onTdi_falls (s : State) (w : BitVec 4) (f : Tdi → Tdi) : (s.onTdi w f).falls = s.falls := rfl
@[simp] theorem State.onTdi_walkAt (s : State) (w : BitVec 4) (f : Tdi → Tdi) : (s.onTdi w f).walkAt = s.walkAt := rfl
@[simp] theorem State.onTdi_spdmOk (s : State) (w : BitVec 4) (f : Tdi → Tdi) : (s.onTdi w f).spdmOk = s.spdmOk := rfl
@[simp] theorem State.onTdi_session (s : State) (w : BitVec 4) (f : Tdi → Tdi) : (s.onTdi w f).session = s.session := rfl
@[simp] theorem State.onTdi_eid (s : State) (w : BitVec 4) (f : Tdi → Tdi) : (s.onTdi w f).eid = s.eid := rfl
@[simp] theorem State.onTdi_flash (s : State) (w : BitVec 4) (f : Tdi → Tdi) : (s.onTdi w f).flash = s.flash := rfl
@[simp] theorem State.onTdi_staged (s : State) (w : BitVec 4) (f : Tdi → Tdi) : (s.onTdi w f).staged = s.staged := rfl
@[simp] theorem State.onTdi_meas (s : State) (w : BitVec 4) (f : Tdi → Tdi) : (s.onTdi w f).meas = s.meas := rfl
@[simp] theorem State.onTdi_noPcie (s : State) (w : BitVec 4) (f : Tdi → Tdi) : (s.onTdi w f).noPcie = s.noPcie := rfl
@[simp] theorem State.onTdi_debug (s : State) (w : BitVec 4) (f : Tdi → Tdi) : (s.onTdi w f).debug = s.debug := rfl
@[simp] theorem State.onTdi_sent (s : State) (w : BitVec 4) (f : Tdi → Tdi) : (s.onTdi w f).sent = s.sent := rfl

/-! ### Reading after writing -/

@[simp] theorem State.core_setCore_self (s : State) (c : CoreId) (k : Core) : (s.setCore c k).core c = k := by
  simp [State.core, State.setCore]

theorem State.core_setCore_ne (s : State) (c d : CoreId) (k : Core) (h : d ≠ c) : (s.setCore c k).core d = s.core d := by
  have : c.toNat ≠ d.toNat := fun e => h (BitVec.eq_of_toNat_eq e.symm)
  simp [State.core, State.setCore, this]

@[simp] theorem State.core_onCore_self (s : State) (c : CoreId) (f : Core → Core) : (s.onCore c f).core c = f (s.core c) := by
  simp [State.onCore]

theorem State.core_onCore_ne (s : State) (c d : CoreId) (f : Core → Core) (h : d ≠ c) : (s.onCore c f).core d = s.core d :=
  s.core_setCore_ne c d _ h

@[simp] theorem State.core_onHere_self (s : State) (f : Core → Core) : (s.onHere f).core s.actCore = f s.here := by
  simp [State.onHere, State.here]

@[simp] theorem State.here_onHere (s : State) (f : Core → Core) : (s.onHere f).here = f s.here := by
  simp [State.here]

@[simp] theorem State.here_onCtl (s : State) (f : Ctl → Ctl) : (s.onCtl f).here = s.here.onCtl f := by
  simp [State.onCtl, State.here]

theorem State.core_onCtl_ne (s : State) (f : Ctl → Ctl) (d : CoreId) (h : d ≠ s.actCore) :
    (s.onCtl f).core d = s.core d := s.core_onCore_ne _ d _ h

@[simp] theorem Core.onCtl_ctl (k : Core) (f : Ctl → Ctl) : (k.onCtl f).ctl = f k.ctl := rfl

@[simp] theorem State.here_setSreg (s : State) (r : BitVec 5) (v : DWord) :
    (s.setSreg r v).here = s.here.onCtl (fun k => k.setReg r v) := by simp [State.setSreg]

@[simp] theorem State.here_retire (s : State) : s.retire.here = s.here.onCtl Ctl.advance := by
  simp [State.retire]

/-- A write to s0 is discarded (R126). -/
@[simp] theorem Ctl.setReg_zero (k : Ctl) (v : DWord) : k.setReg 0 v = k := by simp [Ctl.setReg]

/-- s0 reads as zero (R126). -/
@[simp] theorem Ctl.reg_zero (k : Ctl) : k.reg 0 = 0 := by simp [Ctl.reg]

theorem Ctl.reg_setReg_self (k : Ctl) (r : BitVec 5) (v : DWord) : (k.setReg r v).reg r = if r = 0 then 0 else v := by
  unfold Ctl.reg Ctl.setReg
  by_cases h : r = 0
  · rw [if_pos h, if_pos h]
  · rw [if_neg h, if_neg h, if_neg h]; exact Vector.getElem_set_self _

theorem Ctl.reg_setReg_ne (k : Ctl) (r q : BitVec 5) (v : DWord) (h : q ≠ r) : (k.setReg r v).reg q = k.reg q := by
  have hn : r.toNat ≠ q.toNat := fun e => h (BitVec.eq_of_toNat_eq e.symm)
  unfold Ctl.reg Ctl.setReg
  by_cases hr : r = 0
  · rw [if_pos hr]
  · rw [if_neg hr]
    by_cases hq : q = 0
    · rw [if_pos hq, if_pos hq]
    · rw [if_neg hq, if_neg hq]; exact Vector.getElem_set_ne r.isLt q.isLt hn

@[simp] theorem Ctl.setReg_pc (k : Ctl) (r : BitVec 5) (v : DWord) : (k.setReg r v).pc = k.pc := by
  unfold Ctl.setReg; split <;> rfl

@[simp] theorem Ctl.setReg_loops (k : Ctl) (r : BitVec 5) (v : DWord) : (k.setReg r v).loops = k.loops := by
  unfold Ctl.setReg; split <;> rfl

@[simp] theorem Ctl.advance_s (k : Ctl) : k.advance.s = k.s := rfl

@[simp] theorem Ctl.reg_advance (k : Ctl) (r : BitVec 5) : k.advance.reg r = k.reg r := rfl

@[simp] theorem State.ctx_onCtx_self (s : State) (x : BitVec 6) (f : Ctx → Ctx) : (s.onCtx x f).ctx x = f (s.ctx x) := by
  simp [State.ctx, State.onCtx]

theorem State.ctx_onCtx_ne (s : State) (x y : BitVec 6) (f : Ctx → Ctx) (h : y ≠ x) : (s.onCtx x f).ctx y = s.ctx y := by
  have : x.toNat ≠ y.toNat := fun e => h (BitVec.eq_of_toNat_eq e.symm)
  simp [State.ctx, State.onCtx, this]

@[simp] theorem State.slot_setSlot_self (s : State) (x : BitVec 8) (l : Option Launch) : (s.setSlot x l).slot x = l := by
  simp [State.slot, State.setSlot]

theorem State.slot_setSlot_ne (s : State) (x y : BitVec 8) (l : Option Launch) (h : y ≠ x) :
    (s.setSlot x l).slot y = s.slot y := by
  have : x.toNat ≠ y.toNat := fun e => h (BitVec.eq_of_toNat_eq e.symm)
  simp [State.slot, State.setSlot, this]

@[simp] theorem State.tdiOf_onTdi_self (s : State) (w : BitVec 4) (f : Tdi → Tdi) : (s.onTdi w f).tdiOf w = f (s.tdiOf w) := by
  simp [State.tdiOf, State.onTdi]

@[simp] theorem State.core_onCtx (s : State) (x : BitVec 6) (f : Ctx → Ctx) (c : CoreId) : (s.onCtx x f).core c = s.core c := rfl

@[simp] theorem State.core_setSlot (s : State) (x : BitVec 8) (l : Option Launch) (c : CoreId) :
    (s.setSlot x l).core c = s.core c := rfl

@[simp] theorem State.core_onTdi (s : State) (w : BitVec 4) (f : Tdi → Tdi) (c : CoreId) : (s.onTdi w f).core c = s.core c := rfl

@[simp] theorem State.ctx_onCore (s : State) (c : CoreId) (f : Core → Core) (x : BitVec 6) :
    (s.onCore c f).ctx x = s.ctx x := rfl

@[simp] theorem State.slot_onCore (s : State) (c : CoreId) (f : Core → Core) (x : BitVec 8) :
    (s.onCore c f).slot x = s.slot x := rfl

theorem State.setCore_setCore (s : State) (c : CoreId) (k m : Core) : (s.setCore c k).setCore c m = s.setCore c m := by
  simp [State.setCore]

/-- Two changes of one core are one. -/
theorem State.onCore_onCore (s : State) (c : CoreId) (f g : Core → Core) :
    (s.onCore c f).onCore c g = s.onCore c (fun k => g (f k)) := by
  simp [State.onCore, State.setCore_setCore]

/-- A register write followed by the retirement of the word is one change of CTL. -/
theorem State.setSreg_retire (s : State) (r : BitVec 5) (v : DWord) :
    (s.setSreg r v).retire = s.onCtl (fun k => (k.setReg r v).advance) := by
  simp only [State.setSreg, State.retire, State.onCtl]
  exact s.onCore_onCore s.actCore _ _


end Sys2Proof.Machine
end

