-- ==== Sys2Proof/Laws/Memory.lean ====
section
/-!
SUPPORT. Sparse stores keep their canonical form and read back what was written; so does the memory of the device.
-/

namespace Sys2Proof.Machine

variable {α : Type} [DecidableEq α] {d : α}

/-! ### Cells -/

/-- A listed value of a run lies within it and is not the default. -/
theorem Cells.mem_run {p : Nat × α} {vs : List α} : ∀ {lo : Nat}, p ∈ Cells.run d lo vs →
    lo ≤ p.1 ∧ p.1 < lo + vs.length ∧ p.2 ≠ d := by
  induction vs with
  | nil => simp [Cells.run]
  | cons v vs ih =>
    intro lo h
    simp only [Cells.run] at h
    split at h
    · have := ih h; exact ⟨by omega, by rw [List.length_cons]; omega, this.2.2⟩
    · rcases List.mem_cons.1 h with rfl | h
      · exact ⟨Nat.le_refl _, by rw [List.length_cons]; omega, by assumption⟩
      · have := ih h; exact ⟨by omega, by rw [List.length_cons]; omega, this.2.2⟩

/-- A run is in canonical form. -/
theorem Cells.run_wf (vs : List α) : ∀ lo : Nat, Cells.wf d (Cells.run d lo vs) := by
  induction vs with
  | nil => simp [Cells.run, Cells.wf]
  | cons v vs ih =>
    intro lo
    simp only [Cells.run]
    split
    · exact ih (lo + 1)
    · refine ⟨List.pairwise_cons.2 ⟨fun q hq => ?_, (ih (lo + 1)).1⟩, fun p hp => ?_⟩
      · have := Cells.mem_run hq; omega
      · rcases List.mem_cons.1 hp with rfl | hp
        · assumption
        · exact (ih (lo + 1)).2 p hp

omit [DecidableEq α] in
/-- What is left of a canonical store by a filter is canonical. -/
theorem Cells.filter_wf {c : Cells α} (f : Nat × α → Bool) (h : Cells.wf d c) : Cells.wf d (c.filter f) :=
  ⟨h.1.filter f, fun p hp => h.2 p (List.mem_filter.1 hp).1⟩

/-- A write of a run keeps the canonical form. -/
theorem Cells.splice_wf {c : Cells α} (h : Cells.wf d c) (lo : Nat) (vs : List α) : Cells.wf d (c.splice d lo vs) := by
  have hr := Cells.run_wf (d := d) vs lo
  refine ⟨List.pairwise_append.2 ⟨List.pairwise_append.2 ⟨h.1.filter _, hr.1, fun p hp q hq => ?_⟩, h.1.filter _,
    fun p hp q hq => ?_⟩, fun p hp => ?_⟩
  · have := Cells.mem_run hq; simp at hp; omega
  · simp at hp hq
    rcases hp with hp | hp
    · omega
    · have := Cells.mem_run hp; omega
  · simp only [Cells.splice, List.mem_append, List.mem_filter] at hp
    rcases hp with (hp | hp) | hp
    · exact h.2 p hp.1
    · exact (Cells.mem_run hp).2.2
    · exact h.2 p hp.1

theorem Cells.write_wf {c : Cells α} (h : Cells.wf d c) (a : Nat) (v : α) : Cells.wf d (c.write d a v) := Cells.splice_wf h a [v]

omit [DecidableEq α] in
theorem Cells.erase_wf {c : Cells α} (h : Cells.wf d c) (lo n : Nat) : Cells.wf d (c.erase lo n) :=
  Cells.filter_wf _ h

/-- A run reads as its values. -/
theorem Cells.read_run (vs : List α) : ∀ lo a : Nat,
    (Cells.run d lo vs).read d a = if lo ≤ a then (vs[a - lo]?).getD d else d := by
  induction vs with
  | nil => simp [Cells.run, Cells.read]
  | cons v vs ih =>
    intro lo a
    simp only [Cells.run]
    split
    · rw [ih]
      by_cases h1 : lo + 1 ≤ a
      · rw [if_pos h1, if_pos (by omega), show a - lo = a - (lo + 1) + 1 by omega]; simp
      · by_cases h2 : lo = a
        · subst h2; simp; exact Eq.symm (by assumption)
        · simp [h1, show ¬lo ≤ a by omega]
    · by_cases h2 : lo = a
      · subst h2; simp [Cells.read]
      · have h3 : Cells.read d ((lo, v) :: Cells.run d (lo + 1) vs) a = Cells.read d (Cells.run d (lo + 1) vs) a := by
          simp only [Cells.read]; rw [List.find?_cons_of_neg (by simpa using h2)]
        rw [h3, ih]
        by_cases h1 : lo + 1 ≤ a
        · rw [if_pos h1, if_pos (by omega), show a - lo = a - (lo + 1) + 1 by omega]; simp
        · simp [h1, show ¬lo ≤ a by omega]

/-- Reading after a write of a run: the value written within it, the earlier one outside. -/
theorem Cells.read_splice (c : Cells α) (lo : Nat) (vs : List α) (a : Nat) :
    (c.splice d lo vs).read d a =
      if lo ≤ a ∧ a < lo + vs.length then (vs[a - lo]?).getD d else c.read d a := by
  have hf (q : Nat → Bool) : (c.filter (fun p => q p.1)).find? (fun p => p.1 == a) =
      if q a then c.find? (fun p => p.1 == a) else none := by
    rw [List.find?_filter]
    split
    · next hq =>
      congr 1; funext p; by_cases hp : p.1 = a <;> simp [hp, hq]
    · next hq =>
      rw [List.find?_eq_none]; intro p _; by_cases hp : p.1 = a <;> simp [hp, hq]
  have hn (h : ¬(lo ≤ a ∧ a < lo + vs.length)) : (Cells.run d lo vs).find? (fun p => p.1 == a) = none := by
    rw [List.find?_eq_none]; intro p hp; have := Cells.mem_run hp; simp; omega
  have h1 := hf (fun x => decide (x < lo))
  have h2 := hf (fun x => decide (lo + vs.length ≤ x))
  by_cases h : lo ≤ a ∧ a < lo + vs.length
  · have := Cells.read_run (d := d) vs lo a
    rw [if_pos h.1] at this
    rw [if_pos h, ← this]
    simp only [Cells.read, Cells.splice, List.find?_append, h1, h2, show ¬a < lo by omega, show ¬lo + vs.length ≤ a by omega, decide_false, Bool.false_eq_true,
      if_false, Option.none_or, Option.or_none]
  · simp only [Cells.read, Cells.splice, List.find?_append, h1, h2]
    rw [hn h, if_neg h]
    by_cases h3 : a < lo
    · simp [h3, show ¬lo + vs.length ≤ a by omega]
    · simp [h3, show lo + vs.length ≤ a by omega]

theorem Cells.read_write_self (c : Cells α) (a : Nat) (v : α) : (c.write d a v).read d a = v := by
  simp [Cells.write, Cells.read_splice]

theorem Cells.read_write_ne (c : Cells α) (a b : Nat) (v : α) (h : b ≠ a) : (c.write d a v).read d b = c.read d b := by
  rw [Cells.write, Cells.read_splice, if_neg]
  simp only [List.length_cons, List.length_nil]; omega

/-! ### The device's memory -/

/-- The loss of power leaves the bytes of PCIe space. -/
theorem State.powerLoss_memWf {s : State} (h : s.memWf) : s.powerLoss.memWf := Cells.filter_wf _ h

theorem State.reset_memWf : State.reset.memWf := ⟨List.Pairwise.nil, fun _ h => nomatch h⟩

/-- What a committed write does to memory: nothing when a window serves the address, else it writes its bytes. -/
theorem State.commit_mem (s : State) (pa : Nat) (bs : List Byte) :
    (s.commit pa bs).mem = if s.windowAt pa = none then Cells.splice 0 s.mem pa bs else s.mem := by
  have hw : State.windowAt { s with
      seqNo := s.seqNo + 1, ctxs := s.ctxs.map (fun (c : Ctx) => c.markBehind pa bs.length) } pa = s.windowAt pa := rfl
  simp only [State.commit, hw]
  cases s.windowAt pa with
  | none => simp
  | some w => simp

/-- Every write to memory goes through a committed write, which keeps the canonical form. -/
theorem State.commit_memWf {s : State} (h : s.memWf) (pa : Nat) (bs : List Byte) : (s.commit pa bs).memWf := by
  simp only [State.memWf, Memory.wf, State.commit_mem]
  split
  · exact Cells.splice_wf h pa bs
  · exact h

/-- A list of committed writes keeps the canonical form. -/
theorem State.foldl_memWf {β : Type} (f : State → β → State) (hf : ∀ s b, s.memWf → (f s b).memWf) :
    ∀ (l : List β) (s : State), s.memWf → (l.foldl f s).memWf
  | [], _, h => h
  | b :: l, s, h => State.foldl_memWf f hf l (f s b) (hf s b h)

theorem State.spliceAt_memWf {s : State} (h : s.memWf) (dev : Option Nat) (pa : Nat) (bs : List Byte) :
    (s.spliceAt dev pa bs).memWf := by
  cases dev with
  | some d => exact h
  | none => exact Cells.splice_wf h pa bs

theorem State.reviveLines_memWf {s : State} (h : s.memWf) (x : BitVec 6) (va n : Nat) (dev : Option Nat) (pa : Nat) :
    (s.reviveLines x va n dev pa).memWf := by
  simp only [State.reviveLines]
  split
  · exact h
  · exact State.foldl_memWf (fun t ln => t.spliceAt dev (pa + 128 * ln - va)
        ((List.range 128).map (fun i => (s.lifetimeByte x (128 * ln + i)).getD 0)))
      (fun _ _ ht => State.spliceAt_memWf ht dev _ _) _ s h

theorem State.retag_memWf {s : State} (h : s.memWf) (enc pa n : Nat) : (s.retag enc pa n).memWf := by
  simp only [State.retag]
  split
  · split
    · exact h
    · exact State.foldl_memWf (fun t (u : Nat × Nat × Nat) => t.spliceAt none (128 * u.1)
        ((List.range 128).map (fun i => s.cipherByte u.1 u.2.1 u.2.2 i))) (fun _ _ ht => State.spliceAt_memWf ht none _ _) _ s h
  · exact h

theorem State.fireflyStore_mem (s : State) (who : Who) (l : Leaf) (va : Nat) (bs : List Byte) :
    (s.fireflyStore who l va bs).mem = s.mem := by
  simp only [State.fireflyStore]
  split
  · rfl
  · split <;> rfl

/-- A list of changes that leave memory alone leaves it alone. -/
theorem State.foldl_mem {β : Type} (f : State → β → State) (hf : ∀ s b, (f s b).mem = s.mem) :
    ∀ (l : List β) (s : State), (l.foldl f s).mem = s.mem
  | [], _ => rfl
  | b :: l, s => (State.foldl_mem f hf l (f s b)).trans (hf s b)

theorem State.drainFor_mem (s : State) (x : BitVec 6) (va n : Nat) : (s.drainFor x va n).mem = s.mem :=
  State.foldl_mem (fun r e => r.drainEntry e) (fun _ _ => rfl) _ s

theorem State.dropAhead_mem (s : State) : s.dropAhead.mem = s.mem := by
  simp only [State.dropAhead]; split <;> rfl

theorem State.dropSeen_mem (s : State) (a : Agent) : (s.dropSeen a).mem = s.mem := by
  simp only [State.dropSeen]
  split
  · exact s.dropAhead_mem
  · rfl

/-- One write at its home keeps the canonical form. -/
theorem State.performLeaf_memWf {s : State} (h : s.memWf) (who : Who) (l : Leaf) (va : Nat) (bs : List Byte) :
    (s.performLeaf who l va bs).memWf := by
  have hd : (s.dropSeen who.agent).memWf := by simpa [State.memWf, State.dropSeen_mem] using h
  have hf {u : State} (hu : u.memWf) : (u.drainFor who.ctx va bs.length).memWf := by
    simpa [State.memWf, State.drainFor_mem] using hu
  simp only [State.performLeaf]
  cases l.dev with
  | some d => exact State.reviveLines_memWf (hf h) who.ctx va bs.length (some d) l.pa
  | none =>
    simp only
    split
    · exact State.commit_memWf hd _ _
    · split
      · exact hf hd
      · have := State.commit_memWf (State.retag_memWf (State.reviveLines_memWf (hf hd) who.ctx va bs.length none l.pa) l.enc
          l.pa bs.length) l.pa bs
        simpa [State.memWf, State.freeWrittenTlt, State.fireflyStore_mem, State.repair] using this

theorem State.post_mem (s : State) (who : Who) (l : Leaf) (va : Nat) (k : PostKind) : (s.post who l va k).mem = s.mem := by
  simp only [State.post]; split <;> rfl

/-- One checked write keeps the canonical form. -/
theorem State.writeLeaf_memWf {s : State} (h : s.memWf) (who : Who) (l : Leaf) (va : Nat) (bs : List Byte) :
    (s.writeLeaf who l va bs).memWf := by
  simp only [State.writeLeaf]
  split
  · exact h
  · split
    · exact h
    · split
      · simpa [State.memWf, State.post_mem] using h
      · exact State.performLeaf_memWf h who l va bs

/-- The pieces of a checked access. -/
theorem State.writeAll_memWf (who : Who) : ∀ (ls : List (Nat × Nat × Leaf)) (s : State) (bs : List Byte), s.memWf →
    (s.writeAll who ls bs).memWf
  | [], _, _, h => h
  | (va, n, l) :: ls, _, bs, h => State.writeAll_memWf who ls _ (bs.drop n) (State.writeLeaf_memWf h who l va (bs.take n))

theorem State.fillUtlb_mem (s : State) (w : Who) (e : TlbEnt) : (s.fillUtlb w e).mem = s.mem := by
  simp only [State.fillUtlb]; split <;> rfl

theorem State.fillTlb_mem (s : State) (w : Who) (va : Nat) : (s.fillTlb w va).mem = s.mem := by
  simp only [State.fillTlb]
  split
  · exact s.fillUtlb_mem _ _
  · split <;> exact s.fillUtlb_mem _ _
  · rfl

theorem State.fillAll_mem (who : Who) (ps : List (Nat × Nat)) (s : State) : (s.fillAll who ps).mem = s.mem :=
  State.foldl_mem (fun t (p : Nat × Nat) => t.fillTlb who p.1) (fun t p => t.fillTlb_mem who p.1) ps s

/-- A checked write that takes place keeps the canonical form. -/
theorem State.store_memWf {s t : State} (h : s.memWf) {who : Who} {va : Nat} {bs : List Byte}
    (e : s.store who va bs = .ok t) : t.memWf := by
  simp only [State.store] at e
  split at e
  · cases e
  · split at e
    · cases e
    · cases e
      apply State.writeAll_memWf
      simpa [State.memWf, State.fillAll_mem] using h

/-- A version made committed keeps the canonical form. -/
theorem State.settleVer_memWf {s : State} (h : s.memWf) (x : BitVec 6) (v : Ver) : (s.settleVer x v).memWf := by
  have h1 := State.retag_memWf (State.reviveLines_memWf h x v.va 1 none v.pa) v.enc v.pa 1
  simp only [State.settleVer]
  split
  · exact h
  · split
    · exact h1
    · exact Cells.splice_wf h1 v.pa [v.val]

end Sys2Proof.Machine
end

