-- ==== Sys2Proof/Laws/Ops.lean ====
section
/-!
SUPPORT. For each shared operation of the sequencers one lemma that says what it can do: register reads after writes, words
of CTL, words of engines with their tokens, accesses of CTL, taking a trap.
-/

namespace Sys2Proof.Machine

/-! ### Registers -/

/-- Reading a general register after writing one; s0 reads zero (R126). -/
theorem Ctl.reg_setReg (k : Ctl) (d r : BitVec 5) (v : DWord) :
    (k.setReg d v).reg r = if r = d ∧ r ≠ 0 then v else k.reg r := by
  by_cases hr : r = 0
  · subst hr; rw [if_neg (fun h => h.2 rfl)]; rfl
  · by_cases hd : d = 0
    · subst hd; rw [if_neg (fun h => hr h.1)]; rfl
    · simp only [Ctl.reg, Ctl.setReg, if_neg hr, if_neg hd]
      by_cases h : r = d
      · subst h; rw [if_pos ⟨rfl, hr⟩]; simp
      · have : d.toNat ≠ r.toNat := fun e => h (BitVec.eq_of_toNat_eq e.symm)
        rw [if_neg (fun e => h e.1)]; simp [this]

/-- A general register after a change of the running CTL. -/
theorem State.sreg_onCtl (s : State) (f : Ctl → Ctl) (r : BitVec 5) : (s.onCtl f).sreg r = (f (s.here).ctl).reg r := by
  simp [State.sreg, State.onCtl, State.here, Core.onCtl]

/-! ### Words of CTL -/

/-- A word that writes s[d] and can fail in no way: the outcome, and what each register then reads. -/
theorem ctlWrite_next (s : State) (d : BitVec 5) (v : DWord) : ctlWrite s d v = .next (s.setSreg d v).retire := rfl

theorem State.sreg_setSreg_retire (s : State) (d r : BitVec 5) (v : DWord) :
    ((s.setSreg d v).retire).sreg r = if r = d ∧ r ≠ 0 then v else s.sreg r := by
  rw [State.setSreg_retire, State.sreg_onCtl, Ctl.reg_advance, Ctl.reg_setReg]; rfl

/-- A register write with the retirement of its word changes no byte of memory. -/
theorem State.phys_onCtl (s : State) (f : Ctl → Ctl) (pa : Nat) : (s.onCtl f).phys pa = s.phys pa := by
  have hw : (s.onCtl f).windowAt pa = s.windowAt pa := rfl
  simp only [State.phys, hw]
  cases s.windowAt pa with
  | none => rfl
  | some w =>
    obtain ⟨w, off⟩ := w
    by_cases hc : w.core = s.actCore
    · have : ((s.onCtl f).core w.core) = (s.core w.core).onCtl f := by rw [hc]; exact s.core_onCore_self _ _
      simp only [this]; cases w.buf <;> rfl
    · have : ((s.onCtl f).core w.core) = s.core w.core := s.core_onCore_ne _ _ _ hc
      simp only [this]

/-- The frame of a word whose one destination is s[d]. -/
theorem ctlWrite_frame (s : State) (d : BitVec 5) (v : DWord) : CtlFrame s (s.setSreg d v).retire d := by
  rw [State.setSreg_retire]
  refine ⟨⟨((s.here).ctl.setReg d v).advance.s, ((s.here).ctl.setReg d v).advance.pc,
    ((s.here).ctl.setReg d v).advance.loops, ?_⟩, fun r hr => ?_, fun pa => s.phys_onCtl _ pa⟩
  · unfold State.onCtl State.onCore
    congr 1
    simp only [Core.onCtl, Ctl.advance, Ctl.setReg, State.here]
    split <;> rfl
  · rw [State.sreg_onCtl, Ctl.reg_advance, Ctl.reg_setReg, if_neg (fun h => hr h.1)]; rfl

/-- A precise trap of CTL is R160's operation with the word's own address and a source of zeros. -/
theorem State.ctlTrap_eq (s : State) (c : Cause) (v : DWord) :
    s.ctlTrap c v = s.takeTrap s.actCore c v { } (s.here).ctl.pc := rfl

/-- Taking a trap (R160): without a handler, or while one runs, the task ends TRAPPED; else CTL goes on at HANDLER. -/
theorem State.takeTrap_cases (s : State) (c : CoreId) (cause : Cause) (v : DWord) (src : TStat) (resume : Nat) :
    ((s.core c).ctl.tvecEn = false ∨ (s.core c).ctl.tstat.inh = true) ∧
      s.takeTrap c cause v src resume =
        s.endTask c (.trapped cause.code v ({ src with inh := (s.core c).ctl.tstat.inh }).pack) ∨
    (s.core c).ctl.tvecEn = true ∧ (s.core c).ctl.tstat.inh = false ∧
      s.takeTrap c cause v src resume = s.onCore c (fun r => r.onCtl (fun k =>
        { k with
          tcause := cause.code, tval := v, tstat := { src with inh := true }, tpc := BitVec.ofNat 14 resume,
          savedLoops := k.loops, loops := [], pc := k.tvecPc.toNat, wait := .none })) := by
  simp only [State.takeTrap]
  cases h1 : (s.core c).ctl.tvecEn <;> cases h2 : (s.core c).ctl.tstat.inh <;> simp

/-- A task that is not there does not end. -/
theorem State.endTask_none (s : State) (c : CoreId) (how : TaskEnd) (h : (s.core c).task = none) : s.endTask c how = s := by
  simp [State.endTask, h]

/-- An ended task leaves its core without one. -/
theorem State.endTask_task (s : State) (c : CoreId) (how : TaskEnd) : ((s.endTask c how).core c).task = none := by
  simp only [State.endTask]
  cases h : (s.core c).task with
  | none => simpa using h
  | some t => simp [Core.vacate]

/-! ### Accesses of CTL -/

/-- An access that is not performed elsewhere is performed as it issues (R261). -/
theorem State.issueCtl_here (s : State) (who : Who) (l : Leaf) (va : Nat) (op : MemOp) (h : s.postsTo who l = false) :
    s.issueCtl who l va op = s.performCtl who l va op := by
  cases op <;> simp [State.issueCtl, h]

/-- Whether a CTL access goes to a Termite (R58). -/
theorem toTermite_eq (l : Leaf) (hm : l.mside = false ∨ l.dev.isSome = true ∨ hbmEnd ≤ l.pa) :
    ((l.mside || false) && l.dev.isNone && decide (l.pa < hbmEnd)) = false := by
  rcases hm with h | h | h
  · simp [h]
  · cases hd : l.dev <;> simp [hd] at h ⊢
  · simp [Nat.not_lt.2 h]

/-- An access to a page that is not memory-side issues; any other joins its Termite's queue (R58). -/
theorem State.sendCtl_issue (s : State) (who : Who) (l : Leaf) (ea : DWord) (op : MemOp)
    (hm : l.mside = false ∨ l.dev.isSome = true ∨ hbmEnd ≤ l.pa) : s.sendCtl who l ea false op = s.issueCtl who l ea.toNat op := by
  simp only [State.sendCtl, toTermite_eq l hm]; rfl

theorem State.sendCtl_termite (s : State) (who : Who) (l : Leaf) (ea : DWord) (ms : Bool) (op : MemOp)
    (hm : (l.mside || ms) = true) (hd : l.dev = none) (hp : l.pa < hbmEnd) :
    s.sendCtl who l ea ms op = s.sendTermite who l ea op := by
  simp [State.sendCtl, hm, hd, hp]

/-- An access that issues joins those under way, and its sequencer notes it (R261). -/
theorem State.post_posted (s : State) (who : Who) (l : Leaf) (va : Nat) (k : PostKind) :
    (s.post who l va k).posted = s.posted ++ [{ num := s.postNum, who := { who with hyp := 0 }, leaf := l, va := va, kind := k }] ∧
      (s.post who l va k).postNum = s.postNum + 1 := by
  simp only [State.post]; split <;> exact ⟨rfl, rfl⟩

/-- A load or store whose address is aligned and whose checks pass, to a page that is not memory-side, issues (R145,
R146). -/
theorem loadStore_go (a : BitVec 5) (imm : BitVec 16) (op : MemOp) (s : State) (l : Leaf)
    (ha : (effAddr (s.sreg a) imm).toNat % op.size = 0)
    (hl : s.access s.ctlWho op.kind (effAddr (s.sreg a) imm).toNat op.size = .ok l)
    (hm : l.mside = false ∨ l.dev.isSome = true ∨ hbmEnd ≤ l.pa) :
    loadStore a imm op s = .next (s.issueCtl s.ctlWho l (effAddr (s.sreg a) imm).toNat op) := by
  simp [loadStore, ctlAccess, ha, hl, State.sendCtl_issue _ _ _ _ _ hm]

/-- A misaligned load or store traps with its address. -/
theorem loadStore_misaligned (a : BitVec 5) (imm : BitVec 16) (op : MemOp) (s : State)
    (ha : (effAddr (s.sreg a) imm).toNat % op.size ≠ 0) :
    loadStore a imm op s = .next (s.ctlTrap .misaligned (effAddr (s.sreg a) imm)) := by
  simp [loadStore, ha]

/-! ### Words of engines -/

/-- What an engine word can do (R26): wait for tokens or be abandoned; stop, be served or wait by what its checks find;
meet a poisoned token; or take its tokens and have its effect. -/
theorem engWord_cases (s : State) (t : Tok) (check : State → Issue) (effect : State → State) :
    (s.here).tokensPresent (popFifos s.actEng t) = false ∧
      (((s.here).eng s.actEng).marked = true ∧ engWord s t check effect = .next (s.onHere (fun k => k.abandon s.actEng)) ∨
       ((s.here).eng s.actEng).marked = false ∧
         engWord s t check effect = .next (s.onHere (fun k => k.setWait s.actEng.seqr .tokens))) ∨
    (s.here).tokensPresent (popFifos s.actEng t) = true ∧
      ((∃ c v, check s = .fault c v ∧ engWord s t check effect = .next (s.engFault c v)) ∨
       (∃ va ats, check s = .shadow va ats ∧ engWord s t check effect =
          .next (if s.shlim = 0 then s.engFault .pageNotPresent va
            else s.awaitShadow s.actEng.seqr (.word s.actEng) va ats)) ∨
       (∃ w va, check s = .tag w va ∧ engWord s t check effect = .next ((s.tagError w).engFault .eccUncorr va)) ∨
       (∃ w, check s = .hold w ∧ engWord s t check effect = .next (s.onHere (fun k => k.setWait s.actEng.seqr w))) ∨
       (check s = .go ∧ ∃ f, (s.here).poisoned (popFifos s.actEng t) = some f ∧
          engWord s t check effect = .next ((s.taken t).engFault .depPoison (BitVec.ofNat 64 f.code))) ∨
       (check s = .go ∧ s.takes t ∧ engWord s t check effect = .next (effect (s.taken t)))) := by
  simp only [engWord, State.takes, State.taken]
  cases hp : (s.here).tokensPresent (popFifos s.actEng t)
  · cases hm : ((s.here).eng s.actEng).marked <;> simp
  · cases hc : check s with
    | go =>
      cases hx : (s.here).poisoned (popFifos s.actEng t) <;> simp
    | fault c v => simp
    | shadow va ats =>
      refine .inr ⟨rfl, .inr (.inl ⟨va, ats, rfl, ?_⟩)⟩
      by_cases h : s.shlim = 0 <;> simp only [h, if_true, if_false] <;> rfl
    | tag w va => simp
    | hold w => simp

/-- A word with its tokens there and its checks passed has its effect. -/
theorem engWord_go (s : State) (t : Tok) (check : State → Issue) (effect : State → State) (h : s.takes t)
    (hc : check s = .go) : engWord s t check effect = .next (effect (s.taken t)) := by
  simp only [engWord, h.1, h.2, hc, State.taken]; rfl

/-- The same for a word that then retires. -/
theorem engSimple_go (s : State) (t : Tok) (check : State → Issue) (effect : State → State) (h : s.takes t)
    (hc : check s = .go) : engSimple s t check effect = .next (s.past (effect (s.taken t)) t) :=
  engWord_go s t check _ h hc

/-- A word without checks. -/
theorem engSimple_noCheck (s : State) (t : Tok) (effect : State → State) (h : s.takes t) :
    engSimple s t noCheck effect = .next (s.past (effect (s.taken t)) t) := engSimple_go s t noCheck effect h rfl

/-- A word that names no FIFO takes its tokens always. -/
theorem State.takes_none (s : State) (t : Tok) (h : popFifos s.actEng t = []) : s.takes t := by
  simp [State.takes, h, Core.tokensPresent, Core.poisoned]

end Sys2Proof.Machine
end

