-- ==== Sys2Proof/Machine/PhasSyntax.lean ====
section
/-!
DEFINITION. The parts of phas source (09_assembly_rules.md, R104 to R114): lexemes, expressions, operands, statements,
and the causes an assembly can end with (R115).
-/

namespace Sys2Proof.Phas

/-- An identifier, as its characters (R105). -/
abbrev Name := List Char

/-- Why an assembly ends without a container (R115). -/
inductive Cause where
  /-- R104: a line of more than 1,024 characters. -/
  | longLine
  /-- R104: a control character. -/
  | controlCharacter
  /-- R104: a byte above 0x7E outside a comment. -/
  | notAscii
  /-- A character that begins no lexeme of R105, R106 or R110. -/
  | strayCharacter (c : Char)
  /-- R105: an identifier of more than 63 characters. -/
  | longIdentifier
  /-- R106: a numeric literal of no form. -/
  | badNumber
  /-- R106: a literal above 2^64 − 1. -/
  | largeNumber
  /-- R106: a string without its closing quote. -/
  | openString
  /-- R110: a line outside the grammar. -/
  | grammar
  /-- R105: a register name as a symbol, or as an operand outside its section. -/
  | register (n : Name)
  /-- R107: a division or remainder by zero. -/
  | zeroDivisor
  /-- R107: an undefined symbol. -/
  | undefined (n : Name)
  /-- R107: a definition that depends on itself. -/
  | circular
  /-- R108, R113: a symbol defined twice. -/
  | redefined (n : Name)
  /-- R108: a value outside the range of its field, or outside the range that a directive gives. -/
  | range
  /-- R108: a branch, jump or entry operand that is no `.ctl` label. -/
  | notCtlLabel
  /-- R108: a label where no location counter runs. -/
  | noCounter
  /-- R109: an unknown directive. -/
  | unknownDirective
  /-- R109: a directive, instruction or section where none is allowed. -/
  | misplaced
  /-- R109: a second `.entry`. -/
  | secondEntry
  /-- R109: an alignment that is no power of two from 1 to 65,536. -/
  | alignment
  /-- R110: an unknown mnemonic. -/
  | unknownMnemonic
  /-- R110: the wrong number of operands. -/
  | operandCount
  /-- R110: an operand of the wrong kind. -/
  | operandKind
  /-- R111: a suffix repeated, unknown to its instruction, or missing where one is required. -/
  | suffix
  /-- R111, R132: a predicate that may not stand. -/
  | predicate
  /-- R124, R126: an instruction whose word would not decode. -/
  | noWord
  /-- R112: a fragment index used twice in one engine section. -/
  | fragmentIndex
  /-- R112: a body whose last instruction is not its one `end`. -/
  | fragmentBody
  /-- R112, R113: a fragment or image not closed. -/
  | notClosed
  /-- R113, R119: an image name, length or number outside its limits, or a name used twice. -/
  | image
  /-- R114: an item declared twice. -/
  | declaredTwice
  /-- R117: code beyond the instruction memory. -/
  | codeSize
  deriving DecidableEq, Repr, Inhabited

/-- An error message: the file, the line from 1 on, and the cause (R115). -/
structure Diagnostic where
  file  : String
  line  : Nat
  cause : Cause
  deriving DecidableEq, Repr, Inhabited

/-- A lexeme of a line (R104 to R106): an identifier, a number, a string, `<<`, `>>`, or one character. -/
inductive Lexeme where
  | ident (n : Name)
  | number (v : Nat)
  | string (b : List Byte)
  | shl
  | shr
  | mark (c : Char)
  deriving DecidableEq, Repr, Inhabited

/-- The binary operators of R107. -/
inductive BinOp where
  | mul | div | rem | add | sub | shl | shr | and | xor | or
  deriving DecidableEq, Repr, Inhabited

/-- Operators and functions of one argument (R107). -/
inductive UnOp where
  | neg | not | lo16 | hi16
  deriving DecidableEq, Repr, Inhabited

/-- An expression (R107, R110). -/
inductive Expr where
  | num (v : BitVec 64)
  | sym (n : Name)
  | un (o : UnOp) (e : Expr)
  | bin (o : BinOp) (a b : Expr)
  deriving DecidableEq, Repr, Inhabited

/-- An operand of an instruction (R110): a lone identifier, which its position makes a register, a keyword or a symbol;
another expression; a string; or `offset(register)`. -/
inductive Operand where
  | name (n : Name)
  | expr (e : Expr)
  | string (b : List Byte)
  | offset (e : Expr) (r : Name)
  deriving DecidableEq, Repr, Inhabited

/-- The sections that a source can make current (R109). -/
inductive Sect where
  | ctl | load | comp | store | gen | data | sync
  deriving DecidableEq, Repr, Inhabited

/-- TYPE of the container's section (R117). -/
def Sect.type : Sect → Nat
  | .ctl => 1 | .load => 2 | .comp => 3 | .store => 4 | .gen => 5 | .sync => 7 | .data => 8

/-- The engine sections, whose instructions stand in fragments (R112). -/
def Sect.isEngine : Sect → Bool
  | .load => true
  | .comp => true
  | .store => true
  | .ctl => false
  | .gen => false
  | .data => false
  | .sync => false

/-- An instruction as it is written (R110), its mnemonic and suffixes in lower case. -/
structure Written where
  pred     : Option Pred
  mnemonic : String
  suffixes : List String
  operands : List Operand
  deriving DecidableEq, Repr, Inhabited

/-- What a `.declare` names (R114): a FIFO, semaphore or queue, by KIND and ID of R120. -/
inductive Item where
  | fifo (id : Nat)
  | sem (i : Expr)
  | queue (id : Nat)
  deriving DecidableEq, Repr, Inhabited

/-- A statement (R109, R110). -/
inductive Stmt where
  | enter (s : Sect)
  | entry (label : Name)
  | frag (n : Name) (index : Expr)
  | generator (n : Name) (bound params : Expr)
  | fin
  | slot (n : Name) (v : Expr)
  | declare (i : Item) (n : Expr)
  | equ (n : Name) (v : Expr)
  | values (width : Nat) (vs : List Expr)
  | ascii (b : List Byte)
  | space (n : Expr)
  | align (n : Expr)
  | instr (w : Written)
  deriving DecidableEq, Repr, Inhabited

/-- A line of source by its number (R110). -/
structure Line where
  num   : Nat
  label : Option Name
  stmt  : Option Stmt
  deriving DecidableEq, Repr, Inhabited

/-- An ASCII letter in lower case. -/
def lower (c : Char) : Char := if 65 ≤ c.toNat ∧ c.toNat ≤ 90 then Char.ofNat (c.toNat + 32) else c

/-- A name in lower case, for the names that R105 and R110 read in any case. -/
def lowered (n : Name) : String := String.ofList (n.map lower)

/-- The register files of R105. -/
inductive RegFile where
  | s | a | bx | v | p | k | st | g
  deriving DecidableEq, Repr, Inhabited

/-- The letters that begin a file's register names, and how many registers it has (R105). -/
def RegFile.names : List (RegFile × List Char × Nat) :=
  [(.s, ['s'], 32), (.a, ['a'], 16), (.bx, ['b', 'x'], 8), (.v, ['v'], 32), (.p, ['p'], 8), (.k, ['k'], 16),
   (.st, ['s', 't'], 16), (.g, ['g'], 16)]

/-- The section where registers of a file are operands (R105). -/
def RegFile.inSect : RegFile → Sect → Bool
  | .s, x => x == .ctl
  | .a, x => x == .load || x == .store
  | .bx, x => x == .load || x == .store
  | .v, x => x == .comp
  | .p, x => x == .comp
  | .k, x => x == .comp
  | .st, x => x == .comp
  | .g, x => x == .gen

/-- A decimal digit's value. -/
def digit? (c : Char) : Option Nat := if 48 ≤ c.toNat ∧ c.toNat ≤ 57 then some (c.toNat - 48) else none

/-- A register number as it is written: no digit more than needed. -/
def regNumber : List Char → Option Nat
  | [c] => digit? c
  | [c, d] => do
    let x ← digit? c
    let y ← digit? d
    if x = 0 then none else return 10 * x + y
  | _ => none

/-- The register that a name names, in any section (R105). -/
def regOf (n : Name) : Option (RegFile × Nat) :=
  let l := n.map lower
  RegFile.names.findSome? (fun f =>
    if f.2.1.isPrefixOf l then
      match regNumber (l.drop f.2.1.length) with
      | some i => if i < f.2.2 then some (f.1, i) else none
      | none => none
    else none)

end Sys2Proof.Phas
end

