-- ==== Sys2Proof/Machine/PhasLex.lean ====
section
/-!
DEFINITION. Lines and lexemes of phas source (R104 to R106).
-/

namespace Sys2Proof.Phas

/-- A line end's optional CR taken off the characters read so far, the last of them first. -/
def dropCr : List Nat → List Nat
  | 13 :: r => r
  | r => r

/-- The lines of a source: divided by LF with an optional CR before it; characters after the last LF are a line too
(R104). `acc` holds the characters of the current line, the last of them first. -/
def splitLines : List Nat → List Nat → List (List Nat)
  | [], [] => []
  | [], acc => [acc.reverse]
  | b :: r, acc => if b = 10 then (dropCr acc).reverse :: splitLines r [] else splitLines r (b :: acc)

/-- A control character other than a tab (R104). -/
def isControl (b : Nat) : Bool := (decide (b < 32) && b != 9) || b == 127

def isLetter (c : Char) : Bool :=
  (decide (65 ≤ c.toNat) && decide (c.toNat ≤ 90)) || (decide (97 ≤ c.toNat) && decide (c.toNat ≤ 122)) || c == '_'

def isDigit (c : Char) : Bool := decide (48 ≤ c.toNat) && decide (c.toNat ≤ 57)

/-- A character that continues an identifier (R105). -/
def continues (c : Char) : Bool := isLetter c || isDigit c

/-- The value of a digit in a base up to 16. -/
def digitIn (base : Nat) (c : Char) : Option Nat :=
  let n := (lower c).toNat
  let v := if 48 ≤ n ∧ n ≤ 57 then some (n - 48) else if 97 ≤ n ∧ n ≤ 102 then some (n - 87) else none
  v.bind (fun x => if x < base then some x else none)

/-- Digits of a numeric literal, where `_` may stand between any two (R106). `last` says whether a digit came just
before. -/
def digitsFrom (base : Nat) : Bool → Nat → List Char → Option Nat
  | last, v, [] => if last then some v else none
  | last, v, c :: r =>
    if c = '_' then
      if last then digitsFrom base false v r else none
    else
      match digitIn base c with
      | some d => digitsFrom base true (v * base + d) r
      | none => none

/-- The value of a numeric literal (R106). -/
def numberOf (cs : List Char) : Except Cause Nat :=
  let v := match cs with
    | '0' :: 'x' :: r => digitsFrom 16 false 0 r
    | '0' :: 'b' :: r => digitsFrom 2 false 0 r
    | _ => digitsFrom 10 false 0 cs
  match v with
  | none => .error .badNumber
  | some n => if n < 2 ^ 64 then .ok n else .error .largeNumber

/-- The quote that opens and closes a string (R106). -/
def quote : Char := Char.ofNat 34

/-- The character that gives a quote or itself inside a string (R106). -/
def backslash : Char := Char.ofNat 92

/-- The bytes of a string up to its closing quote, and what follows the quote (R106). A backslash before any other
character stands for itself. -/
def stringOf : List Char → Except Cause (List Byte × List Char)
  | [] => .error .openString
  | [c] => if c = quote then .ok ([], []) else .error .openString
  | c :: d :: r =>
    if c = quote then .ok ([], d :: r)
    else if 126 < c.toNat then .error .notAscii
    else if c = backslash && (d = quote || d = backslash) then
      (stringOf r).map (fun x => (BitVec.ofNat 8 d.toNat :: x.1, x.2))
    else (stringOf (d :: r)).map (fun x => (BitVec.ofNat 8 c.toNat :: x.1, x.2))

/-- The marks that stand alone as lexemes (R106, R107, R110). -/
def marks : List Char := ['(', ')', ',', ':', '.', '!', '+', '-', '*', '/', '%', '&', '^', '|', '~']

/-- The first lexeme of a text that begins with no blank, tab or semicolon, and what follows it. -/
def lexeme (c : Char) (r : List Char) : Except Cause (Lexeme × List Char) :=
  if c = quote then (stringOf r).map (fun x => (.string x.1, x.2))
  else if 126 < c.toNat then .error .notAscii
  else if isDigit c then
    (numberOf (c :: r.takeWhile continues)).map (fun v => (.number v, r.dropWhile continues))
  else if isLetter c then
    if 62 < (r.takeWhile continues).length then .error .longIdentifier
    else .ok (.ident (c :: r.takeWhile continues), r.dropWhile continues)
  else if c = '<' && r.head? == some '<' then .ok (.shl, r.drop 1)
  else if c = '>' && r.head? == some '>' then .ok (.shr, r.drop 1)
  else if marks.contains c then .ok (.mark c, r)
  else .error (.strayCharacter c)

/-- The lexemes of a line, up to its comment (R104). Every round takes at least one character, so a fuel of the line's
length and one is enough. -/
def lexemes : Nat → List Char → Except Cause (List Lexeme)
  | 0, _ => .ok []
  | _ + 1, [] => .ok []
  | fuel + 1, c :: r =>
    if c = ' ' || c.toNat = 9 then lexemes fuel r
    else if c = ';' then .ok []
    else
      match lexeme c r with
      | .error e => .error e
      | .ok x => (lexemes fuel x.2).map (fun ls => x.1 :: ls)

/-- The lexemes of a line of bytes (R104). -/
def lexLine (bs : List Nat) : Except Cause (List Lexeme) :=
  if 1024 < bs.length then .error .longLine
  else if bs.any isControl then .error .controlCharacter
  else lexemes (bs.length + 1) (bs.map Char.ofNat)

end Sys2Proof.Phas
end

