-- ==== Sys2Proof/Machine/PhasParse.lean ====
section
/-!
DEFINITION. The grammar of phas (R107, R109, R110, R114): expressions, operands, directives, instructions and lines.
-/

namespace Sys2Proof.Phas

/-- The binary operator that a lexeme is, with its level of R107. -/
def binOpOf : Lexeme → Option (BinOp × Nat)
  | .mark '*' => some (.mul, 2)
  | .mark '/' => some (.div, 2)
  | .mark '%' => some (.rem, 2)
  | .mark '+' => some (.add, 3)
  | .mark '-' => some (.sub, 3)
  | .shl => some (.shl, 4)
  | .shr => some (.shr, 4)
  | .mark '&' => some (.and, 5)
  | .mark '^' => some (.xor, 6)
  | .mark '|' => some (.or, 7)
  | _ => none

/-- An expression read from the front of some lexemes, and the lexemes left. -/
abbrev Parsed := Except Cause (Expr × List Lexeme)

/-- A closing parenthesis after an expression. -/
def closed (e : Expr) : List Lexeme → Parsed
  | .mark ')' :: r => .ok (e, r)
  | _ => .error .grammar

/-- The function of R107 that a name is. -/
def functionOf (n : Name) : Option UnOp :=
  if n = ['l', 'o', '1', '6'] then some .lo16 else if n = ['h', 'i', '1', '6'] then some .hi16 else none

/-- An identifier in an expression: a symbol, unless it is a register name (R105). -/
def symbolOf (n : Name) : Except Cause Expr := if (regOf n).isSome then .error (.register n) else .ok (.sym n)

/-- What is read next: an expression of operators up to a level, or the operators of one level after a left side. -/
inductive Goal where
  | level (l : Nat)
  | after (l : Nat) (lhs : Expr)
  deriving Repr, Inhabited

/-- Expressions (R107, R110): level 1 is a term, and operators of one level associate to the left. The fuel bounds the
depth of the reading: a lexeme is taken at least once in eight rounds. -/
def parseExpr : Nat → Goal → List Lexeme → Parsed
  | 0, _, _ => .error .grammar
  | fuel + 1, .after l lhs, ls =>
    match ls with
    | [] => .ok (lhs, [])
    | x :: r =>
      match binOpOf x with
      | none => .ok (lhs, x :: r)
      | some (o, k) =>
        if k = l then do
          let rhs ← parseExpr fuel (.level (l - 1)) r
          parseExpr fuel (.after l (.bin o lhs rhs.1)) rhs.2
        else .ok (lhs, x :: r)
  | fuel + 1, .level l, ls =>
    if 2 ≤ l then do
      let lhs ← parseExpr fuel (.level (l - 1)) ls
      parseExpr fuel (.after l lhs.1) lhs.2
    else
      match ls with
      | .number v :: r => .ok (.num (BitVec.ofNat 64 v), r)
      | .mark '-' :: r => (parseExpr fuel (.level 1) r).map (fun x => (.un .neg x.1, x.2))
      | .mark '~' :: r => (parseExpr fuel (.level 1) r).map (fun x => (.un .not x.1, x.2))
      | .mark '(' :: r => do
        let x ← parseExpr fuel (.level 7) r
        closed x.1 x.2
      | .ident n :: .mark '(' :: r =>
        match functionOf n with
        | some f => do
          let x ← parseExpr fuel (.level 7) r
          closed (.un f x.1) x.2
        | none => (symbolOf n).map (fun e => (e, .mark '(' :: r))
      | .ident n :: r => (symbolOf n).map (fun e => (e, r))
      | _ => .error .grammar

/-- The expression at the front of some lexemes. -/
def exprAt (ls : List Lexeme) : Parsed := parseExpr (10 * ls.length + 10) (.level 7) ls

/-- The expression that some lexemes are. -/
def exprOf (ls : List Lexeme) : Except Cause Expr := do
  let x ← exprAt ls
  if x.2.isEmpty then return x.1 else throw .grammar

/-- An operand of an instruction (R110). -/
def operandOf : List Lexeme → Except Cause Operand
  | [.ident n] => .ok (.name n)
  | [.string b] => .ok (.string b)
  | ls => do
    let x ← exprAt ls
    match x.2 with
    | [] => return .expr x.1
    | [.mark '(', .ident r, .mark ')'] => return .offset x.1 r
    | _ => throw .grammar

/-- Operands: lexemes divided by commas (R110); `acc` holds those of the current one, the last of them first. -/
def splitCommas : List Lexeme → List Lexeme → List (List Lexeme)
  | [], acc => [acc.reverse]
  | .mark ',' :: r, acc => acc.reverse :: splitCommas r []
  | x :: r, acc => splitCommas r (x :: acc)

/-- The operand list of a statement; an empty one has no operand. -/
def operandsOf : List Lexeme → List (List Lexeme)
  | [] => []
  | ls => splitCommas ls []

/-- A name that becomes a symbol, or names an image: no register name (R105, R110). -/
def nameOf : List Lexeme → Except Cause Name
  | [.ident n] => if (regOf n).isSome then .error (.register n) else .ok n
  | _ => .error .operandKind

/-- A section by its directive's name (R109). -/
def sectOf : String → Option Sect
  | "ctl" => some .ctl
  | "load" => some .load
  | "comp" => some .comp
  | "store" => some .store
  | "gen" => some .gen
  | "data" => some .data
  | "sync" => some .sync
  | _ => none

/-- The ID of a FIFO of R120. -/
def fifoId (n : Name) : Option Nat := ["ltoc", "ctol", "ctos", "stoc"].idxOf? (lowered n)

/-- The number of an engine of R120 and R128: lds, cmp, sts. -/
def engineId (n : Name) : Option Nat := ["lds", "cmp", "sts"].idxOf? (lowered n)

/-- What a `.declare` names (R114). -/
def itemOf : List Lexeme → Except Cause Item
  | .ident n :: r =>
    match lowered n with
    | "fifo" =>
      match r with
      | [.ident f] => ((fifoId f).map Item.fifo).elim (.error .operandKind) .ok
      | _ => .error .operandKind
    | "queue" =>
      match r with
      | [.ident e] => ((engineId e).map Item.queue).elim (.error .operandKind) .ok
      | _ => .error .operandKind
    | "sem" => (exprOf r).map Item.sem
    | _ => .error .operandKind
  | _ => .error .operandKind

/-- Bytes of each value of a data directive (R109). -/
def dataWidth : String → Option Nat
  | "byte" => some 1
  | "half" => some 2
  | "word" => some 4
  | "dword" => some 8
  | _ => none

/-- A directive by its name in lower case and its operands (R109). -/
def directiveOf (d : String) (ops : List (List Lexeme)) : Except Cause Stmt :=
  match sectOf d, dataWidth d with
  | some s, _ => if ops.isEmpty then .ok (.enter s) else .error .operandCount
  | none, some w => if ops.isEmpty then .error .operandCount else (ops.mapM exprOf).map (Stmt.values w)
  | none, none =>
    match d, ops with
    | "entry", [l] => (nameOf l).map Stmt.entry
    | "frag", [n, i] => do return .frag (← nameOf n) (← exprOf i)
    | "generator", [n, b, p] => do return .generator (← nameOf n) (← exprOf b) (← exprOf p)
    | "fin", [] => .ok .fin
    | "slot", [n, v] => do return .slot (← nameOf n) (← exprOf v)
    | "declare", [i, n] => do return .declare (← itemOf i) (← exprOf n)
    | "equ", [n, v] => do return .equ (← nameOf n) (← exprOf v)
    | "ascii", [[.string b]] => .ok (.ascii b)
    | "ascii", [_] => .error .operandKind
    | "space", [n] => (exprOf n).map Stmt.space
    | "align", [n] => (exprOf n).map Stmt.align
    | _, _ =>
      if ["entry", "frag", "generator", "fin", "slot", "declare", "equ", "ascii", "space", "align"].contains d then
        .error .operandCount
      else .error .unknownDirective

/-- Suffixes after a mnemonic, in lower case, and the lexemes after them (R110). -/
def suffixesOf : List Lexeme → List String × List Lexeme
  | .mark '.' :: .ident n :: r => (lowered n :: (suffixesOf r).1, (suffixesOf r).2)
  | r => ([], r)

/-- A predicate's register: p0 to p3 (R110, R132). -/
def predOf (neg : Bool) (n : Name) : Except Cause Pred :=
  match regOf n with
  | some (.p, i) => if i < 4 then .ok { neg := neg, reg := BitVec.ofNat 2 i } else .error .predicate
  | _ => .error .predicate

/-- A mnemonic with its suffixes and operands (R110). -/
def writtenOf (p : Option Pred) : List Lexeme → Except Cause Stmt
  | .ident m :: r => do
    let ops ← (operandsOf (suffixesOf r).2).mapM operandOf
    return .instr { pred := p, mnemonic := lowered m, suffixes := (suffixesOf r).1, operands := ops }
  | _ => .error .grammar

/-- The statement that the lexemes after a label are, if any (R110). -/
def stmtOf : List Lexeme → Except Cause (Option Stmt)
  | [] => .ok none
  | .mark '.' :: .ident d :: r => (directiveOf (lowered d) (operandsOf r)).map some
  | .mark '(' :: .mark '!' :: .ident n :: .mark ')' :: r => do
    let p ← predOf true n
    (writtenOf (some p) r).map some
  | .mark '(' :: .ident n :: .mark ')' :: r => do
    let p ← predOf false n
    (writtenOf (some p) r).map some
  | r => (writtenOf none r).map some

/-- A line of source (R110). -/
def lineOf (num : Nat) (ls : List Lexeme) : Except Cause Line :=
  match ls with
  | .ident n :: .mark ':' :: r => do
    let l ← nameOf [.ident n]
    return { num := num, label := some l, stmt := ← stmtOf r }
  | r => do return { num := num, label := none, stmt := ← stmtOf r }

end Sys2Proof.Phas
end

