-- ==== Sys2Proof/Machine/PhasInstr.lean ====
section
/-!
DEFINITION. What each instruction of phas source becomes (R108, R110, R111 and the syntax lines of the instruction
chapters): its suffixes and operands as the fields of an instruction.
-/

namespace Sys2Proof.Phas

/-- The sum, product and so on of R107, mod 2^64. -/
def BinOp.eval : BinOp → BitVec 64 → BitVec 64 → Except Cause (BitVec 64)
  | .mul, a, b => .ok (a * b)
  | .div, a, b => if b = 0 then .error .zeroDivisor else .ok (BitVec.ofInt 64 (a.toInt.tdiv b.toInt))
  | .rem, a, b => if b = 0 then .error .zeroDivisor else .ok (BitVec.ofInt 64 (a.toInt.tmod b.toInt))
  | .add, a, b => .ok (a + b)
  | .sub, a, b => .ok (a - b)
  | .shl, a, b => .ok (if b.toNat < 64 then a <<< b.toNat else 0)
  | .shr, a, b => .ok (if b.toNat < 64 then a >>> b.toNat else 0)
  | .and, a, b => .ok (a &&& b)
  | .xor, a, b => .ok (a ^^^ b)
  | .or, a, b => .ok (a ||| b)

/-- The operators and functions of one argument (R107). -/
def UnOp.eval : UnOp → BitVec 64 → BitVec 64
  | .neg, x => -x
  | .not, x => ~~~x
  | .lo16, x => (x.extractLsb' 0 16).signExtend 64
  | .hi16, x => ((x + 0x8000).extractLsb' 16 16).zeroExtend 64

/-- The value of an expression, given its symbols' (R107). -/
def Expr.eval (look : Name → Except Cause (BitVec 64)) : Expr → Except Cause (BitVec 64)
  | .num v => .ok v
  | .sym n => look n
  | .un o e => (e.eval look).map o.eval
  | .bin o a b => do
    let x ← a.eval look
    let y ← b.eval look
    o.eval x y

/-- What an instruction's operands are read with: the section, the values of symbols, the word indices of `.ctl`
labels, and the index of the word itself (R108). -/
structure Ctx where
  sect  : Sect
  value : Name → Except Cause (BitVec 64)
  label : Name → Option Nat
  here  : Nat

/-- A register operand of a file; its section must have that file (R105, R110). -/
def regIn (f : RegFile) (c : Ctx) : Operand → Except Cause Nat
  | .name n =>
    match regOf n with
    | some (h, i) => if h = f && f.inSect c.sect then .ok i else .error (.register n)
    | none => .error .operandKind
  | _ => .error .operandKind

/-- A register field of a width. -/
def reg (f : RegFile) (w : Nat) (c : Ctx) (o : Operand) : Except Cause (BitVec w) :=
  (regIn f c o).map (BitVec.ofNat w)

/-- The value of an operand that is an expression (R110). -/
def valueOf (c : Ctx) : Operand → Except Cause (BitVec 64)
  | .name n => if (regOf n).isSome then .error (.register n) else c.value n
  | .expr e => e.eval c.value
  | _ => .error .operandKind

/-- A value between bounds. -/
def within (lo hi : Int) (v : BitVec 64) : Except Cause Int :=
  if lo ≤ v.toInt ∧ v.toInt ≤ hi then .ok v.toInt else .error .range

/-- A value for an unsigned field (R108). -/
def unsignedIn (w : Nat) (v : BitVec 64) : Except Cause (BitVec w) :=
  (within 0 (2 ^ w - 1) v).map (BitVec.ofInt w)

/-- A value for a signed field (R108). -/
def signedIn (w : Nat) (v : BitVec 64) : Except Cause (BitVec w) :=
  (within (-(2 ^ (w - 1))) (2 ^ (w - 1) - 1) v).map (BitVec.ofInt w)

/-- An unsigned operand (R108). -/
def uns (w : Nat) (c : Ctx) (o : Operand) : Except Cause (BitVec w) := do unsignedIn w (← valueOf c o)

/-- A signed operand (R108). -/
def sgn (w : Nat) (c : Ctx) (o : Operand) : Except Cause (BitVec w) := do signedIn w (← valueOf c o)

/-- A depth of 1 to 256 granules, as the field depth − 1 (R135). -/
def depthField (c : Ctx) (o : Operand) : Except Cause (BitVec 8) := do
  let v ← within 1 256 (← valueOf c o)
  return BitVec.ofInt 8 (v - 1)

/-- VLI's immediate: 0 to 65,535, or −32,768 to −1 as its pattern (R210). -/
def vliField (c : Ctx) (o : Operand) : Except Cause (BitVec 16) := do
  let v ← within (-32768) 65535 (← valueOf c o)
  return BitVec.ofInt 16 v

/-- An `imm(sa)` operand: the signed offset and the register (R145). -/
def offsetOf (c : Ctx) : Operand → Except Cause (BitVec 16 × BitVec 5)
  | .offset e r => do
    let v ← e.eval c.value
    return (← signedIn 16 v, ← reg .s 5 c (.name r))
  | _ => .error .operandKind

/-- A branch operand: a `.ctl` label, encoded as the label less the branch's own index (R108). -/
def branchOf (w : Nat) (c : Ctx) : Operand → Except Cause (BitVec w)
  | .name n =>
    match c.label n with
    | some l => signedIn w (BitVec.ofInt 64 ((l : Int) - (c.here : Int)))
    | none => .error .notCtlLabel
  | _ => .error .notCtlLabel

/-- An engine's keyword (R110). -/
def engineOf : Operand → Except Cause Engine
  | .name n =>
    match engineId n with
    | some 0 => .ok .lds
    | some 1 => .ok .cmp
    | some 2 => .ok .sts
    | _ => .error .operandKind
  | _ => .error .operandKind

/-- The type names, in the order of their codes (R68, R110). -/
def typeNames : List String :=
  ["i8", "u8", "i16", "u16", "i32", "u32", "f16", "bf16", "f32", "k8", "k4", "a64", "ks8"]

/-- A type's keyword: one of the first `lim` codes. Where a type stands, `k8` and `k4` are types (log 52). -/
def typeOf (lim : Nat) : Operand → Except Cause EType
  | .name n =>
    match (typeNames.take lim).idxOf? (lowered n) with
    | some i => (EType.ofCode i).elim (.error .operandKind) .ok
    | none => .error .operandKind
  | _ => .error .operandKind

/-- The second source of a class 00 word: a v or a k register (R133). -/
def vsrcOf (c : Ctx) (o : Operand) : Except Cause VSrc :=
  match reg .v 5 c o with
  | .ok r => .ok (.v r)
  | .error _ => (reg .k 4 c o).map VSrc.k

/-- The operand of CMP's SEMWAIT and SEMADD: a k register, or an immediate (R136, R212). -/
def cmpSemArg (c : Ctx) (signed : Bool) (o : Operand) : Except Cause CmpSemArg :=
  match regIn .k c o with
  | .ok r => .ok (.k (BitVec.ofNat 4 r))
  | .error _ => (if signed then sgn 16 c o else uns 16 c o).map CmpSemArg.imm

/-- The operand of the LDS and STS SEMWAIT and SEMADD: an a register, or an immediate (R170). -/
def xferSemArg (c : Ctx) (signed : Bool) (o : Operand) : Except Cause XferSemArg :=
  match regIn .a c o with
  | .ok r => .ok (.a (BitVec.ofNat 4 r))
  | .error _ => (if signed then sgn 8 c o else uns 8 c o).map XferSemArg.imm

/-- PSET's mode by its operands after pd (R211). -/
def psetMode (c : Ctx) : List Operand → Except Cause PsetMode
  | [.name n] =>
    match lowered n with
    | "all" => .ok .all
    | "none" => .ok .none
    | "first" => .error .operandCount
    | "bits" => .error .operandCount
    | _ => .error .operandKind
  | [.name n, k] =>
    match lowered n with
    | "first" => (reg .k 4 c k).map PsetMode.first
    | "bits" => (reg .k 4 c k).map PsetMode.bits
    | "all" => .error .operandCount
    | "none" => .error .operandCount
    | _ => .error .operandKind
  | [_] => .error .operandKind
  | [_, _] => .error .operandKind
  | _ => .error .operandCount

/-- How a row of an assembler table reads an instruction: the suffixes it takes, in groups of which each may give one,
the groups that must give one, and the instruction that suffixes, token bits, predicate and operands make. -/
structure Row where
  /-- Groups of suffixes, at most one from each. -/
  groups : List (List String) := []
  /-- Groups from which one is required. -/
  needs  : List (List String) := []
  /-- A predicate may stand before it (R111). -/
  preds  : Bool := false
  build  : Ctx → Tok → Pred → List String → List Operand → Except Cause Instr

/-- A row of operands alone. -/
def plain (f : Ctx → Tok → List Operand → Except Cause Instr) : Row := { build := fun c t _ _ os => f c t os }

/-- A row with suffixes of its own. -/
def suffixed (groups needs : List (List String))
    (f : Ctx → Tok → List String → List Operand → Except Cause Instr) : Row :=
  { groups := groups, needs := needs, build := fun c t _ ss os => f c t ss os }

/-- A row that a predicate may stand before (R111). -/
def predicated (groups : List (List String))
    (f : Ctx → Tok → Pred → List String → List Operand → Except Cause Instr) : Row :=
  { groups := groups, preds := true, build := f }

/-- The place in a group of the suffix that is written, if one is. -/
def chosen (g ss : List String) : Option Nat := (g.find? (fun x => ss.contains x)).bind (fun x => g.idxOf? x)

/-- One register and nothing else. -/
def one {α : Type} (f : Operand → Except Cause α) (k : α → Instr) : List Operand → Except Cause Instr
  | [a] => (f a).map k
  | _ => .error .operandCount

/-- Two operands. -/
def two {α β : Type} (f : Operand → Except Cause α) (g : Operand → Except Cause β) (k : α → β → Instr) :
    List Operand → Except Cause Instr
  | [a, b] => do
    let x ← f a
    let y ← g b
    return k x y
  | _ => .error .operandCount

/-- Three operands. -/
def three {α β γ : Type} (f : Operand → Except Cause α) (g : Operand → Except Cause β)
    (h : Operand → Except Cause γ) (k : α → β → γ → Instr) : List Operand → Except Cause Instr
  | [a, b, d] => do
    let x ← f a
    let y ← g b
    let z ← h d
    return k x y z
  | _ => .error .operandCount

/-- Four operands. -/
def four {α β γ δ : Type} (f : Operand → Except Cause α) (g : Operand → Except Cause β)
    (h : Operand → Except Cause γ) (l : Operand → Except Cause δ) (k : α → β → γ → δ → Instr) :
    List Operand → Except Cause Instr
  | [a, b, d, e] => do
    let x ← f a
    let y ← g b
    let z ← h d
    let w ← l e
    return k x y z w
  | _ => .error .operandCount

/-- No operand. -/
def zero (i : Instr) : List Operand → Except Cause Instr
  | [] => .ok i
  | _ => .error .operandCount

end Sys2Proof.Phas
end

