-- ==== Sys2Proof/Machine/PhasCtl.lean ====
section
/-!
DEFINITION. The assembler's table of CTL instructions (R127 to R131 and the syntax lines of 13_scalar_isa.md,
21_generator_rules.md and 25_speculation_rules.md).
-/

namespace Sys2Proof.Phas

/-- A row of suffixes and operands alone. -/
def ctlRow (groups needs : List (List String)) (f : Ctx → List String → List Operand → Except Cause Instr) : Row :=
  { groups := groups, needs := needs, build := fun c _ _ ss os => f c ss os }

/-- `op sd, sa, sb` with `.w` allowed. -/
def rrrw (i : BitVec 5 → BitVec 5 → BitVec 5 → Bool → Instr) : Row :=
  ctlRow [["w"]] [] (fun c ss os =>
    three (reg .s 5 c) (reg .s 5 c) (reg .s 5 c) (fun d a b => i d a b (ss.contains "w")) os)

/-- `op sd, sa` with `.w` allowed. -/
def rrw (i : BitVec 5 → BitVec 5 → Bool → Instr) : Row :=
  ctlRow [["w"]] [] (fun c ss os => two (reg .s 5 c) (reg .s 5 c) (fun d a => i d a (ss.contains "w")) os)

/-- `op sd, sa, sb`. -/
def rrr (i : BitVec 5 → BitVec 5 → BitVec 5 → Instr) : Row :=
  ctlRow [] [] (fun c _ os => three (reg .s 5 c) (reg .s 5 c) (reg .s 5 c) i os)

/-- Two s registers. -/
def rr (i : BitVec 5 → BitVec 5 → Instr) : Row := ctlRow [] [] (fun c _ os => two (reg .s 5 c) (reg .s 5 c) i os)

/-- One s register. -/
def r1 (i : BitVec 5 → Instr) : Row := ctlRow [] [] (fun c _ os => one (reg .s 5 c) i os)

/-- No operand. -/
def r0 (i : Instr) : Row := ctlRow [] [] (fun _ _ os => zero i os)

/-- `op sd, sa, imm` with a signed immediate. -/
def rrs (i : BitVec 5 → BitVec 5 → BitVec 16 → Instr) : Row :=
  ctlRow [] [] (fun c _ os => three (reg .s 5 c) (reg .s 5 c) (sgn 16 c) i os)

/-- `op sd, sa, imm` with an unsigned immediate. -/
def rru (i : BitVec 5 → BitVec 5 → BitVec 16 → Instr) : Row :=
  ctlRow [] [] (fun c _ os => three (reg .s 5 c) (reg .s 5 c) (uns 16 c) i os)

/-- A shift by an immediate amount, with `.w` allowed. -/
def shiftRow (i : BitVec 5 → BitVec 5 → Bool → BitVec 6 → Instr) : Row :=
  ctlRow [["w"]] [] (fun c ss os =>
    three (reg .s 5 c) (reg .s 5 c) (uns 6 c) (fun d a n => i d a (ss.contains "w") n) os)

/-- A load or store: a register and `imm(sa)`. -/
def memRow (i : BitVec 5 → BitVec 5 → BitVec 16 → Instr) : Row :=
  ctlRow [] [] (fun c _ os => two (reg .s 5 c) (offsetOf c) (fun d x => i d x.2 x.1) os)

/-- A cache operation: `imm(sa)`. -/
def cacheRow (i : BitVec 5 → BitVec 16 → Instr) : Row :=
  ctlRow [] [] (fun c _ os => one (offsetOf c) (fun x => i x.2 x.1) os)

/-- An atomic of 32 or 64 bits: `.w` or `.d` is required, `.ms` allowed (R130). -/
def amoRow (i : BitVec 5 → BitVec 5 → BitVec 5 → Bool → AmoSize → Instr) : Row :=
  ctlRow [["w", "d"], ["ms"]] [["w", "d"]] (fun c ss os =>
    three (reg .s 5 c) (reg .s 5 c) (reg .s 5 c)
      (fun d a b => i d a b (ss.contains "ms") (if ss.contains "d" then .d else .w)) os)

/-- A branch: `op sa, sb, label`. -/
def branchRow (i : BitVec 5 → BitVec 5 → BitVec 16 → Instr) : Row :=
  ctlRow [] [] (fun c _ os => three (reg .s 5 c) (reg .s 5 c) (branchOf 16 c) i os)

/-- `op sem, sa` and the like: a constant of 4 bits and a register. -/
def constReg (i : BitVec 4 → BitVec 5 → Instr) : Row := ctlRow [] [] (fun c _ os => two (uns 4 c) (reg .s 5 c) i os)

/-- A constant of 4 bits and two registers. -/
def constRegs (i : BitVec 4 → BitVec 5 → BitVec 5 → Instr) : Row :=
  ctlRow [] [] (fun c _ os => three (uns 4 c) (reg .s 5 c) (reg .s 5 c) i os)

/-- ALU-R and MULDIV (R129, R142, R144). -/
def aluRows : List (String × Row) :=
  [("add", rrrw .add), ("sub", rrrw .sub), ("and", rrrw .and), ("or", rrrw .or), ("xor", rrrw .xor), ("shl", rrrw .shl),
   ("shr", rrrw .shr), ("sra", rrrw .sra), ("rol", rrrw .rol), ("slt", rrrw .slt), ("sltu", rrrw .sltu),
   ("min", rrrw .min), ("max", rrrw .max), ("minu", rrrw .minu), ("maxu", rrrw .maxu), ("clz", rrw .clz),
   ("ctz", rrw .ctz), ("popc", rrw .popc), ("mul", rrrw .mul), ("mulh", rrr .mulh), ("mulhu", rrr .mulhu),
   ("div", rrrw .div), ("divu", rrrw .divu), ("rem", rrrw .rem), ("remu", rrrw .remu)]

/-- Immediate forms (R128, R143). -/
def immRows : List (String × Row) :=
  [("addi", rrs .addi), ("slti", rrs .slti), ("sltiu", rrs .sltiu), ("andi", rru .andi), ("ori", rru .ori),
   ("xori", rru .xori), ("shli", shiftRow .shli), ("shri", shiftRow .shri), ("srai", shiftRow .srai),
   ("roli", shiftRow .roli), ("lui", ctlRow [] [] (fun c _ os => two (reg .s 5 c) (uns 16 c) .lui os)),
   ("lih", ctlRow [] [] (fun c _ os => two (reg .s 5 c) (uns 16 c) .lih os))]

/-- Memory access (R130, R145, R147, R148). -/
def memRows : List (String × Row) :=
  [("ldb", memRow .ldb), ("ldbu", memRow .ldbu), ("ldh", memRow .ldh), ("ldhu", memRow .ldhu), ("ldw", memRow .ldw),
   ("ldwu", memRow .ldwu), ("ldd", memRow .ldd), ("stb", memRow .stb), ("sth", memRow .sth), ("stw", memRow .stw),
   ("std", memRow .std), ("amoadd", amoRow .amoadd), ("amoand", amoRow .amoand), ("amoor", amoRow .amoor),
   ("amoxor", amoRow .amoxor), ("amomin", amoRow .amomin), ("amomax", amoRow .amomax), ("amominu", amoRow .amominu),
   ("amomaxu", amoRow .amomaxu), ("amoswap", amoRow .amoswap), ("amocas", amoRow .amocas),
   ("amofadd", amoRow .amofadd),
   ("amonswap", ctlRow [["lo", "hi"], ["ms"]] [["lo", "hi"]] (fun c ss os =>
      three (reg .s 5 c) (reg .s 5 c) (reg .s 5 c)
        (fun d a b => .amonswap d a b (ss.contains "hi") (ss.contains "ms")) os)),
   ("cwb", cacheRow .cwb), ("cinv", cacheRow .cinv), ("cwbinv", cacheRow .cwbinv), ("cpref", cacheRow .cpref)]

/-- Control flow and dispatch (R127, R149 to R153). -/
def flowRows : List (String × Row) :=
  [("beq", branchRow .beq), ("bne", branchRow .bne), ("blt", branchRow .blt), ("bge", branchRow .bge),
   ("bltu", branchRow .bltu), ("bgeu", branchRow .bgeu),
   ("jal", ctlRow [] [] (fun c _ os => one (branchOf 26 c) .jal os)),
   ("jalr", memRow .jalr),
   ("loop", ctlRow [] [] (fun c _ os => two (reg .s 5 c) (uns 16 c) .loop os)),
   ("disp", ctlRow [] [] (fun c _ os => four engineOf (uns 8 c) (reg .s 5 c) (reg .s 5 c) .disp os)),
   ("dispx", ctlRow [] [] (fun c _ os => three engineOf (reg .s 5 c) (reg .s 5 c) .dispx os)),
   ("qcancel", r1 .qcancel), ("qdrain", r0 .qdrain), ("qstatrd", r1 .qstatrd)]

/-- Semaphores, work, hypotheses, generators, memory management and the system group (R131, R141, R154 to R162, R237,
R266, R279). -/
def groupRows : List (String × Row) :=
  [("semadd", constReg (fun s a => .semadd a s)), ("semwait", constReg (fun s a => .semwait a s)),
   ("rflag", constRegs (fun s d a => .rflag d a s)), ("mflag", constRegs (fun s d a => .mflag d a s)),
   ("spawn", r1 .spawn), ("waitev", rr .waitev), ("exit", r0 .exit), ("sigev", rr .sigev), ("hopen", rr .hopen),
   ("hwin", rr .hwin), ("hset", r1 .hset),
   ("hresolve", ctlRow [["c", "r"]] [["c", "r"]] (fun c ss os =>
      one (reg .s 5 c) (fun a => .hresolve a (ss.contains "c")) os)),
   ("hcommit", rr .hcommit), ("hstat", rr .hstat), ("gload", constReg (fun s a => .gload a s)),
   ("gfree", ctlRow [] [] (fun c _ os => one (uns 4 c) .gfree os)), ("gparam", constReg (fun s a => .gparam a s)),
   ("palloc", rr .palloc), ("pfree", r1 .pfree), ("tltset", rrr .tltset), ("tltuse", r1 .tltuse),
   ("mapw", constRegs .mapw), ("unmapw", ctlRow [] [] (fun c _ os => one (uns 4 c) .unmapw os)),
   ("csrd", ctlRow [] [] (fun c _ os => two (reg .s 5 c) (uns 12 c) .csrd os)),
   ("cswr", ctlRow [] [] (fun c _ os => two (uns 12 c) (reg .s 5 c) (fun n a => .cswr a n) os)),
   ("trap", r1 .trap), ("rett", r0 .rett), ("brk", r0 .brk),
   ("fence", ctlRow [] [] (fun c _ os => one (uns 5 c) .fence os)), ("wfe", r0 .wfe)]

/-- The instructions of `.ctl`. -/
def ctlRows : List (String × Row) := aluRows ++ immRows ++ memRows ++ flowRows ++ groupRows

end Sys2Proof.Phas
end

