-- ==== Sys2Proof/Machine/PhasEngine.lean ====
section
/-!
DEFINITION. The assembler's tables of LDS and STS steps, CMP words and generator words (R132 to R138 and the syntax
lines of 15_transfer_isa.md, 17_vector_isa.md, 19_matrix_isa.md and 21_generator_rules.md).
-/

namespace Sys2Proof.Phas

/-- The destination space suffixes of R165, by their codes. -/
def dstSuffixes : List String := ["dg", "da", "dw", "dc"]

/-- The source space suffixes of R165, by their codes. -/
def srcSuffixes : List String := ["sg", "sa", "sw", "sc"]

/-- The space that suffixes give; space 0 without one (R165, R200). -/
def spaceIn (g ss : List String) : Space := Space.ofCode ((chosen g ss).getD 0)

/-- A copy step: destination, source, box (R165, R173). -/
def copyRow (i : Tok → BitVec 4 → BitVec 4 → BitVec 3 → Space → Space → Bool → Instr) : Row :=
  suffixed [dstSuffixes, srcSuffixes, ["use"]] [] (fun c t ss os =>
    three (reg .a 4 c) (reg .a 4 c) (reg .bx 3 c)
      (fun x y z => i t x y z (spaceIn srcSuffixes ss) (spaceIn dstSuffixes ss) (ss.contains "use")) os)

/-- A step of one a register. -/
def aRow (i : Tok → BitVec 4 → Instr) : Row := plain (fun c t os => one (reg .a 4 c) (i t) os)

/-- The steps of `.load` and `.store` (R137, R167 to R184). -/
def xferRows : List (String × Row) :=
  [("nop", plain (fun _ t os => zero (.xferNop t) os)),
   ("end", plain (fun _ t os => zero (.xferEnd t) os)),
   ("copy", copyRow .copy), ("gath", copyRow .gath), ("scat", copyRow .scat),
   ("boxld", plain (fun c t os => two (reg .bx 3 c) (reg .a 4 c) (.boxld t) os)),
   ("aadd", plain (fun c t os => three (reg .a 4 c) (reg .a 4 c) (reg .a 4 c) (.aadd t) os)),
   ("ali", plain (fun c t os => two (reg .a 4 c) (sgn 18 c) (.ali t) os)),
   ("amov", plain (fun c t os => two (reg .a 4 c) (reg .a 4 c) (.amov t) os)),
   ("semwait", plain (fun c t os => two (uns 4 c) (xferSemArg c false) (.xferSemwait t) os)),
   ("semadd", plain (fun c t os => two (uns 4 c) (xferSemArg c true) (.xferSemadd t) os)),
   ("loopt", plain (fun c t os => two (reg .a 4 c) (uns 8 c) (.loopt t) os)),
   ("coll", aRow .coll), ("mdec", aRow .mdec),
   ("pref", suffixed [srcSuffixes] [] (fun c t ss os =>
      two (reg .a 4 c) (reg .bx 3 c) (fun x z => .pref t x z (spaceIn srcSuffixes ss)) os)),
   ("zero", suffixed [dstSuffixes] [] (fun c t ss os =>
      two (reg .a 4 c) (reg .bx 3 c) (fun x z => .zero t x z (spaceIn dstSuffixes ss)) os)),
   ("tuse", aRow .tuse)]

/-- `op vd, va, vb` or `op vd, va, kn` (R133). -/
def vBinary (i : Tok → Pred → BitVec 5 → BitVec 5 → VSrc → Instr) : Row :=
  predicated [] (fun c t p _ os => three (reg .v 5 c) (reg .v 5 c) (vsrcOf c) (i t p) os)

/-- `op vd, va` (R133). -/
def vUnary (i : Tok → Pred → BitVec 5 → BitVec 5 → Instr) : Row :=
  predicated [] (fun c t p _ os => two (reg .v 5 c) (reg .v 5 c) (i t p) os)

/-- A compare: `op pd, va, vb` or `op pd, va, kn` (R133, R195). -/
def vCompare (i : Tok → Pred → BitVec 3 → BitVec 5 → VSrc → Instr) : Row :=
  predicated [] (fun c t p _ os => three (reg .p 3 c) (reg .v 5 c) (vsrcOf c) (i t p) os)

/-- Class 00 words (R133). -/
def class00Rows : List (String × Row) :=
  [("vadd", vBinary .vadd), ("vsub", vBinary .vsub), ("vmul", vBinary .vmul), ("vmulh", vBinary .vmulh),
   ("vfma", vBinary .vfma), ("vfms", vBinary .vfms), ("vmin", vBinary .vmin), ("vmax", vBinary .vmax),
   ("vabs", vUnary .vabs), ("vneg", vUnary .vneg), ("vdiv", vBinary .vdiv), ("vsqrt", vUnary .vsqrt),
   ("vrcp", vUnary .vrcp), ("vrsq", vUnary .vrsq), ("vexp2", vUnary .vexp2), ("vlog2", vUnary .vlog2),
   ("vand", vBinary .vand), ("vor", vBinary .vor), ("vxor", vBinary .vxor), ("vnot", vUnary .vnot),
   ("vshl", vBinary .vshl), ("vshr", vBinary .vshr), ("vsra", vBinary .vsra), ("vfshl", vBinary .vfshl),
   ("vfshr", vBinary .vfshr), ("vclz", vUnary .vclz), ("vpopc", vUnary .vpopc), ("vsel", vBinary .vsel),
   ("vmov", vUnary .vmov),
   ("vcvt", predicated [] (fun c t p _ os =>
      three (reg .v 5 c) (reg .v 5 c) (typeOf 13) (.vcvt t p) os)),
   ("vcmpeq", vCompare .vcmpeq), ("vcmplt", vCompare .vcmplt), ("vcmple", vCompare .vcmple),
   ("vcmpne", vCompare .vcmpne), ("vadds", vBinary .vadds), ("vsubs", vBinary .vsubs), ("vredsum", vUnary .vredsum),
   ("vredmax", vUnary .vredmax), ("vredmin", vUnary .vredmin), ("vscan", vUnary .vscan), ("vscanx", vUnary .vscanx),
   ("vbcast", vBinary .vbcast),
   ("viota", predicated [] (fun c t p _ os => one (reg .v 5 c) (.viota t p) os)),
   ("vaccept", vBinary .vaccept),
   ("vfirst", predicated [] (fun c t p _ os => two (reg .v 5 c) (reg .p 3 c) (.vfirst t p) os)),
   ("vhash", vBinary .vhash), ("vunif", vUnary .vunif)]

/-- The space suffixes of vector and stream words, by their codes (R200). -/
def memSuffixes : List String := ["gl", "ab", "wb", "cb"]

/-- The load qualifier that suffixes give (R200). -/
def loadQual (ss : List String) : LoadQual :=
  if ss.contains "wf" then .waitFull else if ss.contains "cr" then .clearOnRead else .plain

/-- The store qualifier that suffixes give (R200). -/
def storeQual (ss : List String) : StoreQual := if ss.contains "sf" then .setFull else .plain

/-- A contiguous load (R200, R201). -/
def vLoad (i : Tok → Pred → BitVec 5 → BitVec 4 → Space → LoadQual → Instr) : Row :=
  predicated [memSuffixes, ["wf", "cr"]] (fun c t p ss os =>
      two (reg .v 5 c) (reg .k 4 c) (fun v k => i t p v k (spaceIn memSuffixes ss) (loadQual ss)) os)

/-- A contiguous store (R200 to R202). -/
def vStore (i : Tok → Pred → BitVec 5 → BitVec 4 → Space → StoreQual → Instr) : Row :=
  predicated [memSuffixes, ["sf"]] (fun c t p ss os =>
      two (reg .v 5 c) (reg .k 4 c) (fun v k => i t p v k (spaceIn memSuffixes ss) (storeQual ss)) os)

/-- A gather or scatter (R203). -/
def vIndexed (i : Tok → Pred → BitVec 5 → BitVec 5 → BitVec 4 → Space → Instr) : Row :=
  predicated [memSuffixes] (fun c t p ss os =>
      three (reg .v 5 c) (reg .v 5 c) (reg .k 4 c) (fun v x k => i t p v x k (spaceIn memSuffixes ss)) os)

/-- Class 01 words (R134, R200). -/
def class01Rows : List (String × Row) :=
  [("vld", vLoad .vld), ("vst", vStore .vst), ("vldi", vLoad .vldi), ("vsti", vStore .vsti), ("vstu", vStore .vstu),
   ("vgath", vIndexed .vgath), ("vscat", vIndexed .vscat),
   ("vpart", predicated [] (fun c t p _ os =>
      three (reg .v 5 c) (reg .v 5 c) (reg .k 4 c) (.vpart t p) os)),
   ("vperm", predicated [] (fun c t p _ os => two (reg .v 5 c) (reg .v 5 c) (.vperm t p) os)),
   ("vldb", vLoad .vldb)]

/-- The rounding suffixes, by their codes (R135, R190). -/
def roundSuffixes : List String := ["rne", "rz", "rd", "ru"]

/-- The rounding mode that suffixes give; RNE without one (R135, R190). -/
def roundIn (ss : List String) : RMode := RMode.ofCode ((chosen roundSuffixes ss).getD 0)

/-- The histogram suffixes of MDRAIN, by their sets (R135). -/
def histSuffixes : List String := ["h0", "h1", "h2", "h3"]

/-- A matrix step: two streams, a tile, a depth (R135). -/
def stepRow (i : Tok → BitVec 4 → BitVec 4 → BitVec 6 → BitVec 8 → Instr) : Row :=
  plain (fun c t os => four (reg .st 4 c) (reg .st 4 c) (uns 6 c) (depthField c) (i t) os)

/-- Class 10 words (R135). -/
def class10Rows : List (String × Row) :=
  [("mma", stepRow .mma), ("mmaz", stepRow .mmaz), ("mmv", stepRow .mmv),
   ("mdrain", suffixed [roundSuffixes, ["as"], histSuffixes] [] (fun c t ss os =>
      two (reg .st 4 c) (uns 6 c) (fun s a =>
        .mdrain t s a (roundIn ss) (ss.contains "as") (chosen histSuffixes ss).isSome
          (BitVec.ofNat 2 ((chosen histSuffixes ss).getD 0))) os)),
   ("mseal", plain (fun _ t os => zero (.mseal t) os)),
   ("msettle", plain (fun c t os => one (uns 8 c) (.msettle t) os)),
   ("accz", plain (fun c t os => one (uns 6 c) (.accz t) os)),
   ("accld", plain (fun c t os => two (reg .st 4 c) (uns 6 c) (.accld t) os))]

/-- The selector suffixes of SMOD, by their codes (R221). -/
def smodSuffixes : List String :=
  ["base", "rows", "cols", "stride", "row0", "col0", "sbase", "seed", "addbase", "addrow0", "addcol0", "addseed"]

/-- Class 11 words (R136). -/
def class11Rows : List (String × Row) :=
  [("nop", plain (fun _ t os => zero (.cmpNop t) os)),
   ("end", plain (fun _ t os => zero (.cmpEnd t) os)),
   ("shape", suffixed [roundSuffixes, ["sat"]] [] (fun c t ss os =>
      three (typeOf 11) (reg .k 4 c) (uns 3 c) (fun ty k g => .shape t ty (roundIn ss) (ss.contains "sat") g k) os)),
   ("sld", suffixed [memSuffixes.take 3] [] (fun c t ss os =>
      two (reg .st 4 c) (reg .k 4 c) (fun s k => .sld t s k (spaceIn memSuffixes ss)) os)),
   ("smod", suffixed [smodSuffixes] [smodSuffixes] (fun c t ss os =>
      match SmodSel.ofCode ((chosen smodSuffixes ss).getD 0) with
      | some sel => two (reg .st 4 c) (reg .k 4 c) (fun s k => .smod t s sel k) os
      | none => .error .suffix)),
   ("kadd", plain (fun c t os => three (reg .k 4 c) (reg .k 4 c) (sgn 13 c) (.kadd t) os)),
   ("kli", plain (fun c t os => two (reg .k 4 c) (sgn 17 c) (.kli t) os)),
   ("kmov", plain (fun c t os => two (reg .k 4 c) (reg .k 4 c) (.kmov t) os)),
   ("vli", plain (fun c t os => two (reg .v 5 c) (vliField c) (.vli t) os)),
   ("pset", plain (fun c t os =>
      match os with
      | [] => .error .operandCount
      | d :: r => do
        let x ← reg .p 3 c d
        let m ← psetMode c r
        return .pset t x m)),
   ("semwait", plain (fun c t os => two (uns 4 c) (cmpSemArg c false) (.cmpSemwait t) os)),
   ("semadd", plain (fun c t os => two (uns 4 c) (cmpSemArg c true) (.cmpSemadd t) os)),
   ("loopk", plain (fun c t os => two (reg .k 4 c) (uns 17 c) (.loopk t) os)),
   ("fragsel", plain (fun c t os => two (reg .k 4 c) (reg .k 4 c) (.fragsel t) os)),
   ("histrd", suffixed [["clr"]] [] (fun c t ss os =>
      two (reg .v 5 c) (uns 2 c) (fun d s => .histrd t d s (ss.contains "clr")) os)),
   ("feclr", suffixed [["ab", "wb"]] [["ab", "wb"]] (fun c t ss os =>
      two (reg .k 4 c) (reg .k 4 c) (.feclr t (if ss.contains "ab" then .abuf else .wbuf)) os)),
   ("gstat", plain (fun c t os => two (reg .k 4 c) (uns 4 c) (.gstat t) os))]

/-- The words of `.comp`. -/
def cmpRows : List (String × Row) := class00Rows ++ class01Rows ++ class10Rows ++ class11Rows

/-- `op gd, ga, gb` (R138, R244). -/
def gBinary (i : BitVec 4 → BitVec 4 → BitVec 4 → Instr) : Row :=
  plain (fun c _ os => three (reg .g 4 c) (reg .g 4 c) (reg .g 4 c) i os)

/-- `op gd, ga` (R244). -/
def gUnary (i : BitVec 4 → BitVec 4 → Instr) : Row :=
  plain (fun c _ os => two (reg .g 4 c) (reg .g 4 c) i os)

/-- The words of `.gen` (R138, R244). -/
def genRows : List (String × Row) :=
  [("add", gBinary .genAdd), ("sub", gBinary .genSub), ("mul", gBinary .genMul), ("mulhu", gBinary .genMulhu),
   ("and", gBinary .genAnd), ("or", gBinary .genOr), ("xor", gBinary .genXor), ("shl", gBinary .genShl),
   ("shr", gBinary .genShr), ("sra", gBinary .genSra), ("rotl", gBinary .genRotl),
   ("addi", plain (fun c _ os => three (reg .g 4 c) (reg .g 4 c) (sgn 14 c) .genAddi os)),
   ("xori", plain (fun c _ os => three (reg .g 4 c) (reg .g 4 c) (uns 14 c) .genXori os)),
   ("li", plain (fun c _ os => two (reg .g 4 c) (sgn 14 c) .genLi os)),
   ("lui", plain (fun c _ os => two (reg .g 4 c) (uns 14 c) .genLui os)),
   ("hash", gBinary .genHash), ("sel", gBinary .genSel), ("sltu", gBinary .genSltu), ("slt", gBinary .genSlt),
   ("fadd", gBinary .genFadd), ("fmul", gBinary .genFmul), ("ffma", gBinary .genFfma), ("i2f", gUnary .genI2f),
   ("unif", gUnary .genUnif), ("rade", gUnary .genRade), ("fneg", gUnary .genFneg), ("fmin", gBinary .genFmin),
   ("fmax", gBinary .genFmax),
   ("loop", plain (fun c _ os => two (reg .g 4 c) (uns 6 c) .genLoop os)),
   ("out", plain (fun c _ os => one (reg .g 4 c) .genOut os)),
   ("outi", plain (fun c _ os => one (reg .g 4 c) .genOuti os))]

end Sys2Proof.Phas
end

