-- ==== Sys2Proof/Machine/Phas.lean ====
section
/-!
DEFINITION. The phas assembler (R104 to R121): from a source to the bytes of a ZVX container, or the message of an error
(R115).
-/

namespace Sys2Proof.Phas

/-- A token suffix of R111, with the bit it sets. -/
def tokenOf : String → Option Tok
  | "wp" => some { wp := true }
  | "wn" => some { wn := true }
  | "sp" => some { sp := true }
  | "sn" => some { sn := true }
  | _ => none

/-- The token bits of either. -/
def joinTok (a b : Tok) : Tok := { wp := a.wp || b.wp, wn := a.wn || b.wn, sp := a.sp || b.sp, sn := a.sn || b.sn }

/-- Token bits that a section's words accept (R111). -/
def tokensFit (s : Sect) (t : Tok) : Bool :=
  match s with
  | .load => t.fitsLds
  | .comp => true
  | .store => t.fitsSts
  | _ => t == { }

/-- The table of a section's instructions (R110). -/
def rowsOf : Sect → List (String × Row)
  | .ctl => ctlRows
  | .load => xferRows
  | .comp => cmpRows
  | .store => xferRows
  | .gen => genRows
  | .data => []
  | .sync => []

/-- R111 on suffixes: none twice, each known to the row, at most one of a group, and one of each group that needs it. -/
def suffixesOk (r : Row) (ss : List String) : Bool :=
  decide ss.Nodup && ss.all (fun x => r.groups.any (fun g => g.contains x)) &&
    r.groups.all (fun g => decide ((ss.filter (fun x => g.contains x)).length ≤ 1)) &&
    r.needs.all (fun g => g.any (fun x => ss.contains x))

/-- The instruction that a written one becomes (R110, R111). A word that would not decode is an error (R124, log 53). -/
def instrOf (c : Ctx) (w : Written) : Except Cause Instr :=
  match (rowsOf c.sect).lookup w.mnemonic with
  | none => .error .unknownMnemonic
  | some r =>
    let toks := w.suffixes.filterMap tokenOf
    let t := toks.foldl joinTok { }
    let own := w.suffixes.filter (fun x => (tokenOf x).isNone)
    if !(decide w.suffixes.Nodup && tokensFit c.sect t && suffixesOk r own) then .error .suffix
    else if w.pred.isSome && !r.preds then .error .predicate
    else
      match r.build c t (w.pred.getD { }) own w.operands with
      | .error e => .error e
      | .ok i => if i.wf then .ok i else .error .noWord

/-- A symbol (R108, R121): its name, the line that defines it, the type of its section, whether it is a label, and its
value, known at once or as an expression. -/
structure Def where
  name  : Name
  line  : Nat
  type  : Nat
  label : Bool
  val   : Expr
  deriving DecidableEq, Repr, Inhabited

/-- The value of a symbol among some definitions (R107). A chain of definitions longer than their number holds one of
them twice, so the fuel runs out exactly on a definition that depends on itself. -/
def symbolValue (ds : List Def) : Nat → Name → Except Cause (BitVec 64)
  | 0, _ => .error .circular
  | fuel + 1, n =>
    match ds.find? (fun d => d.name == n) with
    | none => .error (.undefined n)
    | some d => d.val.eval (symbolValue ds fuel)

/-- The value of a symbol. -/
def lookIn (ds : List Def) (n : Name) : Except Cause (BitVec 64) := symbolValue ds (ds.length + 1) n

/-- An instruction at its line and word index. -/
structure Placed where
  line : Nat
  at_  : Nat
  w    : Written
  deriving DecidableEq, Repr, Inhabited

/-- A fragment of an engine section (R112): the line that opens it, its name's index, the word index of its first
word. -/
structure Fragment where
  sect  : Sect
  line  : Nat
  index : Expr
  start : Nat
  deriving DecidableEq, Repr, Inhabited

/-- A generator image (R113). -/
structure GenImage where
  name   : Name
  line   : Nat
  bound  : Expr
  params : Expr
  words  : List Placed
  deriving DecidableEq, Repr, Inhabited

/-- Values or bytes of `.data`, in source order. -/
inductive Piece where
  | values (line width : Nat) (vs : List Expr)
  | bytes (b : List Byte)
  deriving DecidableEq, Repr, Inhabited

/-- A body that is open (R112, R113): a fragment, with whether its last instruction is `end`, or an image. -/
inductive OpenBody where
  | frag (f : Fragment) (ended : Bool)
  | image (g : GenImage)
  deriving DecidableEq, Repr, Inhabited

/-- What the lines read so far have given. -/
structure Layout where
  sect   : Option Sect := none
  body   : Option OpenBody := none
  entry  : Option (Nat × Name) := none
  ctl    : List Placed := []
  load   : List Placed := []
  comp   : List Placed := []
  store  : List Placed := []
  frags  : List Fragment := []
  images : List GenImage := []
  data   : List Piece := []
  /-- The location counter of `.data`. -/
  bytes  : Nat := 0
  syncs  : List (Nat × Item × Expr) := []
  slots  : List (Nat × Name) := []
  defs   : List Def := []
  deriving DecidableEq, Repr, Inhabited

/-- The instructions of a code section, in source order. -/
def Layout.code (l : Layout) : Sect → List Placed
  | .ctl => l.ctl
  | .load => l.load
  | .comp => l.comp
  | .store => l.store
  | .gen => []
  | .data => []
  | .sync => []

/-- The location counter of the current section, where one runs (R108). -/
def Layout.counter (l : Layout) : Option Nat :=
  match l.sect, l.body with
  | some .gen, some (.image g) => some g.words.length
  | some .gen, _ => none
  | some .sync, _ => none
  | some .data, _ => some l.bytes
  | some s, _ => some (l.code s).length
  | none, _ => none

/-- A symbol defined once (R108). -/
def Layout.define (l : Layout) (d : Def) : Except Cause Layout :=
  if l.defs.any (fun x => x.name == d.name) then .error (.redefined d.name)
  else .ok { l with defs := l.defs ++ [d] }

/-- A label (R108). DEDUCED (log 53): one in .sync, before any section is opened, or in .gen outside an image has no location
counter, and is an error. -/
def Layout.defLabel (l : Layout) (num : Nat) (n : Name) : Except Cause Layout :=
  match l.sect, l.counter with
  | some s, some v =>
    l.define { name := n, line := num, type := s.type, label := true, val := .num (BitVec.ofNat 64 v) }
  | _, _ => .error .noCounter

/-- The words of a section's instruction memory (R117, R123). -/
def memoryWords : Sect → Nat
  | .ctl => 16384
  | .load => 8192
  | .comp => 32768
  | .store => 8192
  | .gen => 64
  | .data => 0
  | .sync => 0

/-- A code section with one more instruction. -/
def Layout.push (l : Layout) (s : Sect) (p : Placed) : Layout :=
  match s with
  | .ctl => { l with ctl := l.ctl ++ [p] }
  | .load => { l with load := l.load ++ [p] }
  | .comp => { l with comp := l.comp ++ [p] }
  | .store => { l with store := l.store ++ [p] }
  | .gen => l
  | .data => l
  | .sync => l

/-- An instruction of an engine section or of CTL, at its section's counter. -/
def Layout.placeWord (l : Layout) (num : Nat) (s : Sect) (w : Written) : Except Cause Layout :=
  if memoryWords s ≤ (l.code s).length then .error .codeSize
  else .ok (l.push s { line := num, at_ := (l.code s).length, w := w })

/-- An instruction (R109, R112, R113). No word follows a body's `end`. -/
def Layout.addInstr (l : Layout) (num : Nat) (w : Written) : Except Cause Layout :=
  match l.sect, l.body with
  | some .ctl, _ => l.placeWord num .ctl w
  | some .gen, some (.image g) =>
    if 64 ≤ g.words.length then .error .image
    else .ok { l with body := some (.image { g with words := g.words ++ [{ line := num, at_ := g.words.length, w := w }] }) }
  | some s, some (.frag f ended) =>
    if ended then .error .fragmentBody
    else ({ l with body := some (.frag f (w.mnemonic == "end")) }).placeWord num s w
  | _, _ => .error .misplaced

/-- `.fin` (R109, R112, R113). -/
def Layout.finish (l : Layout) : Except Cause Layout :=
  match l.body with
  | some (.frag f ended) =>
    if ended then .ok { l with body := none, frags := l.frags ++ [f] } else .error .fragmentBody
  | some (.image g) =>
    if g.words.isEmpty then .error .image else .ok { l with body := none, images := l.images ++ [g] }
  | none => .error .misplaced

/-- The zero bytes that reach a multiple of n. -/
def padding (at_ n : Nat) : Nat := (n - at_ % n) % n

/-- An alignment: a power of two from 1 to 65,536 (R109). -/
def isAlignment (v : BitVec 64) : Bool := (List.range 17).any (fun i => v == BitVec.ofNat 64 (2 ^ i))

/-- The value of a `.space` or `.align`, which may use symbols of earlier lines only (R108, R109). -/
def Layout.earlier (l : Layout) (num : Nat) (e : Expr) : Except Cause (BitVec 64) :=
  e.eval (lookIn (l.defs.filter (fun d => decide (d.line < num))))

/-- Zero bytes in `.data`. -/
def Layout.zeros (l : Layout) (n : Nat) : Layout :=
  { l with data := l.data ++ [.bytes (List.replicate n 0)], bytes := l.bytes + n }

/-- A statement (R109), on the line of a number. -/
def Layout.add (l : Layout) (num : Nat) : Stmt → Except Cause Layout
  | .enter s => if l.body.isSome then .error .misplaced else .ok { l with sect := some s }
  | .entry n =>
    if l.sect != some .ctl then .error .misplaced
    else if l.entry.isSome then .error .secondEntry
    else .ok { l with entry := some (num, n) }
  | .frag n i =>
    match l.sect, l.body with
    | some s, none =>
      if s.isEngine then do
        let l ← l.define { name := n, line := num, type := s.type, label := false, val := i }
        return { l with body := some (.frag { sect := s, line := num, index := i, start := (l.code s).length } false) }
      else .error .misplaced
    | _, _ => .error .misplaced
  | .generator n b p =>
    if l.sect != some .gen || l.body.isSome then .error .misplaced
    else if 16 < n.length || l.images.any (fun g => g.name == n) || decide (256 ≤ l.images.length) then .error .image
    else .ok { l with body := some (.image { name := n, line := num, bound := b, params := p, words := [] }) }
  | .fin => l.finish
  | .slot n v =>
    if l.body.isSome then .error .misplaced
    else do
      let l ← l.define { name := n, line := num, type := 0, label := false, val := v }
      return { l with slots := l.slots ++ [(num, n)] }
  | .declare i n =>
    if l.sect != some .sync then .error .misplaced else .ok { l with syncs := l.syncs ++ [(num, i, n)] }
  | .equ n v => l.define { name := n, line := num, type := 0, label := false, val := v }
  | .values w vs =>
    if l.sect != some .data then .error .misplaced
    else .ok { l with data := l.data ++ [.values num w vs], bytes := l.bytes + w * vs.length }
  | .ascii b =>
    if l.sect != some .data then .error .misplaced
    else .ok { l with data := l.data ++ [.bytes b], bytes := l.bytes + b.length }
  | .space n =>
    if l.sect != some .data then .error .misplaced
    else do
      let v ← l.earlier num n
      if v.toInt < 0 ∨ 2 ^ 63 ≤ l.bytes + v.toNat then throw .range else return l.zeros v.toNat
  | .align n =>
    if l.sect != some .data then .error .misplaced
    else do
      let v ← l.earlier num n
      if isAlignment v then return l.zeros (padding l.bytes v.toNat) else throw .alignment
  | .instr w => l.addInstr num w

/-- A line: its label, then its statement (R110). -/
def Layout.addLine (l : Layout) (x : Line) : Except Cause Layout := do
  let l ← match x.label with
    | some n => l.defLabel x.num n
    | none => .ok l
  match x.stmt with
  | some st => l.add x.num st
  | none => .ok l

/-- An error at a line, or a value. -/
abbrev AtLine (α : Type) := Except (Nat × Cause) α

/-- A cause, found at a line. -/
def onLine {α : Type} (num : Nat) : Except Cause α → AtLine α
  | .ok a => .ok a
  | .error e => .error (num, e)

/-- The lines of a source laid out, from a line number on. -/
def layLines : Nat → List (List Nat) → Layout → AtLine Layout
  | _, [], l => .ok l
  | num, b :: r, l => do
    let ls ← onLine num (lexLine b)
    let x ← onLine num (lineOf num ls)
    let l ← onLine num (l.addLine x)
    layLines (num + 1) r l

/-- The line that opens a body. -/
def OpenBody.line : OpenBody → Nat
  | .frag f _ => f.line
  | .image g => g.line

/-- What operands are read with in a section, at a word. -/
def Layout.ctx (l : Layout) (s : Sect) (here : Nat) : Ctx :=
  { sect := s, value := lookIn l.defs, here := here
    label := fun n =>
      match l.defs.find? (fun d => d.name == n && d.label && d.type == 1) with
      | some { val := .num v, .. } => some v.toNat
      | _ => none }

/-- The words of some instructions of a section. -/
def wordsOf (l : Layout) (s : Sect) (ps : List Placed) : AtLine (List Word) :=
  ps.mapM (fun p => onLine p.line ((instrOf (l.ctx s p.at_) p.w).map encode))

/-- Bytes of a number, the least significant first (R2). -/
def le (n v : Nat) : List Byte := (List.range n).map (fun i => BitVec.ofNat 8 (v / 256 ^ i))

/-- Bytes of words. -/
def bytesOfWords (ws : List Word) : List Byte := ws.flatMap (fun w => le 4 w.toNat)

/-- A name's bytes, cut to a length and padded with zero bytes to it (R119, R121). -/
def nameBytes (n : Name) (len : Nat) : List Byte :=
  let b := (n.take len).map (fun c => BitVec.ofNat 8 c.toNat)
  b ++ List.replicate (len - b.length) 0

/-- A value of an expression between bounds. -/
def Layout.bounded (l : Layout) (lo hi : Int) (e : Expr) : Except Cause Nat := do
  let v ← within lo hi (← e.eval (lookIn l.defs))
  return v.toNat

/-- The fragments' indices, each at most once in an engine section (R112). -/
def fragIndices (l : Layout) : List Fragment → List (Sect × Nat) → AtLine (List (Sect × Nat × Nat))
  | [], _ => .ok []
  | f :: r, seen => do
    let i ← onLine f.line (l.bounded 0 255 f.index)
    if seen.contains (f.sect, i) then throw (f.line, .fragmentIndex)
    let x ← fragIndices l r ((f.sect, i) :: seen)
    return (f.sect, i, f.start) :: x

/-- A jump-table entry (R22, R112): V and START of the fragment of an index, or zero. -/
def jumpEntry (fs : List (Sect × Nat × Nat)) (s : Sect) (i : Nat) : Nat :=
  match fs.find? (fun f => f.1 == s && f.2.1 == i) with
  | some f => 2 ^ 31 + f.2.2
  | none => 0

/-- The jump-table section (R118): the entries of LDS, CMP and STS. -/
def jumpTables (fs : List (Sect × Nat × Nat)) : List Byte :=
  [Sect.load, Sect.comp, Sect.store].flatMap (fun s => (List.range 256).flatMap (fun i => le 4 (jumpEntry fs s i)))

/-- One image of the generator section (R113, R119). -/
def imageBytes (l : Layout) (g : GenImage) : AtLine (List Byte) := do
  let b ← onLine g.line (l.bounded 1 256 g.bound)
  let p ← onLine g.line (l.bounded 0 4 g.params)
  let ws ← wordsOf l .gen g.words
  return nameBytes g.name 16 ++ le 2 ws.length ++ le 2 b ++ le 1 p ++ le 11 0 ++ bytesOfWords ws

/-- KIND and ID of a declaration (R120). -/
def itemId (l : Layout) : Item → Except Cause (Nat × Nat)
  | .fifo i => .ok (0, i)
  | .sem e => (l.bounded 0 15 e).map (fun i => (1, i))
  | .queue i => .ok (2, i)

/-- The entries of the synchronisation section, no item twice (R114, R120). -/
def syncBytes (l : Layout) : List (Nat × Item × Expr) → List (Nat × Nat) → AtLine (List Byte)
  | [], _ => .ok []
  | (num, i, e) :: r, seen => do
    let k ← onLine num (itemId l i)
    let v ← onLine num (l.bounded 0 (2 ^ 32 - 1) e)
    if seen.contains k then throw (num, .declaredTwice)
    let x ← syncBytes l r (k :: seen)
    return le 1 k.1 ++ le 1 k.2 ++ le 2 0 ++ le 4 v ++ x

/-- The bytes of one value of a data directive, which must fit read as signed or as unsigned (R109). -/
def valueBytes (l : Layout) (w : Nat) (e : Expr) : Except Cause (List Byte) := do
  let v ← e.eval (lookIn l.defs)
  let _ ← within (-(2 ^ (8 * w - 1))) (2 ^ (8 * w) - 1) v
  return le w v.toNat

/-- The bytes of a piece of `.data`. -/
def pieceBytes (l : Layout) : Piece → AtLine (List Byte)
  | .bytes b => .ok b
  | .values num w vs => onLine num ((vs.mapM (valueBytes l w)).map List.flatten)

/-- An entry of the symbols section (R121). -/
def symbolBytes (l : Layout) (d : Def) : AtLine (List Byte) := do
  let v ← onLine d.line (lookIn l.defs d.name)
  return nameBytes d.name 24 ++ le 1 d.type ++ le 3 0 ++ le 4 (v.toNat % 2 ^ 32)

/-- The CTL entry word: the label of `.entry`, or word 0 (R109). -/
def entryWord (l : Layout) : AtLine Nat :=
  match l.entry with
  | none => .ok 0
  | some (num, n) =>
    match (l.ctx .ctl 0).label n with
    | some v => .ok v
    | none => .error (num, .notCtlLabel)

/-- Sections laid out at multiples of 64 from an offset (R117): the table's entries, and the bytes from the offset. -/
def laySections : Nat → List (Nat × List Byte) → List Byte × List Byte
  | _, [] => ([], [])
  | o, (ty, b) :: r =>
    let p := padding o 64
    let x := laySections (o + p + b.length) r
    (le 4 ty ++ le 4 0 ++ le 8 (o + p) ++ le 8 b.length ++ le 8 0 ++ x.1, List.replicate p 0 ++ b ++ x.2)

/-- A container of some sections (R116, R117): header, section table at 64, sections. -/
def container (entry : Nat) (ss : List (Nat × List Byte)) : List Byte :=
  let o := 64 + 32 * ss.length
  let x := laySections o ss
  [0x5A, 0x56, 0x58, 0x31] ++ le 2 1 ++ le 2 64 ++ le 4 ss.length ++ le 4 0 ++ le 8 64 ++ le 4 entry ++ le 4 0 ++
    le 8 (o + x.2.length) ++ le 24 0 ++ x.1 ++ x.2

/-- A section, unless it is empty. -/
def unlessEmpty (ty : Nat) (b : List Byte) : List (Nat × List Byte) := if b.isEmpty then [] else [(ty, b)]

/-- The container of a source that is laid out (R107, R112 to R121). Every definition must have a value. -/
def emit (l : Layout) : AtLine (List Byte) := do
  if let some b := l.body then throw (b.line, .notClosed)
  let _ ← l.defs.mapM (fun d => onLine d.line (lookIn l.defs d.name))
  let _ ← l.slots.mapM (fun x => onLine x.1 (l.bounded 0 15 (.sym x.2)))
  let entry ← entryWord l
  let ctl ← wordsOf l .ctl l.ctl
  let load ← wordsOf l .load l.load
  let comp ← wordsOf l .comp l.comp
  let store ← wordsOf l .store l.store
  let fs ← fragIndices l l.frags []
  let images ← l.images.mapM (imageBytes l)
  let syncs ← syncBytes l l.syncs []
  let data ← l.data.mapM (pieceBytes l)
  let symbols ← l.defs.mapM (symbolBytes l)
  return container entry (
    [(1, bytesOfWords ctl)] ++ unlessEmpty 2 (bytesOfWords load) ++ unlessEmpty 3 (bytesOfWords comp) ++
    unlessEmpty 4 (bytesOfWords store) ++
    (if images.isEmpty then [] else [(5, le 4 images.length ++ le 4 0 ++ images.flatten)]) ++
    (if l.frags.isEmpty then [] else [(6, jumpTables fs)]) ++
    (if l.syncs.isEmpty then [] else [(7, le 4 l.syncs.length ++ le 4 0 ++ syncs)]) ++
    unlessEmpty 8 data.flatten ++
    (if l.slots.isEmpty then [] else [(9, symbols.flatten)]))

/-- The phas assembler (R104 to R121): the container of a source, or the message of an error. -/
def assemble (file : String) (src : List Byte) : Except Diagnostic (List Byte) :=
  match layLines 1 (splitLines (src.map BitVec.toNat) []) { } with
  | .error e => .error { file := file, line := e.1, cause := e.2 }
  | .ok l =>
    match emit l with
    | .error e => .error { file := file, line := e.1, cause := e.2 }
    | .ok b => .ok b

end Sys2Proof.Phas
end

