-- ==== Sys2Proof/Laws/Phas.lean ====
section
/-!
SUPPORT. Laws of the assembler: what it emits is well formed, `hi16` and `lo16` build a 32-bit value (R107), and how long
the parts of a container are (R116 to R118).
-/

namespace Sys2Proof.Phas

/-- Every instruction the assembler makes is well formed. -/
theorem instrOf_wf {c : Ctx} {w : Written} {i : Instr} (h : instrOf c w = .ok i) : i.wf = true := by
  unfold instrOf at h
  split at h
  · cases h
  · dsimp only at h
    repeat' split at h
    all_goals cases h
    assumption

/-- R107: LUI's value of `hi16(x)` and ADDI's of `lo16(x)` add up to x[31:0] sign-extended, except for an x[31:0] from
0x7FFF_8000 to 0x7FFF_FFFF, where R143 gives LUI a negative value (log 54). -/
theorem hi16_lo16 (x : BitVec 64) (h : x.toNat % 2 ^ 32 < 0x7FFF8000 ∨ 0x80000000 ≤ x.toNat % 2 ^ 32) :
    ((UnOp.hi16.eval x).extractLsb' 0 16).signExtend 64 <<< 16 + UnOp.lo16.eval x =
      (x.extractLsb' 0 32).signExtend 64 := by
  apply BitVec.eq_of_toNat_eq
  simp only [UnOp.eval, BitVec.toNat_add, BitVec.toNat_signExtend, BitVec.msb_eq_decide, BitVec.toNat_shiftLeft,
    BitVec.extractLsb'_toNat, BitVec.toNat_setWidth, BitVec.ofNat_eq_ofNat, BitVec.toNat_ofNat,
    Nat.shiftRight_eq_div_pow, Nat.shiftLeft_eq, decide_eq_true_eq, Nat.reducePow, Nat.reduceMod, Nat.div_one,
    Nat.reduceSub]
  have hx := x.isLt
  generalize x.toNat = n at h hx ⊢
  have hi : (n + 32768) % 18446744073709551616 / 65536 % 65536 % 18446744073709551616 % 65536 =
      (n + 32768) / 65536 % 65536 := by omega
  rw [hi]
  clear hi
  have ha : (n + 32768) / 65536 % 65536 = (n % 4294967296 / 65536 + (n % 65536 + 32768) / 65536) % 65536 := by omega
  have hm : n % 4294967296 = 65536 * (n % 4294967296 / 65536) + n % 65536 := by omega
  have hq : n % 4294967296 / 65536 < 65536 := by omega
  have hr : n % 65536 < 65536 := by omega
  norm_num only at h
  rw [hm] at h
  rw [ha, hm]
  clear ha hm
  generalize n % 4294967296 / 65536 = q at h hq ⊢
  generalize n % 65536 = r at h hr ⊢
  have hlt : 65536 * q + r < 18446744073709551616 := by omega
  rw [show (65536 * q + r) / 65536 = q by omega, Nat.mod_eq_of_lt hlt, Nat.mod_eq_of_lt (show r < 18446744073709551616 by omega)]
  by_cases hs : 32768 ≤ r
  · have e : (r + 32768) / 65536 = 1 := by omega
    rw [e, if_pos hs]
    by_cases h1 : q + 1 = 65536
    · simp only [h1, Nat.mod_self]
      repeat' split
      all_goals omega
    · rw [Nat.mod_eq_of_lt (show q + 1 < 65536 by omega), Nat.mod_eq_of_lt (show q + 1 < 18446744073709551616 by omega)]
      repeat' split
      all_goals omega
  · have e : (r + 32768) / 65536 = 0 := by omega
    rw [e, if_neg hs, Nat.add_zero, Nat.mod_eq_of_lt hq, Nat.mod_eq_of_lt (show q < 18446744073709551616 by omega)]
    repeat' split
    all_goals omega

@[simp] theorem le_length (n v : Nat) : (le n v).length = n := by simp [le]

/-- The section table has 32 bytes an entry (R117). -/
theorem laySections_table_length (ss : List (Nat × List Byte)) (o : Nat) :
    (laySections o ss).1.length = 32 * ss.length := by
  induction ss generalizing o with
  | nil => rfl
  | cons s r ih =>
    obtain ⟨ty, b⟩ := s
    simp only [laySections, List.length_append, le_length, List.length_cons, ih]
    omega

/-- A container's length is the SIZE that its header holds (R116). -/
theorem container_length (e : Nat) (ss : List (Nat × List Byte)) :
    (container e ss).length = 64 + 32 * ss.length + (laySections (64 + 32 * ss.length) ss).2.length := by
  simp only [container, List.length_append, le_length, laySections_table_length, List.length_cons, List.length_nil]

/-- The jump-table section has 3,072 bytes (R118). -/
theorem jumpTables_length (fs : List (Sect × Nat × Nat)) : (jumpTables fs).length = 3072 := by
  have h : ∀ s : Sect, ((List.range 256).flatMap (fun i => le 4 (jumpEntry fs s i))).length = 1024 := by
    intro s
    rw [List.length_flatMap]
    simp only [le_length, List.map_const', List.length_range, List.sum_replicate, smul_eq_mul, Nat.reduceMul]
  simp only [jumpTables, List.flatMap_cons, List.flatMap_nil, List.length_append, h, List.length_nil]

end Sys2Proof.Phas
end

