-- ==== Sys2Proof/Tests/Slice0.lean ====
section
/-!
SUPPORT. The model's own tests: words written out from the encoding tables, instructions that WellFormed and the
decoder refuse, states that meet the hypotheses of the statements, and single steps whose results the specification
gives.
-/

namespace Sys2Proof.Tests

set_option Elab.async false

open Sys2Proof Sys2Proof.Machine

/-! ### Decoding: words written out from R123 to R138, the specification's printed words first -/

/-- Each word decodes to its instruction, and the instruction encodes to the word. -/
def reads (f : Fetch) (l : List (Nat × Instr)) : Bool :=
  l.all (fun p => (match decodeWord f (BitVec.ofNat 32 p.1) with
    | .ok i => decide (i = p.2)
    | .error _ => false) && p.2.wf && decide (encode p.2 = BitVec.ofNat 32 p.1))

theorem test_decode_ctl_0 : reads .ctl [
    (0x2420789B, .lui 1 0x789B), (0x0821BCDE, .addi 1 1 0xBCDE), (0x28203456, .lih 1 0x3456),
    (0x20420020, .shli 2 2 false 32), (0x04211003, .or 1 1 2 false), (0x58A2FFF8, .ldd 5 2 0xFFF8),
    (0x8020FFFD, .beq 1 0 0xFFFD), (0x7064305A, .amofadd 3 4 6 true .d), (0x20830146, .shri 4 3 true 6),
    (0x50620000, .ldw 3 2 0), (0xB0000880, .disp .lds 0 1 2), (0xB1000880, .disp .cmp 0 1 2), (0xC4000002, .exit),
    (0xB10009C0, .disp .cmp 0 1 7), (0xCC041800, .gload 4 3), (0xCC001801, .gfree 3), (0xCC081802, .gparam 8 3),
    (0x06264800, .add 17 6 9 false), (0x06264841, .sub 17 6 9 true), (0x06264802, .and 17 6 9 false),
    (0x06264843, .or 17 6 9 true), (0x06264804, .xor 17 6 9 false), (0x06264845, .shl 17 6 9 true),
    (0x06264806, .shr 17 6 9 false), (0x06264847, .sra 17 6 9 true)] = true := by
  decide +kernel

theorem test_decode_ctl_1 : reads .ctl [
    (0x06264808, .rol 17 6 9 false), (0x06264849, .slt 17 6 9 true), (0x0626480A, .sltu 17 6 9 false),
    (0x0626484B, .min 17 6 9 true), (0x0626480C, .max 17 6 9 false), (0x0626484D, .minu 17 6 9 true),
    (0x0626480E, .maxu 17 6 9 false), (0x047E004F, .clz 3 30 true), (0x047E0050, .ctz 3 30 true),
    (0x047E0051, .popc 3 30 true), (0x0A458001, .addi 18 5 32769), (0x0E458002, .slti 18 5 32770),
    (0x12458003, .sltiu 18 5 32771), (0x16458004, .andi 18 5 32772), (0x1A458005, .ori 18 5 32773),
    (0x1E458006, .xori 18 5 32774), (0x20E8011F, .shli 7 8 true 31), (0x20E8015F, .shri 7 8 true 31),
    (0x20E8019F, .srai 7 8 true 31), (0x20E801DF, .roli 7 8 true 31), (0x27E08000, .lui 31 0x8000), (0x2A000001, .lih 16 1),
    (0x2C22A040, .mul 1 2 20 true), (0x2C22A001, .mulh 1 2 20), (0x2C22A002, .mulhu 1 2 20)] = true := by
  decide +kernel

theorem test_decode_ctl_2 : reads .ctl [
    (0x2C22A043, .div 1 2 20 true), (0x2C22A044, .divu 1 2 20 true), (0x2C22A045, .rem 1 2 20 true),
    (0x2C22A046, .remu 1 2 20 true), (0x4095FFF0, .ldb 4 21 65520), (0x4495FFF1, .ldbu 4 21 65521),
    (0x4895FFF2, .ldh 4 21 65522), (0x4C95FFF3, .ldhu 4 21 65523), (0x5095FFF4, .ldw 4 21 65524),
    (0x5495FFF5, .ldwu 4 21 65525), (0x5895FFF6, .ldd 4 21 65526), (0x62C30010, .stb 22 3 16), (0x66C30011, .sth 22 3 17),
    (0x6AC30012, .stw 22 3 18), (0x6EC30013, .std 22 3 19), (0x712A5840, .amoadd 9 10 11 true .w),
    (0x712A5811, .amoand 9 10 11 false .d), (0x712A5802, .amoor 9 10 11 false .w), (0x712A5853, .amoxor 9 10 11 true .d),
    (0x712A5804, .amomin 9 10 11 false .w), (0x712A5815, .amomax 9 10 11 false .d), (0x712A5846, .amominu 9 10 11 true .w),
    (0x712A5817, .amomaxu 9 10 11 false .d), (0x712A5808, .amoswap 9 10 11 false .w),
    (0x712A5859, .amocas 9 10 11 true .d)] = true := by
  decide +kernel

theorem test_decode_ctl_3 : reads .ctl [
    (0x712A580A, .amofadd 9 10 11 false .w), (0x712A58A8, .amonswap 9 10 11 true false),
    (0x712A5868, .amonswap 9 10 11 false true), (0x740CFF80, .cwb 12 0xFF80), (0x742CFF80, .cinv 12 0xFF80),
    (0x744CFF80, .cwbinv 12 0xFF80), (0x746CFF80, .cpref 12 0xFF80), (0x81AE7FF0, .beq 13 14 32752),
    (0x85AE7FF1, .bne 13 14 32753), (0x89AE7FF2, .blt 13 14 32754), (0x8DAE7FF3, .bge 13 14 32755),
    (0x91AE7FF4, .bltu 13 14 32756), (0x95AE7FF5, .bgeu 13 14 32757), (0x9BFFFFFE, .jal 0x3FFFFFE),
    (0x9CA6FFFF, .jalr 5 6 0xFFFF), (0xA00F012C, .loop 15 300), (0xB2C81FC0, .disp .sts 200 3 31),
    (0xB4002140, .dispx .lds 4 5), (0xB8090000, .qcancel 9), (0xB8000001, .qdrain), (0xB9400002, .qstatrd 10),
    (0xC0097800, .semadd 9 15), (0xC0097001, .semwait 9 14), (0xC0642802, .rflag 3 4 5),
    (0xC0DE4003, .mflag 6 30 8)] = true := by
  decide +kernel

theorem test_decode_ctl_4 : reads .ctl [
    (0xC4070000, .spawn 7), (0xC4074001, .waitev 7 8), (0xC4074003, .sigev 7 8), (0xC8220000, .hopen 1 2),
    (0xC8220001, .hwin 1 2), (0xC8020002, .hset 2), (0xC8020043, .hresolve 2 true), (0xC8020003, .hresolve 2 false),
    (0xC8021804, .hcommit 2 3), (0xC8820005, .hstat 4 2), (0xCC1C7802, .gparam 28 15), (0xD0220000, .palloc 1 2),
    (0xD0020001, .pfree 2), (0xD0221802, .tltset 1 2 3), (0xD0020003, .tltuse 2), (0xD1E21804, .mapw 15 2 3),
    (0xD1C00005, .unmapw 14), (0xE1200021, .csrd 9 0x21), (0xE4090034, .cswr 9 0x34), (0xE80B0000, .trap 11),
    (0xE8000001, .rett), (0xE8000002, .brk), (0xE8040003, .fence 4), (0xE8000004, .wfe)] = true := by
  decide +kernel

theorem test_decode_lds_0 : reads .lds [
    (0x00800000, .xferNop { sn := true }), (0x08000000, .xferEnd { }),
    (0x12844303, .copy { wn := true, sn := true } 1 2 3 .glob .abuf true), (0x280C4000, .boxld { } 3 2),
    (0x30042600, .aadd { } 1 1 6), (0x4A1C2000, .xferSemwait { wn := true } 1 (.a 7)), (0x58140003, .loopt { } 5 3),
    (0x388FFFFE, .ali { sn := true } 3 0x3FFFE), (0x10900002, .copy { sn := true } 4 0 0 .glob .abuf false),
    (0x02800000, .xferNop { wn := true, sn := true }), (0x1A3DC702, .gath { wn := true } 15 14 7 .glob .abuf false),
    (0x281D2000, .boxld { } 7 9), (0x3816AAA5, .ali { } 5 0x2AAA5), (0x4841E0C8, .xferSemwait { } 15 (.imm 200)),
    (0x50986000, .xferSemadd { sn := true } 3 (.a 6)), (0x68940000, .mdec { sn := true } 5),
    (0x70180508, .pref { } 6 5 .abuf), (0x789C0204, .zero { sn := true } 7 2 .wbuf)] = true := by
  decide +kernel

theorem test_decode_sts_0 : reads .sts [
    (0x11048018, .copy { sp := true } 1 4 0 .cbuf .glob false), (0x504040FF, .xferSemadd { } 2 (.imm 0xFF)),
    (0x48400001, .xferSemwait { } 0 (.imm 1)), (0x0D000000, .xferEnd { wp := true, sp := true }),
    (0x24358619, .scat { wp := true } 13 12 6 .cbuf .glob true), (0x31212A00, .aadd { sp := true } 8 9 10),
    (0x400D6000, .amov { } 3 11), (0x580800FF, .loopt { } 2 255), (0x65100000, .coll { wp := true, sp := true } 4),
    (0x80240000, .tuse { } 9)] = true := by
  decide +kernel

theorem test_decode_cmp_0 : reads .cmp [
    (0x03072143, .vmax { } { neg := true, reg := 2 } 4 5 (.k 1)), (0xA4048502, .mma { wp := true, sn := true } 1 2 5 2),
    (0xD1470007, .cmpSemwait { wn := true } 3 (.imm 7)), (0x80CC1178, .mdrain { } 3 17 .rz true true 2),
    (0x21800886, .vadd { wp := true } { reg := 3 } 1 2 (.v 3)), (0xC0200000, .cmpEnd { }), (0x80404002, .mmaz { } 0 1 0 2),
    (0x80C80000, .mdrain { } 2 0 .rne false false 0), (0x81000000, .mseal { }), (0x81400000, .msettle { } 0),
    (0x40002034, .vld { } { } 1 3 .abuf .plain), (0xC0C80018, .kli { } 4 24), (0xE0000000, .cmpNop { wp := true }),
    (0xC18E0003, .loopk { } 7 3), (0xC0814800, .smod { } 0 .addcol0 4), (0xC0832800, .smod { } 1 .addrow0 4),
    (0xC1610001, .cmpSemadd { } 0 (.imm 1)), (0xC206A000, .gstat { } 3 5), (0xC0622000, .sld { } 1 1 .glob),
    (0x1100F822, .vadd { wn := true } { reg := 2 } 31 0 (.v 17)),
    (0x0A810F93, .vsub { sp := true } { neg := true, reg := 1 } 1 30 (.k 9)),
    (0x1102F8A2, .vmul { wn := true } { reg := 2 } 31 2 (.v 17)),
    (0x0A831F93, .vmulh { sp := true } { neg := true, reg := 1 } 3 30 (.k 9)),
    (0x1104F922, .vfma { wn := true } { reg := 2 } 31 4 (.v 17)),
    (0x0A852F93, .vfms { sp := true } { neg := true, reg := 1 } 5 30 (.k 9))] = true := by
  decide +kernel

theorem test_decode_cmp_1 : reads .cmp [
    (0x1106F9A2, .vmin { wn := true } { reg := 2 } 31 6 (.v 17)),
    (0x0A873F93, .vmax { sp := true } { neg := true, reg := 1 } 7 30 (.k 9)),
    (0x110AFAA2, .vdiv { wn := true } { reg := 2 } 31 10 (.v 17)),
    (0x1110FC22, .vand { wn := true } { reg := 2 } 31 16 (.v 17)),
    (0x0A918F93, .vor { sp := true } { neg := true, reg := 1 } 17 30 (.k 9)),
    (0x1112FCA2, .vxor { wn := true } { reg := 2 } 31 18 (.v 17)),
    (0x1114FD22, .vshl { wn := true } { reg := 2 } 31 20 (.v 17)),
    (0x0A95AF93, .vshr { sp := true } { neg := true, reg := 1 } 21 30 (.k 9)),
    (0x1116FDA2, .vsra { wn := true } { reg := 2 } 31 22 (.v 17)),
    (0x0A97BF93, .vfshl { sp := true } { neg := true, reg := 1 } 23 30 (.k 9)),
    (0x1118FE22, .vfshr { wn := true } { reg := 2 } 31 24 (.v 17)),
    (0x0A9BDF93, .vsel { sp := true } { neg := true, reg := 1 } 27 30 (.k 9)),
    (0x1122F8A2, .vadds { wn := true } { reg := 2 } 31 2 (.v 17)),
    (0x0AA31F93, .vsubs { sp := true } { neg := true, reg := 1 } 3 30 (.k 9)),
    (0x0AA94F93, .vbcast { sp := true } { neg := true, reg := 1 } 9 30 (.k 9)),
    (0x0AAB5F93, .vaccept { sp := true } { neg := true, reg := 1 } 11 30 (.k 9)),
    (0x0AAD6F93, .vhash { sp := true } { neg := true, reg := 1 } 13 30 (.k 9)),
    (0x0388AA00, .vabs { } { neg := true, reg := 3 } 21 8), (0x0389AA40, .vneg { } { neg := true, reg := 3 } 21 9),
    (0x038BAAC0, .vsqrt { } { neg := true, reg := 3 } 21 11), (0x038CAB00, .vrcp { } { neg := true, reg := 3 } 21 12),
    (0x038DAB40, .vrsq { } { neg := true, reg := 3 } 21 13), (0x038EAB80, .vexp2 { } { neg := true, reg := 3 } 21 14),
    (0x038FABC0, .vlog2 { } { neg := true, reg := 3 } 21 15),
    (0x0393ACC0, .vnot { } { neg := true, reg := 3 } 21 19)] = true := by
  decide +kernel

theorem test_decode_cmp_2 : reads .cmp [
    (0x0399AE40, .vclz { } { neg := true, reg := 3 } 21 25), (0x039AAE80, .vpopc { } { neg := true, reg := 3 } 21 26),
    (0x039CAF00, .vmov { } { neg := true, reg := 3 } 21 28), (0x03A4A900, .vredsum { } { neg := true, reg := 3 } 21 4),
    (0x03A5A940, .vredmax { } { neg := true, reg := 3 } 21 5), (0x03A6A980, .vredmin { } { neg := true, reg := 3 } 21 6),
    (0x03A7A9C0, .vscan { } { neg := true, reg := 3 } 21 7), (0x03A8AA00, .vscanx { } { neg := true, reg := 3 } 21 8),
    (0x03AEAB80, .vunif { } { neg := true, reg := 3 } 21 14), (0x041D1912, .vcvt { sn := true } { } 3 4 .k8),
    (0x009E3A12, .vcmpeq { } { reg := 1 } 7 8 (.v 9)), (0x009F3213, .vcmplt { } { reg := 1 } 6 8 (.k 9)),
    (0x00A02A12, .vcmple { } { reg := 1 } 5 8 (.v 9)), (0x00A12213, .vcmpne { } { reg := 1 } 4 8 (.k 9)),
    (0x002C2980, .vfirst { } { } 5 6), (0x3C2A6000, .viota { wp := true, wn := true, sp := true, sn := true } { } 12),
    (0x40026045, .vld { } { } 19 4 .abuf .waitFull), (0x4006604B, .vst { } { } 19 4 .wbuf .setFull),
    (0x630A80FA, .vldi { wp := true } { neg := true, reg := 2 } 20 15 .wbuf .clearOnRead),
    (0x400E8060, .vsti { } { } 20 6 .glob .plain), (0x4026806C, .vldb { } { } 20 6 .cbuf .plain),
    (0x40102027, .vstu { } { } 1 2 .abuf .setFull), (0x40142234, .vgath { } { } 1 2 3 .abuf),
    (0x40188568, .vscat { } { } 4 5 6 .wbuf), (0x419CE809, .vpart { } { reg := 3 } 7 8 9)] = true := by
  decide +kernel

theorem test_decode_cmp_3 : reads .cmp [
    (0x4020E800, .vperm { } { } 7 8), (0x402520A8, .vldb { } { } 9 10 .wbuf .plain), (0x807BFFFF, .mmaz { } 14 15 63 255),
    (0x8C848304, .mmv { sp := true, sn := true } 1 2 3 4), (0x80E421D0, .mdrain { } 9 33 .ru false true 0),
    (0x85000000, .mseal { sn := true }), (0x81400007, .msettle { } 7), (0x81802D00, .accz { } 45),
    (0x81D80700, .accld { } 6 7), (0xC055EE00, .shape { } .k4 .ru true 5 12), (0xC0647000, .sld { } 2 3 .wbuf),
    (0xC08EF000, .smod { } 7 .seed 8), (0xC0A25FFF, .kadd { } 1 2 0x1FFF), (0xC0C70001, .kli { } 3 0x10001),
    (0xE0E8A000, .kmov { wp := true } 4 5), (0xC1063F80, .vli { } 6 0x3F80), (0xC1240000, .pset { } 1 .all),
    (0xC1290000, .pset { } 2 .none), (0xC12E4000, .pset { } 3 (.first 4)), (0xC13F5000, .pset { } 7 (.bits 5)),
    (0xC1466000, .cmpSemwait { } 3 (.k 6)), (0xC168F000, .cmpSemadd { } 4 (.k 15)), (0xC18BFFFF, .loopk { } 5 0x1FFFF),
    (0xC1ACE000, .fragsel { } 6 7), (0xC1C8E000, .histrd { } 8 3 true)] = true := by
  decide +kernel

theorem test_decode_cmp_4 : reads .cmp [
    (0xC1ECD000, .feclr { } .abuf 9 10)] = true := by
  decide +kernel

theorem test_decode_gen_0 : reads .gen [
    (0x424C4000, .genHash 9 3 1), (0x74140003, .genLoop 5 3), (0x0E454000, .genMul 9 1 5), (0x06648000, .genAdd 9 9 2),
    (0x66A40000, .genRade 10 9), (0x56A98000, .genFmul 10 10 6), (0x78280000, .genOut 10), (0x264E4000, .genShr 9 3 9),
    (0x6AA80000, .genFneg 10 10), (0x32C80001, .genAddi 11 2 1), (0x742C0001, .genLoop 11 1), (0x52A94000, .genFadd 10 10 5),
    (0x0475C000, .genAdd 1 13 7), (0x08B5C000, .genSub 2 13 7), (0x0CF5C000, .genMul 3 13 7), (0x1135C000, .genMulhu 4 13 7),
    (0x1575C000, .genAnd 5 13 7), (0x19B5C000, .genOr 6 13 7), (0x1DF5C000, .genXor 7 13 7), (0x2235C000, .genShl 8 13 7),
    (0x2675C000, .genShr 9 13 7), (0x2AB5C000, .genSra 10 13 7), (0x2EF5C000, .genRotl 11 13 7),
    (0x4035C000, .genHash 0 13 7), (0x48B5C000, .genSltu 2 13 7)] = true := by
  decide +kernel

theorem test_decode_gen_1 : reads .gen [
    (0x4CF5C000, .genSlt 3 13 7), (0x5135C000, .genFadd 4 13 7), (0x5575C000, .genFmul 5 13 7),
    (0x6EF5C000, .genFmin 11 13 7), (0x7335C000, .genFmax 12 13 7), (0x4475C000, .genSel 1 13 7),
    (0x59B5C000, .genFfma 6 13 7), (0x30483FFE, .genAddi 1 2 0x3FFE), (0x34D02001, .genXori 3 4 0x2001),
    (0x39402000, .genLi 5 0x2000), (0x3D801FE0, .genLui 6 0x1FE0), (0x5C7C0000, .genI2f 1 15), (0x60B80000, .genUnif 2 14),
    (0x64F40000, .genRade 3 13), (0x69300000, .genFneg 4 12), (0x7420003F, .genLoop 8 63),
    (0x7C240000, .genOuti 9)] = true := by
  decide +kernel

/-! ### Refusals -/

/-- A word is refused with a reason. -/
def refuses (f : Fetch) (w : Nat) (r : Reject) : Bool :=
  match decodeWord f (BitVec.ofNat 32 w) with
  | .ok _ => false
  | .error e => e == r

/-- R124, R125 and the faulting words that the specification takes apart. -/
theorem test_refusals :
    refuses .ctl 0 .zeroWord ∧ refuses .lds 0 .zeroWord ∧ refuses .sts 0 .zeroWord ∧ refuses .cmp 0 .zeroWord ∧
    refuses .gen 0 .zeroWord ∧ refuses .sts 0x12844303 .reservedField ∧ refuses .cmp 0x80CC116C .reservedField ∧
    refuses .gen 0x74140043 .reservedField ∧ refuses .lds 0x50620000 .reservedField ∧
    refuses .cmp 0x50620000 .unallocatedOpcode ∧ refuses .cmp 0x388FFFFE .reservedField ∧
    refuses .ctl 0xC0000040 .reservedField ∧ refuses .ctl 0xC0000005 .unallocatedFunction ∧
    refuses .ctl 0x30000000 .unallocatedOpcode ∧ refuses .gen 0x80000000 .unallocatedOpcode := by decide +kernel

/-- One term that each check of WellFormed refuses. -/
theorem test_ill_formed :
    [Instr.shli 1 1 true 32, .shri 1 1 true 32, .srai 1 1 true 63, .roli 1 1 true 40, .loop 1 0, .mflag 1 31 0, .gparam 29 0,
     .fence 5, .xferNop { }, .xferNop { wp := true, sn := true }, .xferEnd { wn := true, wp := true },
     .copy { wn := true, sp := true } 0 0 0 .glob .abuf false, .gath { wn := true, sp := true } 0 0 0 .glob .abuf false,
     .scat { wn := true, sp := true } 0 0 0 .glob .abuf false, .boxld { wn := true, sp := true } 0 0,
     .aadd { wn := true, sp := true } 0 0 0, .ali { wn := true, sp := true } 0 0, .amov { wn := true, sp := true } 0 0,
     .xferSemwait { wn := true, sp := true } 0 (.imm 0), .xferSemadd { wn := true, sp := true } 0 (.imm 0),
     .loopt { wn := true, sp := true } 0 1, .loopt { } 0 0, .coll { wn := true, sp := true } 0, .mdec { wn := true, sp := true } 0,
     .pref { wn := true, sp := true } 0 0 .glob, .zero { wn := true, sp := true } 0 0 .glob, .tuse { wn := true, sp := true } 0,
     .vadd { } { } 0 0 (.v 0), .vcmpeq { } { } 0 1 (.v 1), .vcmplt { } { } 0 1 (.v 1), .vcmple { } { } 0 1 (.v 1),
     .vcmpne { } { } 0 1 (.v 1), .vld { } { } 0 0 .cbuf .waitFull, .vst { } { } 0 0 .glob .setFull,
     .vldi { } { } 0 0 .glob .clearOnRead, .vsti { } { } 0 0 .cbuf .setFull, .vstu { } { } 0 0 .cbuf .setFull,
     .vldb { } { } 0 0 .glob .waitFull, .mdrain { } 0 0 .rne false false 1, .shape { } .a64 .rne false 0 0, .sld { } 0 0 .cbuf,
     .pset { } 0 .all, .loopk { } 0 0, .feclr { } .glob 0 0, .feclr { } .cbuf 0 0, .genLoop 0 0].all (fun i => !i.wf) = true := by
  decide +kernel


/-! ### A small device -/

/-- What an access answers, tested. -/
def okAnd {ε α : Type} (x : Except ε α) (p : α → Bool) : Bool :=
  match x with
  | .ok a => p a
  | .error _ => false

/-- The next state, tested. -/
def nextAnd (o : Out) (p : State → Bool) : Bool :=
  match o with
  | .next t => p t
  | .fault _ => false
  | .refused _ => false

theorem exists_ok {ε α : Type} {x : Except ε α} {p : α → Bool} (h : okAnd x p = true) : ∃ a, x = .ok a ∧ p a = true := by
  cases x with
  | ok a => exact ⟨a, rfl, h⟩
  | error e => exact absurd h (by simp [okAnd])

/-- A task of context 0 in world 0. -/
def task0 : Task :=
  { slot := 0, taskid := 1, team := 0, ctx := 0, world := 0, jtEmpty := 0, spill := 0x100000, ringLog := 2, spqLog := 4,
    prio := 0, bufPres := false }

/-- A READY device whose core 0 runs that task. The tables of context 0 map the lowest 512 MiB to themselves by one leaf
with V, R, W and X (R61, R62). -/
def dev : State :=
  { State.reset with
    boot := .ready, cores := State.reset.cores.set 0 { task := some task0 }
    mem := [(0, 1), (2, 2), (0x20000, 1), (0x20002, 3), (0x30000, 0x4F)] }

/-- The same with other registers, queues and memories on core 0. -/
def devWith (f : Core → Core) : State := dev.onCore 0 f

/-- CMP runs, a token of each kind is there, and CMP has a command. -/
def cmpDev : State :=
  { devWith (fun k => { k with ltoc := [false], ctol := [false], ctos := [false], stoc := [false] }.onEng .cmp
      (fun g => { g with cur := some { cmd := { count := 1 }, iter := 0, serial := 1 } })) with actSeq := .cmp }

/-- LDS runs a command. -/
def ldsDev : State :=
  { devWith (fun k => { k with ctol := [false] }.onEng .lds
      (fun g => { g with cur := some { cmd := { count := 1 }, iter := 0, serial := 1 } })) with actSeq := .lds }

/-- STS runs a command. -/
def stsDev : State :=
  { devWith (fun k => { k with ctos := [false] }.onEng .sts
      (fun g => { g with cur := some { cmd := { count := 1 }, iter := 0, serial := 1 } })) with actSeq := .sts }

/-- Its memory is in canonical form, and no id is resolved. -/
theorem test_dev_wf : dev.memWf ∧ dev.falls = [] := by decide +kernel

/-- A word that waits on tokens finds them (R26). -/
theorem witness_takes :
    cmpDev.takes { wp := true, wn := true, sn := true } ∧ cmpDev.takes { } ∧ ldsDev.takes { wn := true } ∧
      stsDev.takes { wp := true } :=
  ⟨⟨by decide +kernel, by decide +kernel⟩, ⟨by decide +kernel, by decide +kernel⟩, ⟨by decide +kernel, by decide +kernel⟩,
    ⟨by decide +kernel, by decide +kernel⟩⟩

/-! ### Witnesses: states that meet the hypotheses of the statements -/

theorem witness_RoundTripEngines :
    (Instr.roli 1 2 true 31).sect = .ctl ∧ (Instr.roli 1 2 true 31).wf = true ∧
      (Instr.xferSemadd { sp := true } 15 (.imm 0xFF)).sect = .xfer ∧ (Instr.xferSemadd { sp := true } 15 (.imm 0xFF)).wf = true ∧
      (Instr.mdrain { wp := true } 15 63 .ru true true 3).sect = .cmp ∧
      (Instr.mdrain { wp := true } 15 63 .ru true true 3).wf = true ∧
      (Instr.genLoop 15 63).sect = .gen ∧ (Instr.genLoop 15 63).wf = true := by decide +kernel

/-- Core 0's CTL moves next. -/
def ctlNext (w : Word) : State :=
  { devWith (fun k => { k with imemCtl := Cells.write 0 [] 0 w }) with schedule := [{ clocks := 3, act := .seq 0 .ctl }] }

/-- An access of CTL of core 0 under way to the page at 2^51 of PCIe space. -/
def farPost (k : PostKind) : Post :=
  { num := 4, who := { dev.ctlWho with agent := .seq 0 .ctl }, va := 0x20000000, kind := k
    leaf := { pa := 2 ^ 51, r := true, w := true, x := true, mside := false, filter := false, enc := 0, fab := false, dev := none } }

/-- What a turn of a core's CTL needs. -/
def ctlReady (s : State) : Bool :=
  (s.core 0).task == some task0 && !(s.core 0).sealed && !(s.core 0).hold && (s.core 0).ctl.hcur == 0 &&
    (s.core 0).ctl.answer == none && !(s.core 0).faultDue && (s.core 0).ctl.wait == .none && decide ((s.core 0).ctl.pc < 16384)

/-- Core 0's CTL at EXIT, at FENCE 4 behind a write under way, and at no instruction. -/
theorem witness_CtlTurnRuns :
    (ctlNext 0xC4000002).schedule = { clocks := 3, act := .seq 0 .ctl } :: [] ∧
      ctlReady (ctlNext 0xC4000002) = true ∧ decodeWord .ctl 0xC4000002 = .ok .exit ∧
      (ctlNext 0xC4000002).pending (.seq 0 .ctl) .exit = false ∧
      ctlReady { ctlNext 0xE8040003 with posted := [farPost (.write [1])] } = true ∧
      decodeWord .ctl 0xE8040003 = .ok (.fence 4) ∧
      ({ ctlNext 0xE8040003 with posted := [farPost (.write [1])] } : State).pending (.seq 0 .ctl) (.fence 4) = true ∧
      ctlReady (ctlNext 0) = true ∧ decodeWord .ctl 0 = .error .zeroWord ∧ (ctlNext 0).posted = [] := by decide +kernel

theorem test_ctl_exit : nextAnd (step (ctlNext 0xC4000002)) (fun t => (t.core 0).task.isNone && t.clock == 3) = true := by
  decide +kernel

/-- The zero word of a task without a handler ends it (R125, R160). -/
theorem test_ctl_zero_word : nextAnd (step (ctlNext 0)) (fun t => (t.core 0).task.isNone) = true := by decide +kernel

/-- LDS moves next. -/
def ldsNext (w : Word) : State :=
  { devWith (fun k => { k with imemLds := Cells.write 0 [] 0 w }.onEng .lds
      (fun g => { g with cur := some { cmd := { count := 1 }, iter := 0, serial := 1 } })) with
    schedule := [{ clocks := 1, act := .seq 0 .lds }] }

theorem witness_EngineTurnRuns :
    (let s := ldsNext 0x388FFFFE;
      s.schedule = { clocks := 1, act := .seq 0 .lds } :: [] ∧ s.halts 0 = false ∧ (s.core 0).mayIssue .lds = true ∧
        ((s.core 0).eng .lds).hyp = 0 ∧ ((s.core 0).eng .lds).pc < engWords .lds ∧ s.posted = []) ∧
      decodeWord .lds 0x388FFFFE = .ok (.ali { sn := true } 3 (-2)) ∧ decodeWord .lds 0 = .error .zeroWord ∧
      (ldsNext 0).pending (((ldsNext 0).core 0).seqAgent .lds) (.ali { sn := true } 3 (-2)) = false ∧
      (let s := { ldsNext 0 with posted := [{ farPost (.write [1]) with who := { dev.ctlWho with agent := .seq 0 .cmp } }] };
        s.pending ((s.core 0).seqAgent .cmp) (.cmpSemadd { } 4 (.imm 1)) = true) := by decide +kernel

/-- ALI of the specification's table: a3 := -2, and a token goes to CMP (R137, R167). -/
theorem test_lds_ali :
    nextAnd (step (ldsNext 0x388FFFFE)) (fun t =>
      (t.core 0).lds.a[3] == (0xFFFFFFFFFFFFFFFE : DWord) && (t.core 0).ltoc == [false] && (t.core 0).lds.eng.pc == 1) = true := by
  decide +kernel

/-- A generator evaluation at its only word, `gen add g1, g2, g3`. -/
def genEval : GenEval :=
  { slot := { name := [], bound := 4, params := 0, words := [0x0448C000], p := Vector.replicate 4 0 }, ety := .f32,
    g := ((Vector.replicate 16 0).set 2 5).set 3 7, pc := 0, loops := [], count := 0, out := none }

def genDev : State :=
  { devWith (fun k => { k with ogu := some genEval }) with schedule := [{ clocks := 0, act := .ogu 0 }] }

theorem witness_EventAndGeneratorRun :
    genDev.schedule = { clocks := 0, act := .ogu 0 } :: [] ∧ (genDev.core 0).hold = false ∧ (genDev.core 0).sealed = false ∧
      (genDev.core 0).ogu = some genEval ∧ genEval.out = none ∧ genEval.count < genEval.slot.bound ∧
      genEval.slot.words[genEval.pc]? = some 0x0448C000 ∧ decodeWord .gen 0x0448C000 = .ok (.genAdd 1 2 3) := by decide +kernel

theorem test_gen_add :
    nextAnd (step genDev) (fun t => match (t.core 0).ogu with
      | some v => v.reg 1 == 12 && v.pc == 1 && v.count == 1
      | none => false) = true := by decide +kernel

/-- An event runs from the schedule, and a word does not. -/
theorem test_event_of_schedule :
    nextAnd (step { dev with schedule := [{ clocks := 2, act := .event (.throttleChange true false) }] })
      (fun t => t.pthrot && !t.tthrot && t.clock == 2) = true ∧
    step { dev with schedule := [{ clocks := 2, act := .event .exit }] } = .refused .notAnEvent :=
  ⟨by decide +kernel, rfl⟩

theorem witness_StepReleasesIds : nextAnd (step (ctlNext 0xC4000002)) (fun _ => true) = true := by decide +kernel

theorem witness_StepKeepsMemory :
    (ctlNext 0xC4000002).memWf ∧ nextAnd (step (ctlNext 0xC4000002)) (fun t => decide t.memWf) = true := by decide +kernel

theorem witness_MemoryCanonical :
    dev.memWf ∧ dev.windowAt 0x1000 = none ∧ (∀ i, i < 2 → dev.windowAt (0x1000 + i) = none) ∧
      (dev.commit 0x1000 [1, 2]).phys 0x1001 = 2 ∧ dev.windowAt 2 = none ∧ (dev.commit 0x1000 [1, 2]).phys 2 = 2 := by
  decide +kernel

/-- One step of a CTL word on registers: s1, s2 and s3 hold the values. -/
def regs (x y z : DWord) : State := ((dev.setSreg 1 x).setSreg 2 y).setSreg 3 z

/-- R142, R144: the least number and a sum with W. -/
theorem test_add_w :
    nextAnd (exec (.add 4 1 2 true) (regs 0x7FFFFFFF 1 0)) (fun t => t.sreg 4 == 0xFFFFFFFF80000000 && (t.here).ctl.pc == 1) = true := by
  decide +kernel

theorem test_div_rows :
    nextAnd (exec (.div 4 1 2 false) (regs 0xFFFFFFFFFFFFFFF9 2 0)) (fun t => t.sreg 4 == 0xFFFFFFFFFFFFFFFD) = true ∧
    nextAnd (exec (.rem 4 1 2 false) (regs 0xFFFFFFFFFFFFFFF9 2 0)) (fun t => t.sreg 4 == 0xFFFFFFFFFFFFFFFF) = true ∧
    nextAnd (exec (.divu 4 1 2 false) (regs 0xFFFFFFFFFFFFFFF9 2 0)) (fun t => t.sreg 4 == 0x7FFFFFFFFFFFFFFC) = true ∧
    nextAnd (exec (.remu 4 1 2 false) (regs 0xFFFFFFFFFFFFFFF9 2 0)) (fun t => t.sreg 4 == 1) = true ∧
    nextAnd (exec (.div 4 1 2 false) (regs 5 0 0)) (fun t => t.sreg 4 == 0 && (t.here).ctl.dz) = true ∧
    nextAnd (exec (.div 4 1 2 false) (regs 0x8000000000000000 0xFFFFFFFFFFFFFFFF 0))
      (fun t => t.sreg 4 == 0x8000000000000000 && !(t.here).ctl.dz) = true := by decide +kernel

theorem witness_MulDiv : 0 < 8 ∧ (0x80 : BitVec 8).toInt = -2 ^ (8 - 1) := by decide

theorem witness_S0Discards : (1 : BitVec 5) ≠ 0 ∧ (15 : BitVec 4) ≠ 0 := by decide

/-- The constant that the specification builds from six words (R143). -/
theorem test_constant :
    nextAnd (exec (.lui 1 0x789B) dev) (fun t => t.sreg 1 == 0x789B0000) = true ∧
    nextAnd (exec (.addi 1 1 0xBCDE) (regs 0x789B0000 0 0)) (fun t => t.sreg 1 == 0x789ABCDE) = true ∧
    nextAnd (exec (.lih 1 0x3456) (regs 0x789ABCDE 0 0)) (fun t => t.sreg 1 == 0x3456789ABCDE) = true ∧
    nextAnd (exec (.shli 2 2 false 32) (regs 0 0x120000 0)) (fun t => t.sreg 2 == 0x12000000000000) = true := by decide +kernel

theorem witness_CtlRegisterFrame : csrKind (0x021 : BitVec 12).toNat = .defined ∧ csrKind (0x800 : BitVec 12).toNat ≠ .defined := by
  decide +kernel

theorem test_branch_and_loop :
    nextAnd (exec (.beq 1 2 5) (regs 7 7 0)) (fun t => (t.here).ctl.pc == 5) = true ∧
    nextAnd (exec (.beq 1 2 5) (regs 7 8 0)) (fun t => (t.here).ctl.pc == 1) = true ∧
    nextAnd (exec (.beq 1 2 0xFFFF) (regs 7 7 0)) (fun t => (t.here).task.isNone) = true ∧
    nextAnd (exec (.loop 1 2) (regs 3 0 0)) (fun t => (t.here).ctl.loops == [{ first := 1, last := 2, count := 3 }]) = true ∧
    nextAnd (exec (.loop 1 2) (regs 0 0 0)) (fun t => (t.here).ctl.pc == 3) = true := by decide +kernel

theorem witness_LoopRules :
    let e : LoopEnt := { first := 3, last := 5, count := 2 }
    4 ≠ e.last ∧ 1 < e.count ∧ { e with count := 1 }.count ≤ 1 := by decide

/-- The device with 512 MiB of PCIe space from 2^51 on at the virtual address 0x20000000. -/
def farDev : State :=
  { dev with mem := [(0, 1), (2, 2), (0x20000, 1), (0x20002, 3), (0x30000, 0x4F), (0x30008, 0x4F), (0x3000E, 8)] }

/-- The same device with MSIDE in its leaf (R58). -/
def msDev : State := { dev with mem := [(0, 1), (2, 2), (0x20000, 1), (0x20002, 3), (0x30000, 0x5F)] }

theorem witness_CtlLoads :
    (0x1001 : DWord).toNat % 2 ≠ 0 ∧ (0x1000 : DWord).toNat % 8 = 0 ∧
    (∃ l, dev.access dev.ctlWho .load 0x1000 8 = .ok l ∧ l.mside = false ∧ dev.away l = false) ∧
    (∃ l, msDev.access msDev.ctlWho .load 0x1000 8 = .ok l ∧ l.mside = true ∧ l.dev = none ∧ l.pa < hbmEnd) ∧
    (∃ l, farDev.access farDev.ctlWho .load 0x20001000 8 = .ok l ∧ farDev.away l = true) ∧
    (let x := farPost (.load 4 8 true); let s := { farDev with posted := [x] }
      s.postCore x = some 0 ∧ s.mayPerform x = true ∧ s.posted.find? (fun y => y.num == x.num) = some x ∧
        (s.core 0).hold = false ∧ (s.core 0).still = false) := by
  refine ⟨by decide, by decide, ?_, ?_, ?_, by decide +kernel⟩
  · obtain ⟨l, h, k⟩ := exists_ok (x := dev.access dev.ctlWho .load 0x1000 8)
      (p := fun l => decide (l.mside = false ∧ dev.away l = false)) (by decide +kernel)
    exact ⟨l, h, by simpa using k⟩
  · obtain ⟨l, h, k⟩ := exists_ok (x := msDev.access msDev.ctlWho .load 0x1000 8)
      (p := fun l => decide (l.mside = true ∧ l.dev = none ∧ l.pa < hbmEnd)) (by decide +kernel)
    exact ⟨l, h, by simpa using k⟩
  · obtain ⟨l, h, k⟩ := exists_ok (x := farDev.access farDev.ctlWho .load 0x20001000 8) (p := fun l => farDev.away l) (by decide +kernel)
    exact ⟨l, h, k⟩

theorem test_load :
    nextAnd (exec (.ldh 4 1 0) ((regs 0x1000 0 0).commit 0x1000 [0xFF, 0x80])) (fun t => t.sreg 4 == 0xFFFFFFFFFFFF80FF) = true ∧
    nextAnd (exec (.ldhu 4 1 0) ((regs 0x1000 0 0).commit 0x1000 [0xFF, 0x80])) (fun t => t.sreg 4 == 0x80FF) = true ∧
    nextAnd (exec (.ldh 4 1 1) (regs 0x1000 0 0)) (fun t => (t.here).task.isNone) = true := by decide +kernel

theorem witness_CtlStores :
    (0x1FFF : DWord).toNat % 4 ≠ 0 ∧
    (∃ l, dev.access dev.ctlWho .store 0x1FF8 8 = .ok l ∧ l.mside = false ∧ l.dev = none ∧ dev.windowAt l.pa = none ∧
      isPcie l.pa = false ∧ (dev.here).ctl.hcur = 0 ∧ l.enc = 0 ∧ dev.tlt = [] ∧ dev.stale = [] ∧ dev.tags = []) ∧
    (∃ l, msDev.access msDev.ctlWho .store 0x1FF8 8 = .ok l ∧ l.mside = true ∧ l.dev = none ∧ l.pa < hbmEnd) ∧
    (∃ l, farDev.access farDev.ctlWho .store 0x20001000 8 = .ok l ∧ farDev.away l = true ∧ (farDev.here).ctl.hcur = 0) := by
  refine ⟨by decide, ?_, ?_, ?_⟩
  · obtain ⟨l, h, k⟩ := exists_ok (x := dev.access dev.ctlWho .store 0x1FF8 8) (p := fun l => decide (l.mside = false ∧
      l.dev = none ∧ dev.windowAt l.pa = none ∧ isPcie l.pa = false ∧ (dev.here).ctl.hcur = 0 ∧ l.enc = 0 ∧ dev.tlt = [] ∧
      dev.stale = [] ∧ dev.tags = [])) (by decide +kernel)
    exact ⟨l, h, by simpa using k⟩
  · obtain ⟨l, h, k⟩ := exists_ok (x := msDev.access msDev.ctlWho .store 0x1FF8 8)
      (p := fun l => decide (l.mside = true ∧ l.dev = none ∧ l.pa < hbmEnd)) (by decide +kernel)
    exact ⟨l, h, by simpa using k⟩
  · obtain ⟨l, h, k⟩ := exists_ok (x := farDev.access farDev.ctlWho .store 0x20001000 8)
      (p := fun l => decide (farDev.away l = true ∧ (farDev.here).ctl.hcur = 0)) (by decide +kernel)
    exact ⟨l, h, by simpa using k⟩

theorem test_store :
    nextAnd (exec (.stw 2 1 0xFFFC) (regs 0x1004 0x8899AABBCCDDEEFF 0)) (fun t =>
      t.physRun 0xFFF 6 == [0, 0xFF, 0xEE, 0xDD, 0xCC, 0]) = true := by decide +kernel

theorem witness_CtlAtomics :
    (dev.onCtl (fun k => { k with hcur := 1 })).here.ctl.hcur ≠ 0 ∧ (dev.here).ctl.hcur = 0 ∧ (0x1004 : DWord).toNat % amoBytes .d ≠ 0 ∧
    (∃ l, dev.access dev.ctlWho .atomic 0x1000 8 = .ok l ∧ l.mside = false ∧ l.dev = none ∧ l.pa < hbmEnd) ∧
    (∃ l, dev.access dev.ctlWho .atomic 0x1001 1 = .ok l ∧ l.mside = false) := by
  refine ⟨by decide +kernel, by decide +kernel, by decide +kernel, ?_, ?_⟩
  · obtain ⟨l, h, k⟩ := exists_ok (x := dev.access dev.ctlWho .atomic 0x1000 8)
      (p := fun l => decide (l.mside = false ∧ l.dev = none ∧ l.pa < hbmEnd)) (by decide +kernel)
    exact ⟨l, h, by simpa using k⟩
  · obtain ⟨l, h, k⟩ := exists_ok (x := dev.access dev.ctlWho .atomic 0x1001 1) (p := fun l => l.mside == false) (by decide +kernel)
    exact ⟨l, h, by simpa using k⟩

theorem test_atomic :
    nextAnd (exec (.amoadd 4 1 2 false .w) ((regs 0x1000 5 0).commit 0x1000 [0xFF, 0xFF, 0xFF, 0xFF])) (fun t =>
      t.sreg 4 == 0xFFFFFFFFFFFFFFFF && t.physNat 0x1000 5 == 4) = true ∧
    nextAnd (exec (.amonswap 4 1 2 true false) ((regs 0x1001 0xA 0).commit 0x1000 [0x11, 0x23])) (fun t =>
      t.sreg 4 == 2 && t.physNat 0x1000 3 == 0xA311) = true := by decide +kernel

theorem witness_CacheAndFence :
    ldsDev.takes { wn := true } ∧
    (let p := farPost (.write [1]); let q := { farPost (.write [2]) with num := 3, va := 0x20000008 }
      ({ dev with posted := [p] } : State).posted.find? (fun q => q.num == p.num) = some p ∧
      ({ dev with posted := [q, p] } : State).posted.find? (fun q => q.num == p.num) = some p ∧
      [q, p].takeWhile (fun q => q.num != p.num) = [q] ∧ q.who.agent = p.who.agent ∧ q.pcieWrite = true ∧ p.pcie = true) ∧
    Instr.releases (.fence 4) = true ∧ (farPost (.load 4 8 true)).kind.reg = some 4 ∧ 4 ∈ Instr.regs (.add 1 4 2 false) ∧
      (farPost (.load 4 8 true)).who.agent = .seq 0 .ctl := by
  refine ⟨witness_takes.2.2.1, ?_⟩; decide +kernel

/-- Two writes of one agent into PCIe space are performed in order (R261). -/
theorem test_perform :
    let p := farPost (.write [1]); let q := { farPost (.write [2]) with num := 3 }
    nextAnd (runAct (.perform 4) { dev with posted := [q, p] }) (fun t => t.posted.length == 2) = true ∧
    nextAnd (runAct (.perform 3) { dev with posted := [q, p] }) (fun t =>
      t.posted.map (fun x => x.num) == [4] && t.phys (2 ^ 51) == 2) = true := by decide +kernel

/-- Command that adds 5 to the word at 0x1000 for CTL of core 0, which waits for it (R58, R294). -/
def amoCmd : MsideCmd :=
  { core := 0, slot := 0, uid := 0, who := dev.ctlWho
    leaf := { pa := 0x1000, r := true, w := true, x := true, mside := true, filter := false, enc := 0, fab := false, dev := none }
    va := 0x1000, op := .amo 4 .add .w 5 0 }

def termDev : State :=
  { devWith (fun k => k.setWait .ctl .message) with termite := dev.termite.set 0 [.ctl amoCmd] }

/-- The commands of each kind at the head of the first stack's queue. -/
def termOf (m : TermOp) : State := { termDev with termite := dev.termite.set 0 [m] }

def lineCmd : CollLine :=
  { inst := 1, who := dev.ctlWho, stage := false
    line := { arr := 1, rank := 0, walk := 0, base := 0x1000, len := 128, va := 0x1000, leaf := amoCmd.leaf,
              bytes := List.replicate 128 9, slot := none } }

theorem witness_TermitePerforms :
    (0 : BitVec 4).toNat < 12 ∧ termDev.termite[0][0]? = some (TermOp.ctl amoCmd) ∧ termDev.termite[0][1]? = none ∧
      (let q := [TermOp.ctl amoCmd, TermOp.remote (.store 0x1008 [1])];
        q[1]? = some (TermOp.remote (.store 0x1008 [1])) ∧
          ∃ e ∈ q.take 1, ∃ ln ∈ e.lines, ln ∈ (TermOp.remote (.store 0x1008 [1])).lines) ∧
      ((termDev.core 0).task = some task0 ∧ task0.uid = amoCmd.uid ∧ (termDev.core 0).ctl.wait = .message ∧
        (termDev.core 0).hold = false ∧ (termDev.core 0).sealed = false) ∧
      ((dev.core 0).ctl.wait ≠ .message ∧ ((termDev.onCore 0 (fun k => { k with hold := true })).core 0).hold = true) ∧
      (termOf (.remote (.load 0x1000 8))).termite[0][0]? = some (TermOp.remote (.load 0x1000 8)) ∧
      (termOf (.line lineCmd)).termite[0][0]? = some (TermOp.line lineCmd) ∧
      stackOf 0x1000 < 12 ∧ termDev.termite[0].length < 1024 ∧
      1024 ≤ (List.replicate 1024 (TermOp.ctl amoCmd)).length := by
  refine ⟨by decide, by decide +kernel, by decide +kernel, ⟨rfl, TermOp.ctl amoCmd, by simp, 0x20, ?_, ?_⟩, ?_, ?_, ?_, ?_, ?_, ?_, ?_⟩ <;>
    decide +kernel

theorem test_termite :
    nextAnd (exec (.termiteCommand { st := 0, n := 0 }) termDev) (fun t =>
      t.physNat 0x1000 4 == 5 && (t.core 0).ctl.wait == .none && (t.core 0).ctl.pc == 1 && t.termite[0] == []) = true ∧
    nextAnd (exec (.termiteCommand { st := 0, n := 0 }) (termOf (.line lineCmd))) (fun t => t.phys 0x107F == 9) = true := by
  decide +kernel

/-- Fragment 3 of CMP is valid and starts at word 9 (R22). -/
def dispDev (f : Core → Core) : State := devWith (fun k => f { k with jtCmp := [(3, 0x80000009)] })

def cmd1 : Cmd := { args := #v[7, 0, 0, 0], count := 2, frag := 3, hyp := 0, tag := 0 }

/-- A stalled DISPX whose JSEL has become 3 since. -/
def stalledDev : State :=
  dispDev (fun k => { k with imemCtl := [(0, 0xB5000880)] }.onCtl (fun c => { c with wait := .disp .cmp, jsel := 3 }))

theorem witness_DispatchQueues :
    ((dev.here).fragValid .cmp 3 = false ∧ (dev.here).fragValid .cmp (dev.here).ctl.jsel = false) ∧
    (let s := dispDev id; (s.here).fragValid .cmp 3 = true ∧ ((s.here).eng .cmp).queue.length < 32 ∧ ((s.here).eng .cmp).ring = []) ∧
    (let s := dispDev (fun k => k.onCtl (fun c => { c with jsel := 3 })); (s.here).fragValid .cmp (s.here).ctl.jsel = true) ∧
    (let s := dispDev (fun k => k.onEng .cmp (fun g => { g with queue := List.replicate 32 cmd1 }));
      ¬(((s.here).eng .cmp).queue.length < 32) ∧ ((s.here).eng .cmp).ringRoom (s.here).theTask.ringSize = true ∧
      okAnd (s.store (s.whoOf s.actCore 0) ((s.here).theTask.ringAddr .cmp 0).toNat cmd1.bytes) (fun _ => true) = true) ∧
    (let s := dispDev (fun k => k.onEng .cmp (fun g =>
        { g with queue := List.replicate 32 cmd1, ring := (List.range 4).map (fun i => (i, cmd1)), ringTail := 4 }));
      (s.here).fragValid .cmp 3 = true ∧ ((s.here).eng .cmp).ringRoom (s.here).theTask.ringSize = false) ∧
    (let s := (dispDev (fun k => k.onEng .cmp (fun g => { g with ring := [(3, cmd1)], ringTail := 4 }))).commit 0x1001C0 cmd1.bytes;
      s.halts 0 = false ∧ ((s.core 0).eng .cmp).queue = [] ∧ ((s.core 0).eng .cmp).ring = (3, cmd1) :: [] ∧
      ((s.core 0).eng .cmp).queue.length < 32 ∧
      okAnd (s.load (s.whoOf 0 0) .load ((s.core 0).theTask.ringAddr .cmp 3).toNat 64) (fun _ => true) = true) ∧
    (let s := stalledDev; (s.core 0).ctl.wait = .disp .cmp ∧ ((s.core 0).eng .cmp).queue.length < 32 ∧
      ((s.core 0).eng .cmp).ring = [] ∧ (s.core 0).hold = false ∧
      decodeWord .ctl (Cells.read 0 (s.core 0).imemCtl (s.core 0).ctl.pc) = .ok (.dispx .cmp 1 2) ∧
      (s.core 0).fragValid .cmp (s.core 0).ctl.jsel = true) ∧
    (let s := dispDev (fun k => k.onEng .cmp (fun g => { g with queue := [cmd1] }));
      s.halts 0 = false ∧ ((s.core 0).eng .cmp).cur = none ∧ ((s.core 0).eng .cmp).stopped = false ∧
      ((s.core 0).eng .cmp).held = false ∧ (s.core 0).hold = false ∧ ((s.core 0).eng .cmp).queue = cmd1 :: [] ∧
      ¬(cmd1.hyp ≠ 0 ∧ (s.ctx (s.core 0).theTask.ctx).isRefuted cmd1.hyp = true)) := by decide +kernel

/-- It issues with the JSEL of that moment (R151). -/
theorem test_disp_place :
    nextAnd (exec (.dispPlace 0) stalledDev) (fun t =>
      ((t.here).eng .cmp).queue.map (fun c => c.frag) == [3] && (t.here).ctl.wait == .none && (t.here).ctl.pc == 1) = true := by
  decide +kernel

theorem test_disp_and_pop :
    nextAnd (exec (.disp .cmp 3 1 30) ((dispDev id).setSreg 31 9)) (fun t =>
      ((t.here).eng .cmp).queue == [{ args := #v[0, 9, 0, 0], count := 0, frag := 3, hyp := 0, tag := 0 }]) = true ∧
    nextAnd (exec (.commandPop 0 .cmp) (dispDev (fun k => k.onEng .cmp (fun g => { g with queue := [cmd1] })))) (fun t =>
      ((t.here).eng .cmp).pc == 9 && (t.here).cmp.k[0] == 7 && (t.here).cmp.k[15] == 0 && ((t.here).eng .cmp).cur.isSome) = true := by
  decide +kernel

theorem witness_QueueControl :
    ((dev.here).ctl.qcancelAt = none ∧ (dev.here).drained = true ∧ dev.posted = []) ∧
    (let s := cmpDev; (s.here).drained = false) ∧
    (let s := { dev with posted := [farPost (.write [1])] };
      (∀ p ∈ s.posted, p.who.agent = .seq 0 .ctl) ∧ ∃ p ∈ s.posted, p.who.agent.ofTask 0 = true) ∧
    (let s := devWith (fun k => k.setWait .ctl .qdrain); (s.core 0).ctl.wait = .qdrain ∧ (s.core 0).drained = true ∧
      (s.core 0).hold = false) ∧
    (let s := devWith (fun k => k.setWait .ctl .exit); (s.core 0).ctl.wait = .exit ∧ (s.core 0).drained = true) ∧
    (let s := devWith (fun k => k.setWait .ctl .qcancel); (s.core 0).ctl.wait = .qcancel ∧ (s.core 0).allIdle = true) ∧
    (let k : Core := (cmpDev.core 0).setWait .cmp .tokens;
      (k.eng .cmp).cur = some { cmd := { count := 1 }, iter := 0, serial := 1 } ∧ (k.eng .cmp).wait = .tokens ∧
      k.tokensPresent (wordPops .cmp (k.engWordBits .cmp)) = true ∧
      (let j : Core := { k with imemCmp := [(0, 0xE0000000)], ltoc := [] };
        j.tokensPresent (wordPops .cmp (j.engWordBits .cmp)) = false)) := by
  decide +kernel

/-- QCANCEL with tag 5 keeps commands of lower tag, and clears the FIFOs (R37). -/
theorem test_qcancel :
    nextAnd (exec (.qcancel 1) ((devWith (fun k => { k with ltoc := [true] }.onEng .cmp (fun g =>
        { g with queue := [{ cmd1 with tag := 4 }, { cmd1 with tag := 5 }] }))).setSreg 1 5)) (fun t =>
      ((t.here).eng .cmp).queue == [{ cmd1 with tag := 4 }] && (t.here).ltoc == []) = true := by decide +kernel

theorem witness_TaskEndFrees :
    (dev.core 0).task = some task0 ∧ (∀ w ∈ dev.windows, w.core ≠ 0) ∧
      (dev.setSlot 0 (some { src := 0, record := [], age := 0, ctx := 0, phase := .loaded })).slot task0.slot =
        some { src := 0, record := [], age := 0, ctx := 0, phase := .loaded } := by decide +kernel

theorem witness_ControlRegisters :
    0x800 ≤ (0x800 : BitVec 12).toNat ∧ 0x048 ≤ (0x048 : BitVec 12).toNat ∧ (0x7FF : BitVec 12).toNat < 0x800 ∧
      0x002 ≤ (0x002 : BitVec 12).toNat ∧ (0x00F : BitVec 12).toNat ≤ 0x00F ∧ 0x029 ≤ (0x029 : BitVec 12).toNat ∧
      (0x02F : BitVec 12).toNat ≤ 0x02F ∧ 0x035 ≤ (0x035 : BitVec 12).toNat ∧ (0x03F : BitVec 12).toNat ≤ 0x03F ∧
      (∀ i : Fin 8, (0x010 + BitVec.ofNat 12 i.val).toNat = 0x010 + i.val ∧ (0x018 + BitVec.ofNat 12 i.val).toNat = 0x018 + i.val ∧
        (0x040 + BitVec.ofNat 12 i.val).toNat = 0x040 + i.val) ∧
      (0x010 ≤ (0x017 : BitVec 12).toNat ∧ (0x01F : BitVec 12).toNat < 0x020) ∧ (0x047 : BitVec 12).toNat < 0x048 := by
  decide +kernel

/-- LVL3 and EXT3 of the task's record read back, and writes leave them (R16, R140); TSTAT keeps INH (R141). -/
theorem test_control_registers :
    (let s := (regs 0xFFFFFFFFFFFFFFFF 0 0).onCtl (fun k => { k with lvl := k.lvl.set 3 7, ext := k.ext.set 3 9 });
      nextAnd (exec (.csrd 4 0x013) s) (fun t => t.sreg 4 == 7) && nextAnd (exec (.csrd 4 0x01B) s) (fun t => t.sreg 4 == 9) &&
      nextAnd (exec (.cswr 1 0x013) s) (fun t => (t.here).ctl.lvl[3] == 7) &&
      nextAnd (exec (.cswr 1 0x033) s) (fun t => !(t.here).ctl.tstat.inh &&
        nextAnd (exec (.csrd 4 0x033) t) (fun u => u.sreg 4 == 0x7FFFFFFFFFFF3))) = true := by decide +kernel

/-- A write to TVEC, and a trap with it (R140, R160, R161). -/
theorem test_trap_entry :
    nextAnd (exec (.cswr 1 0x034) (regs 0x800000000000000C 0 0)) (fun t => (t.here).ctl.tvecPc == 12 && (t.here).ctl.tvecEn) = true ∧
    nextAnd (exec (.trap 1) ((regs 0x55 0 0).onCtl (fun k => { k with tvecPc := 12, tvecEn := true, pc := 40 }))) (fun t =>
      (t.here).ctl.pc == 12 && (t.here).ctl.tpc == 41 && (t.here).ctl.tval == 0x55 && (t.here).ctl.tcause == 0x19 &&
      (t.here).ctl.tstat.inh) = true := by decide +kernel

theorem witness_TrapInstructions :
    (dev.here).ctl.tstat.inh = false ∧ ((dev.onCtl (fun k => { k with tstat := { inh := true } })).here).ctl.tstat.inh = true := by
  decide +kernel

theorem test_rett :
    nextAnd (exec .rett (dev.onCtl (fun k => { k with tstat := { inh := true }, tpc := 41, pc := 12 }))) (fun t =>
      (t.here).ctl.pc == 41 && !(t.here).ctl.tstat.inh) = true := by decide +kernel

/-- CMP has faulted at word 6 with a handler in place. -/
def faultDev : State :=
  devWith (fun k => { k with
    ctl := { k.ctl with tvecPc := 12, tvecEn := true, pc := 40 }
    faults := [{ eng := some .cmp, serial := 1, cause := .bufRange, tval := 0x200000, waddr := 6, frag := 3, tag := 2, hyp := 0 }] })

theorem witness_TrapEntryState :
    ((faultDev.core 0).ctl.tvecEn = true ∧ (faultDev.core 0).ctl.tstat.inh = false) ∧ (dev.core 0).ctl.tvecEn = false ∧
    ((faultDev.core 0).faults =
        { eng := some .cmp, serial := 1, cause := .bufRange, tval := 0x200000, waddr := 6, frag := 3, tag := 2, hyp := 0 } :: [] ∧
      (faultDev.core 0).ctl.wait.interruptible = true ∧ (faultDev.core 0).hold = false) ∧
    (cmpDev.core 0).cmp.eng.cur = some { cmd := { count := 1 }, iter := 0, serial := 1 } := by decide +kernel

theorem test_engine_fault :
    nextAnd (exec (.trapEntry 0) faultDev) (fun t =>
      (t.here).ctl.pc == 12 && (t.here).ctl.tpc == 40 && (t.here).ctl.tcause == 0x08 && (t.here).ctl.tstat.waddr == 6 &&
      (t.here).ctl.tstat.eng == 2 && (t.here).cmp.eng.stopped) = true := by decide +kernel

theorem witness_WfeWaits :
    (let s := devWith (fun k => { k with ctl := { k.ctl with wait := .wfe 10, woken := true } });
      (s.core 0).hold = false ∧ (s.core 0).ctl.wait = .wfe 10 ∧ (s.core 0).ctl.woken = true) ∧
    (let s := { devWith (fun k => { k with ctl := { k.ctl with wait := .wfe 10 } }) with clock := 65546 };
      (s.core 0).hold = false ∧ (s.core 0).ctl.wait = .wfe 10 ∧ (s.core 0).ctl.woken = false ∧ 10 + 65536 ≤ s.clock) ∧
    (let s := { devWith (fun k => { k with ctl := { k.ctl with wait := .wfe 10 } }) with clock := 65545 };
      (s.core 0).ctl.wait = .wfe 10 ∧ s.clock < 10 + 65536) ∧
    (dev.core 0).task = some task0 ∧
      (dev.setSlot 0 (some { src := 0, record := [], age := 0, ctx := 0, phase := .loaded })).slot task0.slot =
        some { src := 0, record := [], age := 0, ctx := 0, phase := .loaded } := by decide +kernel

/-- Semaphore 4 holds its greatest value less one. -/
def semDev (s : State) : State := s.onHere (fun k => k.setSem 4 0xFFFFFFFE)

/-- A copy step of a whole box of zeros, at its first unit. -/
def someCopy : CopyOp :=
  { kind := .copy, dst := 0, src := 0, dsp := .abuf, ssp := .glob, box := 0, unit := 0, held := false, tlt := none }

/-- LDS with a copy in flight. -/
def copyingDev : State :=
  ldsDev.onHere (fun k => k.onXfer false (fun x =>
    { x with ops := [{ id := 1, hyp := 0, tag := 0, frag := 0, waddr := 0, serial := 1, sig := false, kind := .copy someCopy }] }))

theorem witness_Semaphores :
    (let s := semDev (regs 1 0 0); ((0xFFFFFFFF : Word).toNat : Int) = (((s.here).sem 4).toNat : Int) + (s.sreg 1).toInt) ∧
    (let s := semDev (regs 2 0 0); 2 ^ 32 ≤ (((s.here).sem 4).toNat : Int) + (s.sreg 1).toInt) ∧
    (let s := regs 0xFFFFFFFFFFFFFFFF 0 0; (((s.here).sem 4).toNat : Int) + (s.sreg 1).toInt < 0) ∧
    (ldsDev.takes { wn := true } ∧ (0 : BitVec 8).toNat ≤ ((ldsDev.here).sem 4).toNat ∧
      ((ldsDev.taken { wn := true }).areg 3).toNat ≤ ((ldsDev.here).sem 4).toNat ∧
      ((ldsDev.here).xfer ldsDev.actSts).settled = true ∧
      ((127 : Word).toNat : Int) = (((ldsDev.here).sem 4).toNat : Int) + (0x7F : BitVec 8).toInt ∧
      ((0 : Word).toNat : Int) = (((ldsDev.here).sem 4).toNat : Int) + (ldsDev.areg 3).toInt) ∧
    (cmpDev.takes { wp := true } ∧ (0 : BitVec 16).toNat ≤ ((cmpDev.here).sem 4).toNat ∧
      ((cmpDev.taken { wp := true }).kreg 3).toNat ≤ ((cmpDev.here).sem 4).toNat ∧
      ((0x7FFF : Word).toNat : Int) = (((cmpDev.here).sem 4).toNat : Int) + (0x7FFF : BitVec 16).toInt ∧
      ((0 : Word).toNat : Int) = (((cmpDev.here).sem 4).toNat : Int) + (cmpDev.kreg 3).toInt) ∧
    (let s := semDev (ldsDev.setAreg 3 2); s.takes { wn := true } ∧ ((s.here).xfer s.actSts).settled = true ∧
      2 ^ 32 ≤ (((s.here).sem 4).toNat : Int) + (s.areg 3).toInt) ∧
    (let s := semDev (cmpDev.setKreg 3 2); s.takes { wp := true } ∧ 2 ^ 32 ≤ (((s.here).sem 4).toNat : Int) + (s.kreg 3).toInt) ∧
    (let s := copyingDev; s.takes { wn := true } ∧ ((s.here).xfer s.actSts).settled = false) ∧
    (let k := (devWith (fun k => k.setWait .ctl (.sem 4 0xFFFFFFFE))).core 0;
      k.wait .ctl = .sem 4 0xFFFFFFFE ∧ (0xFFFFFFFE : DWord).toNat ≤ (0xFFFFFFFE : Word).toNat ∧
      (4 : BitVec 4) ≠ 5 ∧ (0xFFFFFFFD : Word).toNat < (0xFFFFFFFE : DWord).toNat ∧
      (k.setSem 4 0xFFFFFFFE).wait .ctl = .semMet) ∧
    (let s := semDev (devWith (fun k => k.setWait .ctl (.sem 4 0xFFFFFFFE)));
      (s.core 0).wait .ctl = .semMet ∧ (s.core 0).hold = false) := by
  refine ⟨by decide +kernel, by decide +kernel, by decide +kernel, ⟨witness_takes.2.2.1, ?_⟩, ⟨⟨?_, ?_⟩, ?_⟩,
    ⟨⟨?_, ?_⟩, ?_⟩, ⟨⟨?_, ?_⟩, ?_⟩, ⟨⟨?_, ?_⟩, ?_⟩, ?_, ?_⟩ <;> decide +kernel

/-- A sum outside the range faults before the word pops its token or pushes one (R26, R27, R170). -/
theorem test_semadd_tokens :
    nextAnd (exec (.xferSemadd { wn := true, sn := true } 4 (.a 3)) (semDev (ldsDev.setAreg 3 2))) (fun t =>
      (t.here).faults.map (fun f => f.tval) == [2] && (t.here).sem 4 == 0xFFFFFFFE && (t.here).ctol == [false] &&
      (t.here).ltoc == []) = true := by decide +kernel

theorem test_semadd :
    nextAnd (exec (.semadd 1 4) (semDev (regs 1 0 0))) (fun t => (t.here).sem 4 == 0xFFFFFFFF) = true ∧
    nextAnd (exec (.semadd 1 4) (semDev (regs 2 0 0))) (fun t => (t.here).task.isNone) = true ∧
    nextAnd (exec (.cmpSemadd { sn := true } 4 (.imm 0xFFFF)) (semDev cmpDev)) (fun t =>
      (t.here).sem 4 == 0xFFFFFFFD && (t.here).ctos == [false, false] && (t.here).cmp.eng.pc == 1) = true ∧
    nextAnd (exec (.semwait 1 4) (regs 1 0 0)) (fun t => (t.here).ctl.wait == .sem 4 1) = true := by decide +kernel

/-- s1 names core 1 of this device for RFLAG, where a second task of the launch was placed last (R299). -/
def flagDev : State :=
  ((regs 1 2 3).setCore 1 { task := some { task0 with taskid := 2, uid := 1 } }).setSlot 0
    (some { src := 0, record := [], age := 0, ctx := 0, phase := .loaded, lastOn := [(1, 1)] })

/-- CTL of core 0 waits for one of two messages. -/
def msgDev (m : FlagMsg) : State :=
  { flagDev.onCore 0 (fun k => k.setWait .ctl .message) with msgs := [FlagMsg.rflag 2 9 0 0 0 3 4 5, m] }

theorem witness_RemoteFlags :
    (flagDev.sreg 1 &&& 0xFFFFFFFFFE00FF80 = 0 ∧ (flagDev.sreg 1).extractLsb' 16 9 = flagDev.devid ∧
      flagDev.linkUp (dieOf flagDev.actCore) (dieOf ((flagDev.sreg 1).setWidth 7)) = true) ∧
    (let s := { (regs 0x20 0 0) with downLinks := [(0, 1)] };
      s.sreg 1 &&& 0xFFFFFFFFFE00FF80 = 0 ∧ s.linkUp (dieOf s.actCore) (dieOf ((s.sreg 1).setWidth 7)) = false) ∧
    (regs 0x80 0 0).sreg 1 &&& 0xFFFFFFFFFE00FF80 ≠ 0 ∧
    dev.mflagTargets 0 0 = [] ∧ flagDev.mflagTargets 2 0 = [1] ∧
    (∀ t ∈ flagDev.mflagTargets 2 0, flagDev.linkUp (dieOf flagDev.actCore) (dieOf t) = true) ∧
    (let s := { dev with downLinks := [(0, 1)] };
      (s.mflagTargets 0x300000002 0).find? (fun t => !s.linkUp (dieOf s.actCore) (dieOf t)) = some 32) ∧
    (let s := msgDev (.rflag 0 0 0 0 0 1 4 5);
      s.msgs = [FlagMsg.rflag 2 9 0 0 0 3 4 5] ++ FlagMsg.rflag 0 0 0 0 0 1 4 5 :: [] ∧
      (∀ m ∈ [FlagMsg.rflag 2 9 0 0 0 3 4 5], m.isRflag 0 = false) ∧ (s.core 0).hold = false ∧ s.devid = 0 ∧
      s.flagWaits 0 0 1 = false ∧ s.awaits 0 0 = true ∧ (s.slot 0).bind (fun l => l.lastTask 1) = some 1 ∧
      (s.taskCore 0 1).map (fun r => (r.sem 4, semSum (r.sem 4) (5 : DWord).toInt)) = some (0, some 5) ∧
      ((s.slot 0).bind (fun l => l.lastTask 2)).bind (fun id => s.taskCore 0 id) = none ∧ (7 : BitVec 9) ≠ s.devid) ∧
    (let s := msgDev (.mflag 0 0 0 0 [1, 2] 4 5);
      s.msgs = [FlagMsg.rflag 2 9 0 0 0 3 4 5] ++ FlagMsg.mflag 0 0 0 0 [1, 2] 4 5 :: [] ∧ (1 : CoreId) ∈ [(1 : CoreId), 2] ∧
      (∀ m ∈ [FlagMsg.rflag 2 9 0 0 0 3 4 5], m.isMflag 0 1 = false) ∧
      [(1 : CoreId), 2].filter (fun y => y != 1) ≠ [] ∧ [(1 : CoreId)].filter (fun y => y != 1) = []) := by decide +kernel

theorem test_rflag :
    nextAnd (exec (.rflagDelivery 0) (msgDev (.rflag 0 0 0 0 0 1 4 5))) (fun t =>
      (t.core 1).sem 4 == 5 && (t.core 0).ctl.wait == .none && t.msgs.length == 1) = true ∧
    nextAnd (exec (.mflagDelivery 0 1) (msgDev (.mflag 0 0 0 0 [1, 2] 4 5))) (fun t =>
      (t.core 1).sem 4 == 5 && (t.core 0).ctl.wait == .message && t.msgs.length == 2) = true := by
  decide +kernel

/-- s1 holds the address of an event that stands at 3 (R156). -/
def eventDev : State := (regs 0x1000 4 0).commit 0x1000 [3]

/-- Slot 0 holds the task's launch, the pool is full but for its reserved entries, and the spill area starts at 0x100000. -/
def poolFull : State :=
  { eventDev.setSlot 0 (some { src := 0, record := [], age := 0, ctx := 0, phase := .loaded }) with
    pool := List.replicate 3840 { record := [], ctx := 0, slot := 0, taskid := 0 } }

/-- A record in the spill queue of slot 0's launch. -/
def spillEnt : SpillEnt :=
  { slot := 0, age := 0, taskid := 1, uid := 0, who := { die := 4, ctx := 0, world := 0, hyp := 0 }, va := 0x110000 }

theorem witness_EventsAndSpawn :
    ((eventDev.here).ctl.hcur = 0 ∧ (eventDev.sreg 1).toNat % 8 = 0 ∧
      okAnd (eventDev.access eventDev.ctlWho .atomic (eventDev.sreg 1).toNat 8) (fun _ => true) = true ∧
      okAnd (eventDev.access eventDev.ctlWho .load (eventDev.sreg 1).toNat 8) (fun _ => true) = true ∧
      eventDev.peeks = [] ∧ eventDev.posted = []) ∧
    (let s := (eventDev.commit 0x1000 [4]).onCtl (fun k => { k with wait := .event 0x1000 4 });
      (s.core 0).ctl.wait = .event 0x1000 4 ∧ (s.core 0).hold = false ∧
      okAnd (s.access s.ctlWho .load 0x1000 8) (fun l => decide (4 ≤ leNat (s.readSeen s.ctlWho l 0x1000 8))) = true) ∧
    ((eventDev.sreg 1).toNat % 64 = 0 ∧ okAnd (eventDev.load eventDev.ctlWho .load 0x1000 256) (fun p =>
      p.2.poolHasOpen && (p.2.spilledOf (p.2.here).theTask.slot).isEmpty) = true) ∧
    (poolFull.poolHasOpen = false ∧ (poolFull.here).theTask.spqLog ≠ 0 ∧ (poolFull.slot 0).isSome = true ∧
      (poolFull.spilledOf 0).length < 2 ^ (poolFull.here).theTask.spqLog ∧
      okAnd (poolFull.load poolFull.ctlWho .load 0x1000 256) (fun p =>
        okAnd (p.2.store (p.2.whoOf p.2.actCore 0) 0x100000 p.1) (fun _ => true)) = true) ∧
    (let s := { poolFull with spillq := List.replicate 16 spillEnt };
      s.poolHasOpen = false ∧ 2 ^ (s.here).theTask.spqLog ≤ (s.spilledOf 0).length) ∧
    (let s := { eventDev.setSlot 0 (some { src := 0, record := [], age := 0, ctx := 0, phase := .loaded }) with
        spillq := [spillEnt] };
      s.spillq.find? (fun e => e.slot == 0) = some spillEnt ∧ s.poolHasOpen = true ∧
      okAnd (s.load spillEnt.who .load spillEnt.va 256) (fun _ => true) = true) ∧
    (let s := poolFull.onCtl (fun k => { k with wait := .event 0x1000 4 });
      s.poolHasOpen = false ∧ (s.pool.filter (fun p => p.reserved)).length < 256 ∧ s.blockedInWaitev spillEnt.uid = true) := by
  decide +kernel

theorem test_event :
    nextAnd (exec (.waitev 1 2) eventDev) (fun t => (t.here).ctl.wait == .event 0x1000 4) = true ∧
    nextAnd (exec (.sigev 1 2) eventDev) (fun t => t.physNat 0x1000 8 == 7) = true := by decide +kernel

theorem witness_EngineTokens :
    ((dev.here).tokensPresent (popFifos .cmp { wp := true }) = false ∧ ((dev.here).eng .cmp).marked = false) ∧
    (let s := devWith (fun k => k.onEng .cmp (fun g => { g with marked := true }));
      (s.here).tokensPresent (popFifos .cmp { wp := true }) = false ∧ ((s.here).eng .cmp).marked = true) ∧
    (let s := devWith (fun k => { k with ltoc := [true] });
      (s.here).tokensPresent (popFifos .cmp { wp := true }) = true ∧
      (s.here).poisoned (popFifos .cmp { wp := true }) = some .ltoc) ∧
    (let s := devWith (fun k => { k with ltoc := [false], imemCmp := [(0, 0xE0000000)] }.setWait .cmp .tokens);
      ((s.core 0).eng .cmp).wait = .tokens ∧ (s.core 0).hold = false ∧
      (s.core 0).tokensPresent (wordPops .cmp ((s.core 0).engWordBits .cmp)) = true) ∧
    (let k : Core := { ({ } : Core) with ltoc := List.replicate 7 false }.onEng .lds (fun g => { g with pushq :=
        [{ toNext := true, kind := .step, op := 1, serial := 1, ready := true, poison := false }] });
      (k.eng .lds).pushq = [{ toNext := true, kind := .step, op := 1, serial := 1, ready := true, poison := false }] ∧
      (k.fifo (pushFifo .lds true)).length < 8) := by decide +kernel

/-- A poisoned token faults DEP_POISON with the FIFO's code and is popped (R179). -/
theorem test_poison :
    nextAnd (exec (.cmpNop { wp := true }) { cmpDev.onHere (fun k => { k with ltoc := [true] }) with actSeq := .cmp }) (fun t =>
      (t.here).ltoc == [] && (t.here).faults.map (fun f => (f.cause, f.tval)) == [(Cause.depPoison, 0)]) = true := by decide +kernel

theorem witness_TransferScalars :
    ldsDev.takes { wn := true } ∧ (∃ bs, boxldRead (ldsDev.areg 2) ldsDev = .ok bs ∧ boxldRead ((ldsDev.taken { wn := true }).areg 2)
      (ldsDev.taken { wn := true }) = .ok bs) ∧
    ((ldsDev.here).xfer ldsDev.actSts).settled = true := by
  refine ⟨witness_takes.2.2.1, ⟨(ldsDev.load ldsDev.engWho .load 0x0 128).toOption.elim [] Prod.fst, ?_, ?_⟩, by decide +kernel⟩ <;> rfl

theorem test_transfer_scalars :
    nextAnd (exec (.aadd { } 1 2 3) ((ldsDev.setAreg 2 0xFFFFFFFFFFFFFFFF).setAreg 3 3)) (fun t => t.areg 1 == 2) = true ∧
    nextAnd (exec (.amov { } 1 2) (ldsDev.setAreg 2 5)) (fun t => t.areg 1 == 5 && (t.here).lds.eng.pc == 1) = true ∧
    nextAnd (exec (.xferEnd { sn := true }) ldsDev) (fun t => (t.here).lds.eng.cur.isNone && (t.here).ltoc == [false]) = true ∧
    nextAnd (exec (.loopt { } 2 3) (ldsDev.setAreg 2 5)) (fun t =>
      (t.here).lds.eng.loops == [{ first := 1, last := 3, count := 5 }]) = true ∧
    nextAnd (exec (.xferSemadd { sn := true } 3 (.imm 0xFF)) (ldsDev.onHere (fun k => k.setSem 3 2))) (fun t =>
      (t.here).sem 3 == 1 && (t.here).ltoc == [false]) = true := by decide +kernel

/-- CMP with a type and VL, one group. -/
def shaped (ty : EType) (vl : Nat) (f : State → State) : State :=
  f (cmpDev.onHere (fun k => k.onCmp (fun x => { x with shape := { x.shape with ty := ty, vl := BitVec.ofNat 10 vl, glog := 7 } })))

/-- A register with its first lanes given. -/
def vec (ty : EType) (l : List Nat) : VReg := setLanes 0 ty (fun i => l[i]?)

/-- The first lanes of a register. -/
def lanesIn (s : State) (ty : EType) (r : BitVec 5) (n : Nat) : List Nat := (List.range n).map (fun i => laneOf (s.vreg r) ty i)

theorem witness_CmpScalars :
    cmpDev.takes { wp := true } ∧ cmpDev.actSeq = .cmp ∧
    (let s := shaped .k4 3 (fun u => u.setKreg 2 0xFFFF0200); (s.kreg 2).toNat / 2 ^ 10 % 2 ^ 6 = 0 ∧ (s.kreg 2).toNat < 2 ^ 32 ∧
      (s.kreg 2).toNat % 2 ^ 10 ≤ lanesOf .k4) ∧
    (let s := cmpDev.setKreg 2 0x1FFFC0; okAnd (sldRead 2 .abuf s) (fun bs => okAnd (sldRead 2 .abuf (s.taken { wp := true })) (fun cs =>
      bs == cs)) = true) ∧
    (cmpDev.here).cmp.mq.any (fun m => m.counts 3) = false ∧
    (let s := (cmpDev.setKreg 2 0x1FFFFF).setKreg 3 1; (s.kreg 2).toNat + (s.kreg 3).toNat ≤ bufSize .abuf) ∧
    (1 : Word).toNat = ((cmpDev.here).sem 15).toNat + 1 ∧
    (let s := cmpDev.onHere (fun k => k.setSem 15 0xFFFFFFFF); s.takes { wp := true } ∧ (s.here).sem 15 = BitVec.allOnes 32) ∧
    (cmpDev.here).cmp.eng.pc + (0x7FFF : BitVec 17).toNat ≤ 32767 ∧ (cmpDev.here).cmp.eng.loops.length < 4 := by
  refine ⟨⟨by decide +kernel, by decide +kernel⟩, by decide +kernel, by decide +kernel, by decide +kernel, by decide +kernel,
    by decide +kernel, by decide +kernel, ⟨⟨by decide +kernel, by decide +kernel⟩, by decide +kernel⟩, ?_⟩; decide +kernel

theorem test_cmp_scalars :
    nextAnd (exec (.kadd { } 1 2 0x1FFF) (cmpDev.setKreg 2 5)) (fun t => t.kreg 1 == 4) = true ∧
    nextAnd (exec (.kli { } 1 0x10000) cmpDev) (fun t => t.kreg 1 == 0xFFFFFFFFFFFF0000) = true ∧
    nextAnd (exec (.shape { } .i16 .rz true 4 2) (cmpDev.setKreg 2 0x03050010)) (fun t =>
      t.shape == { ty := .i16, vl := 16, glog := 4, rm := .rz, sat := true, rows := 5, cols := 3 }) = true ∧
    nextAnd (exec (.shape { } .i16 .rz true 4 2) (cmpDev.setKreg 2 0x81)) (fun t =>
      (t.here).faults.map (fun f => f.cause) == [Cause.reservedField]) = true ∧
    nextAnd (exec (.smod { } 1 .addrow0 4) (cmpDev.setKreg 4 7)) (fun t => dRow0 (t.streg 1) == 7) = true ∧
    nextAnd (exec (.feclr { } .abuf 2 3) ((cmpDev.setKreg 2 0x10).setKreg 3 17)) (fun t => (t.here).aEmpty == [1, 2]) = true ∧
    nextAnd (exec (.fragsel { } 2 3) ((cmpDev.setKreg 2 0x109).setKreg 3 6)) (fun t =>
      (t.here).ctl.jsel == 9 && (t.here).ctl.accn == 6 && (t.here).sem 15 == 1) = true ∧
    nextAnd (exec (.loopk { } 2 4) (cmpDev.setKreg 2 0)) (fun t => (t.here).cmp.eng.pc == 5) = true := by decide +kernel

theorem test_vli_pset :
    nextAnd (exec (.vli { } 1 0xFFFE) (shaped .i32 2 id)) (fun t => lanesIn t .i32 1 3 == [0xFFFFFFFE, 0xFFFFFFFE, 0]) = true ∧
    nextAnd (exec (.pset { } 1 (.first 2)) (shaped .i16 4 (fun u => u.setKreg 2 3))) (fun t => t.preg 1 == 0x3F) = true ∧
    nextAnd (exec (.pset { } 7 (.bits 2)) (shaped .i32 4 (fun u => u.setKreg 2 0x15))) (fun t => t.preg 7 == 0xF0F) = true := by
  decide +kernel

theorem witness_VectorPredicates : (shaped .i16 4 id).takes { wp := true } ∧ isNum (shaped .i16 4 id).shape.ty = true ∧
    isNum (shaped .k4 4 id).shape.ty = false :=
  ⟨⟨by decide +kernel, by decide +kernel⟩, by decide +kernel, by decide +kernel⟩

theorem witness_VectorIntegers : (shaped .i16 4 id).takes { wp := true } ∧ EType.signed? (shaped .i16 4 id).shape.ty = some true ∧
    EType.signed? (shaped .u8 4 id).shape.ty = some false :=
  ⟨⟨by decide +kernel, by decide +kernel⟩, by decide +kernel, by decide +kernel⟩

theorem test_vector_integers :
    nextAnd (exec (.vadd { } { } 3 1 (.k 2)) (shaped .i8 2 (fun u => (u.setVreg 1 (vec .i8 [0x7F, 0xFF, 9])).setKreg 2 1)))
      (fun t => lanesIn t .i8 3 3 == [0x80, 0, 0]) = true ∧
    nextAnd (exec (.vadds { } { } 3 1 (.v 2)) (shaped .i8 2 (fun u => (u.setVreg 1 (vec .i8 [0x7F, 0x80])).setVreg 2 (vec .i8 [1, 0xFF]))))
      (fun t => lanesIn t .i8 3 2 == [0x7F, 0x80]) = true ∧
    nextAnd (exec (.vmulh { } { } 3 1 (.v 2)) (shaped .i16 1 (fun u => (u.setVreg 1 (vec .i16 [0xFFFF])).setVreg 2 (vec .i16 [2]))))
      (fun t => lanesIn t .i16 3 1 == [0xFFFF]) = true ∧
    nextAnd (exec (.vdiv { } { } 3 1 (.v 2)) (shaped .i16 2 (fun u => (u.setVreg 1 (vec .i16 [0xFFF9, 5])).setVreg 2 (vec .i16 [2, 0]))))
      (fun t => lanesIn t .i16 3 2 == [0xFFFD, 0]) = true ∧
    nextAnd (exec (.vsra { } { } 3 1 (.v 2)) (shaped .i8 2 (fun u => (u.setVreg 1 (vec .i8 [0x90, 0x90])).setVreg 2 (vec .i8 [4, 8]))))
      (fun t => lanesIn t .i8 3 2 == [0xF9, 0xFF]) = true ∧
    nextAnd (exec (.vfshl { } { } 3 1 (.v 2)) (shaped .u8 1 (fun u =>
        ((u.setVreg 1 (vec .u8 [0x12])).setVreg 2 (vec .u8 [0x34])).setVreg 3 (vec .u8 [4]))))
      (fun t => lanesIn t .u8 3 1 == [0x23]) = true ∧
    nextAnd (exec (.vsel { } { } 3 1 (.v 2)) (shaped .u8 1 (fun u =>
        ((u.setVreg 1 (vec .u8 [0xAA])).setVreg 2 (vec .u8 [0x55])).setVreg 3 (vec .u8 [0xF0]))))
      (fun t => lanesIn t .u8 3 1 == [0xA5]) = true ∧
    nextAnd (exec (.vclz { } { } 3 1) (shaped .u16 2 (fun u => u.setVreg 1 (vec .u16 [0x00FF, 0])))) (fun t =>
      lanesIn t .u16 3 2 == [8, 16]) = true := by decide +kernel

theorem witness_VectorFloats : (shaped .f32 4 id).takes { wp := true } ∧ EType.fmt? (shaped .f32 4 id).shape.ty = some .f32 ∧
    isFloat (shaped .f32 4 id).shape.ty = true ∧ isWord32 (shaped .f32 4 id).shape.ty = false ∧
    isWord32 (shaped .u32 4 id).shape.ty = true ∧ isNum (shaped .f32 4 id).shape.ty = true :=
  ⟨⟨by decide +kernel, by decide +kernel⟩, by decide +kernel, by decide +kernel, by decide +kernel, by decide +kernel,
    by decide +kernel⟩

/-- One third, the square root of two, and the larger of +0 and -0 (R75, R101, R194). -/
theorem test_vector_floats :
    nextAnd (exec (.vdiv { } { } 3 1 (.v 2)) (shaped .f32 2 (fun u =>
        (u.setVreg 1 (vec .f32 [0x3F800000, 0x3F800000])).setVreg 2 (vec .f32 [0x40400000, 0]))))
      (fun t => lanesIn t .f32 3 2 == [0x3EAAAAAB, 0x7F800000]) = true ∧
    nextAnd (exec (.vsqrt { } { } 3 1) (shaped .f32 1 (fun u => u.setVreg 1 (vec .f32 [0x40000000]))))
      (fun t => lanesIn t .f32 3 1 == [0x3FB504F3]) = true ∧
    nextAnd (exec (.vfma { } { } 3 1 (.v 2)) (shaped .f16 1 (fun u =>
        ((u.setVreg 1 (vec .f16 [0x3C00])).setVreg 2 (vec .f16 [0x4000])).setVreg 3 (vec .f16 [0x4200]))))
      (fun t => lanesIn t .f16 3 1 == [0x4500]) = true ∧
    nextAnd (exec (.vneg { } { } 3 1) (shaped .f32 1 (fun u => u.setVreg 1 (vec .f32 [0x7F800001]))))
      (fun t => lanesIn t .f32 3 1 == [0x7FC00000]) = true ∧
    nextAnd (exec (.vunif { } { } 3 1) (shaped .f32 1 (fun u => u.setVreg 1 (vec .f32 [0xFFFFFFFF]))))
      (fun t => lanesIn t .f32 3 1 == [0x3F7FFFFF]) = true ∧
    nextAnd (exec (.vcvt { } { } 3 1 .i32) (shaped .f32 1 (fun u => u.setVreg 1 (vec .i32 [0xFFFFFFFF]))))
      (fun t => lanesIn t .f32 3 1 == [0xBF800000]) = true := by decide +kernel

theorem test_compare :
    nextAnd (exec (.vcmplt { } { } 1 1 (.v 2)) (shaped .i16 3 (fun u =>
        (u.setVreg 1 (vec .i16 [0xFFFF, 5, 7])).setVreg 2 (vec .i16 [0, 5, 8])))) (fun t => t.preg 1 == 0x33) = true ∧
    nextAnd (exec (.vcmpne { } { } 1 1 (.v 2)) (shaped .f32 1 (fun u =>
        (u.setVreg 1 (vec .f32 [0x7FC00000])).setVreg 2 (vec .f32 [0])))) (fun t => t.preg 1 == 0xF && (t.here).ctl.fpstat == 0) = true := by
  decide +kernel

/-- Values and sizes that meet the clauses on rounding: 1, 3 and -3 in f32, with the power of two below 3. -/
theorem witness_Rounding :
    (Fmt.f32 ∈ [Fmt.f16, .bf16, .f32, .a64] ∧ 0 ≤ Fmt.f32.expOnes ∧ 5 < 2 ^ (Fmt.f32.p - 1) ∧ 0 < 127 ∧ 127 < Fmt.f32.expOnes) ∧
    (Fmt.f32.value 0x3F800000 = .fin false 8388608 (-23) ∧ Fmt.f32.value 0xC0400000 = .fin true 12582912 (-22) ∧
      Fmt.f32.value 0 = .fin false 0 (-149)) ∧
    ((1 : ℝ) = (if false = true then -1 else 1) * (8388608 : Nat) * (2 : ℝ) ^ (-23 : Int) ∧
      (-3 : ℝ) = (if true = true then -1 else 1) * (12582912 : Nat) * (2 : ℝ) ^ (-22 : Int) ∧
      (0 : ℝ) = (if false = true then -1 else 1) * (0 : Nat) * (2 : ℝ) ^ (-149 : Int)) ∧
    ((-3 : ℝ) ≠ 0 ∧ (true = true ↔ (-3 : ℝ) < 0) ∧ (2 : ℝ) ^ (1 : Int) ≤ |(-3 : ℝ)| ∧ |(-3 : ℝ)| < (2 : ℝ) ^ (1 + 1 : Int)) ∧
    ((∃ t ∈ [XVal.nan true], t.isNan = true) ∧ (∀ t ∈ [XVal.inf true, .inf false], t.isNan = false) ∧
      XVal.inf true ∈ [XVal.inf true, .inf false] ∧ XVal.inf false ∈ [XVal.inf true, .inf false] ∧
      XVal.inf (!true) ∉ [XVal.inf true]) ∧
    List.Forall₂ (fun (t : XVal) (v : ℝ) => ∃ n m e, t = .fin n m e ∧ v = (if n then -1 else 1) * (m : Nat) * (2 : ℝ) ^ (e : Int))
      [.fin false 3 0, .fin true 3 0] [3, -3] := by
  refine ⟨by decide, by decide, ⟨by norm_num, by norm_num, by norm_num⟩, ⟨by norm_num, by norm_num, by norm_num, by norm_num⟩,
    by decide, .cons ⟨false, 3, 0, rfl, by norm_num⟩ (.cons ⟨true, 3, 0, rfl, by norm_num⟩ .nil)⟩

/-- Rounding to the nearer neighbour, to the even one, and beyond the largest number, by hand from R73. -/
theorem test_rounding :
    roundTo .f16 .rne (.fin false 4097 (-12)) = (0x3C00, { nx := true }) ∧
    roundTo .f16 .ru (.fin false 4097 (-12)) = (0x3C01, { nx := true }) ∧
    roundTo .f16 .rne (.fin false 4099 (-11)) = (0x4001, { nx := true }) ∧
    roundTo .f16 .rne (.fin true 65520 0) = (0xFC00, { of := true, nx := true }) ∧
    roundTo .f16 .rz (.fin false 65536 0) = (0x7BFF, { of := true, nx := true }) ∧
    roundTo .f16 .rne (.fin false 1 (-25)) = (0, { uf := true, nx := true }) := by decide +kernel

/-- Codes and values that meet the clauses on conversion. -/
theorem witness_Conversions :
    ((64, 16, (-1 : Int), 4) ∈ [((64 : Nat), (16 : Nat), (-1 : Int), (4 : Nat))] ∧ 15 < 16 ∧ 3 < (if 64 = 2 then 2 else 4) ∧
      127 = 64 + 3 * 16 + 15) ∧
    ([(0 : ℝ), 1 / 8][1]? = some (1 / 8)) ∧ (3 < 4 ∧ 4 * 62 + 3 < 255) ∧
    (EType.signed? .i8 = some true ∧ 0x80 < 2 ^ EType.bits .i8 ∧ EType.fmt? .bf16 = some .bf16 ∧
      (roundTo .bf16 .rne (.fin false 1 200)).2.of = true ∧ (roundTo .bf16 .rne (.fin false 1 0)).2.of = false) := by
  refine ⟨by decide, rfl, by decide, by decide +kernel⟩

/-- K8 and K4 codes of R77 and R80, and an integer's clamp (R79). -/
theorem test_conversions :
    convert false (.fin false 31 (-2)) .k8 .rne false = (127, { }) ∧
    convert false (.fin false 31 0) .k8 .rne false = (127, { of := true, nx := true }) ∧
    convert false (.fin true 5 (-2)) .k4 .rne false = (12, { nx := true }) ∧
    convert false (.fin false 5 (-1)) .i8 .rne false = (2, { nx := true }) ∧
    convert false (.fin false 300 0) .u8 .rne false = (255, { nv := true }) ∧
    convert true (.ofInt (-3)) .i8 .rne false = (0xFD, { }) := by decide +kernel

/-- A verify table of one target record, and the descriptor it names, at 0x1000 and 0x2000 (R281, R284). -/
theorem witness_VectorGroups :
    (shaped .u32 1 id).takes { wp := true } ∧ isNum (shaped .u32 1 id).shape.ty = true ∧ isInt (shaped .u32 1 id).shape.ty = true ∧
      acceptCheck { } (.k 2) (shaped .u32 1 (fun u => u.setKreg 2 0x2000)) = .go ∧
      (shaped .u32 1 id).predFalse { } = false ∧ (shaped .u32 1 id).predFalse { reg := 1 } = true ∧
      (EType.signed? (shaped .i8 1 id).shape.ty = some true ∧ isFloat (shaped .f16 1 id).shape.ty = true ∧
        EType.fmt? (shaped .f16 1 id).shape.ty = some .f16 ∧ (Fmt.f16.value 0x7E00).isNan = true ∧ (Fmt.f16.value 0x3C00).isNan = false) ∧
      (let ds : List Draw := [] ++ { tok := 5, w := 0 } :: []; weightSum ds = 0) ∧
      (let ds : List Draw := [{ tok := 4, w := 1 }] ++ { tok := 5, w := 1 } :: [];
        weightSum [({ tok := 4, w := 1 } : Draw)] * 2 ^ 24 ≤ 2 ^ 23 * weightSum ds ∧
          2 ^ 23 * weightSum ds < (weightSum [({ tok := 4, w := 1 } : Draw)] + 1) * 2 ^ 24) ∧ 0 < lanesOf .u32 :=
  ⟨⟨by decide +kernel, by decide +kernel⟩, by decide +kernel, by decide +kernel, by decide +kernel, by decide +kernel,
    by decide +kernel, by decide +kernel, by decide, by decide, by decide⟩

/-- A float sum is rounded once from its exact value: 2^24 + 1 - 2^24 is 1 (R197). -/
theorem test_groups :
    nextAnd (exec (.vredsum { } { } 3 1) (shaped .f32 3 (fun u => u.setVreg 1 (vec .f32 [0x4B800000, 0x3F800000, 0xCB800000]))))
      (fun t => lanesIn t .f32 3 3 == [0x3F800000, 0x3F800000, 0x3F800000]) = true ∧
    nextAnd (exec (.vscanx { } { } 3 1) (shaped .u8 3 (fun u => u.setVreg 1 (vec .u8 [5, 6, 7])))) (fun t => lanesIn t .u8 3 3 == [0, 5, 11]) = true ∧
    nextAnd (exec (.vredmax { } { } 3 1) (shaped .i8 3 (fun u => u.setVreg 1 (vec .i8 [0xFF, 2, 0x80])))) (fun t => lanesIn t .i8 3 3 == [2, 2, 2]) = true ∧
    nextAnd (exec (.vbcast { } { } 3 1 (.k 2)) (shaped .u8 3 (fun u => (u.setVreg 1 (vec .u8 [5, 6, 7])).setKreg 2 2)))
      (fun t => lanesIn t .u8 3 3 == [7, 7, 7]) = true ∧
    nextAnd (exec (.viota { } { } 3) (shaped .u8 3 id)) (fun t => lanesIn t .u8 3 3 == [0, 1, 2]) = true := by decide +kernel

/-- Streams: st1 reads one row of u8 from the A-buffer, st2 a column of it from the W-buffer, st3 an a64
of memory, st4 a column of memory (R216). -/
def desc (kind ty rows cols stride : Nat) : BitVec 512 :=
  BitVec.ofNat 512 (2 ^ 64 * (kind + 16 * ty) + 2 ^ 96 * rows + 2 ^ 128 * cols + 2 ^ 160 * stride)

def matDev : State :=
  (((cmpDev.setStreg 1 (desc 1 1 1 2 2)).setStreg 2 (desc 2 1 2 1 1)).setStreg 3 (desc 4 11 1 1 8)).setStreg 4 (desc 4 1 2 1 1)

/-- A matrix word at the head of core 0's queue. -/
def matWord (kind : MKind) (da db : BitVec 512) : MWord :=
  { id := 1, kind := kind, da := da, db := db, acc := 0, d8 := 0, rm := .rne, ga := none, gb := none, batch := 0, next := 0,
    flags := { }, tag := 0, frag := 0, hyp := 0, waddr := 0, serial := 1 }

/-- An A-stream whose third column lies beyond the A-buffer, and one of each form that a check refuses. -/
theorem witness_CheckFaults :
    (∀ f ∈ popFifos .cmp { wp := true }, (cmpDev.here).fifo f ≠ []) ∧ (shaped .f32 4 id).predFalse { } = false ∧
    (shaped .f32 4 id).predFalse { reg := 1 } = true ∧
    (let s := shaped .f32 4 (fun u => u.setKreg 2 0x1FFFF8);
      ∃ e ∈ s.contig { } 2, e.addr ≤ 0x200000 ∧ 0x200000 < e.addr + elemBytes .f32) ∧
    (let s := shaped .f32 4 (fun u => u.onHere (fun k => { k.onCmp (fun x => { x with mq := [matWord .accz 0 0] }) with badSram := [(.abuf, 1)] }));
      (∃ m ∈ (s.here).cmp.mq, m.acc.toNat = 0x10 / 32768) ∧ (Space.abuf, 0x10 / 16) ∈ (s.here).badSram) ∧
    (let r (a : Nat) : Req := { kind := .load, group := 0, va := a, n := 4 };
      cmpDev.firstFault cmpDev.engWho [r 0x1000, r (2 ^ 56)] = some (.trap .noncanon, 2 ^ 56) ∧
      cmpDev.firstFault cmpDev.engWho [r (2 ^ 42)] = some (.shadow false, 2 ^ 42) ∧ cmpDev.shlim ≠ 0 ∧
      cmpDev.firstFault cmpDev.engWho [r 0x1000] = none ∧ 2 ^ 56 ≤ 2 ^ 56 ∧
      (match cmpDev.translate cmpDev.engWho (2 ^ 42) with | .ok _ => false | .error f => f == .shadow false) = true ∧
      okAnd (cmpDev.translate cmpDev.engWho 0x1000) (fun l => l.enc == 0 && l.r) = true) ∧
    (matDev.takes { wp := true } → matrixHeld [] matDev = false) ∧
    (let d (x : BitVec 512) : State := matDev.setStreg 1 x;
      matrixChecks (stepNamed .mma 1 2 (d (desc 1 1 1 2 2 ||| (1 <<< 80)))) false matDev = .fault .reservedField 0 ∧
      matrixChecks (stepNamed .mma 1 1 (d (desc 1 1 1 2 2))) false matDev = .fault .engineDenied 0 ∧
      matrixChecks (stepNamed .mma 1 2 (d (desc 0 1 1 2 2))) false matDev = .fault .streamFormat 0 ∧
      matrixChecks (stepNamed .mma 1 2 (d (desc 6 1 1 2 2))) false matDev = .fault .genSlot 0 ∧
      matrixChecks (stepNamed .mma 1 2 (d (desc 1 1 1 2 0x200000))) false matDev = .go ∧
      matrixChecks (stepNamed .mma 1 2 (d (desc 1 1 2 2 0x200000))) false matDev = .fault .bufRange 0x200000) := by
  refine ⟨?_, ?_, ?_, ?_, ?_, ?_, fun _ => ?_, ?_⟩ <;> decide +kernel

/-- The vector state of the memory words: f32 at 0x1FFFF0 of a typed buffer, and at 0x20000000 of PCIe space. -/
def vfar : State := { shaped .f32 4 (fun u => u.setKreg 2 0x20000000) with mem := farDev.mem }

theorem witness_VectorMemory :
    (shaped .f32 4 id).takes { wp := true } ∧ (shaped .f32 4 id).actSeq = .cmp ∧
    (let s := shaped .f32 4 (fun u => u.setKreg 2 0x1FFFF0);
      elemCheck { } .abuf .load (fun u => u.contig { } 2) s = .go ∧ elemCheck { } .abuf .store (fun u => u.contig { } 2) s = .go ∧
      elemCheck { } .abuf .load (fun u => [u.oneElem 2]) s = .go ∧ s.predFalse { } = false ∧ s.peeks = [] ∧
      keepsNibble s.shape.ty (s.contig { } 2) = false ∧
      elemCheck { } .abuf .load (fun u => u.indexed { } 3 2) s = .go ∧ elemCheck { } .abuf .store (fun u => u.indexed { } 3 2) s = .go) ∧
    (let s := shaped .k4 3 id; keepsNibble s.shape.ty (s.contig { } 2) = true ∧
      elemCheck { } .abuf .store (fun u => u.contig { } 2) s = .go) ∧
    (elemCheck { } .glob .load (fun u => u.contig { } 2) vfar = .go ∧
      (∀ i ∈ vfar.lanesOn { }, ∀ j < 4,
        okAnd (vfar.translate vfar.engWho (0x20000000 + 4 * i + j)) (fun l => vfar.postsTo vfar.engWho l) = true)) ∧
    (let s := shaped .f32 4 (fun u => (u.setKreg 2 0x1FFF00)); byteRuns (s.vstuBytes { } 1 2) ≠ [] ∧
      vecCheck .abuf .store ((byteRuns (s.vstuBytes { } 1 2)).map (fun r => (r.1, r.2.length))) s = .go) ∧
    (let s := shaped .f32 1 (fun u => u.onHere (fun k => { k with imemCmp := [(0, 0x40002035)], aEmpty := [0] }.setWait .cmp .fullEmpty));
      (s.core 0).cmp.eng.wait = .fullEmpty ∧ (s.core 0).hold = false ∧ 0 ∈ (s.core 0).empties .abuf ∧ s.seenGranule .abuf 0 = false ∧
      (s.core 0).instrAt .cmp .cmp 32768 (s.core 0).cmp.eng.pc = .vld { } { } 1 3 .abuf .waitFull) ∧
    (let s := (shaped .k4 3 id).onHere (fun k => k.setWait .cmp .nibble);
      (s.core 0).cmp.eng.wait = .nibble ∧ s.halts 0 = false ∧ (s.core 0).hold = false ∧ (s.core 0).cmp.eng.cur.isSome = true ∧
      (s.core 0).cmp.eng.halted = false) ∧
    ((1 : BitVec 5) ≠ 3 ∧ (shaped .f32 4 id).lanesOn { } ≠ [] ∧ (shaped .f32 4 id).lanesOn { reg := 1 } = []) := by
  refine ⟨⟨by decide +kernel, by decide +kernel⟩, ?_, ?_, ?_, ⟨?_, ?_⟩, ?_, ?_, ?_, ?_⟩ <;> decide +kernel

theorem witness_VectorStoreFrame :
    (let s := shaped .f32 4 (fun u => u.setKreg 2 0x1000); s.actSeq = .cmp ∧
      elemCheck { } .glob .store (fun u => u.contig { } 2) s = .go ∧ s.windowAt 0x1010 = none ∧ s.predFalse { } = false ∧
      elemCheck { } .glob .store (fun u => u.indexed { } 3 2) s = .go ∧ s.tags = [] ∧ s.tlt = [] ∧ s.stale = [] ∧
      (∀ l ∈ s.storesTo [(0x1000, [1, 2])], l.2.2.dev = none ∧ l.2.2.enc = 0 ∧ l.2.2.pa + l.2.1 ≤ 0x1010 ∧ 0x1080 / 128 ∉ linesOf l.2.2.pa l.2.1)) ∧
    (let n : NibStore := { sp := .glob, fill := false, inc := false, k := 0, tok := { }, runs := [(0x1000, some amoCmd.leaf, [1])] };
      ((cmpDev.onHere (fun k => k.onCmp (fun x => { x with nib := some n }))).here).cmp.nib = some n ∧
      (∀ r ∈ n.runs, ∀ l ∈ r.2.1, l.dev = none ∧ l.pa % 128 = r.1 % 128 ∧ 0x1080 / 128 ∉ linesOf l.pa r.2.2.length)) ∧
    (lineCmd.line.leaf.pa % 128 = lineCmd.line.va % 128 ∧ dev.windowAt 0x1080 = none ∧
      0x1080 / 128 ∉ linesOf lineCmd.line.leaf.pa lineCmd.line.bytes.length) := by decide +kernel

theorem test_vector_memory :
    nextAnd (exec (.vsti { } { } 1 2 .abuf .plain) (shaped .u16 2 (fun u => (u.setVreg 1 (vec .u16 [0x1122, 0x3344, 0x5566])).setKreg 2 8)))
      (fun t => (t.here).bufBytes .abuf 7 6 == [0, 0x22, 0x11, 0x44, 0x33, 0] && t.kreg 2 == 12) = true ∧
    nextAnd (exec (.vld { } { } 1 2 .glob .plain) ((shaped .u16 2 (fun u => u.setKreg 2 0x1000)).commit 0x1000 [1, 2, 3, 4]))
      (fun t => lanesIn t .u16 1 3 == [0x201, 0x403, 0]) = true ∧
    nextAnd (exec (.vld { } { } 1 2 .abuf .waitFull) (shaped .u16 2 (fun u => u.onHere (fun k => { k with aEmpty := [0] }))))
      (fun t => (t.here).cmp.eng.wait == .fullEmpty) = true ∧
    nextAnd (exec (.vld { } { } 1 2 .abuf .plain) (shaped .u16 2 (fun u => u.setKreg 2 0x1FFFFE)))
      (fun t => (t.here).faults.map (fun f => (f.cause, f.tval)) == [(Cause.bufRange, 0x200000)]) = true ∧
    nextAnd (exec (.vgath { } { } 1 3 2 .abuf) (shaped .u8 3 (fun u => (u.setVreg 3 (vec .u32 [2, 0xFFFFFFFF, 0])).onHere (fun k =>
        k.putBuf .abuf 0 [7, 8, 9])))) (fun t => lanesIn t .u8 1 3 == [9, 0, 7]) = true ∧
    nextAnd (exec (.vpart { } { } 1 3 2) (shaped .u8 4 (fun u => (u.setVreg 1 (vec .u8 [5, 6, 7, 8])).setVreg 3 (vec .u8 [1, 0, 0, 2]))))
      (fun t => lanesIn t .u8 1 4 == [5, 8, 0, 0] && lanesIn t .u8 3 4 == [6, 7, 0, 0] && t.kreg 2 == 2) = true ∧
    nextAnd (exec (.vperm { } { } 1 3) (shaped .u8 4 (fun u => (u.setVreg 1 (vec .u8 [5, 6, 7, 8])).setVreg 3 (vec .u8 [3, 4, 0, 0]))))
      (fun t => lanesIn t .u8 1 4 == [8, 0, 5, 5]) = true := by decide +kernel

theorem witness_MatrixIssue :
    matDev.takes { wp := true } ∧ (matDev.here).cmp.mq.length < 16 ∧
      matrixChecks (stepNamed .mma 1 2 matDev) false matDev = .go ∧ matrixHeld (stepNamed .mma 1 2 matDev) matDev = false ∧
      matrixChecks (stepNamed .mmv 1 4 matDev) false matDev = .go ∧ matrixChecks (tileNamed .dst 3 matDev) false matDev = .go ∧
      matrixChecks (tileNamed .src 3 matDev) false matDev = .go ∧ matrixChecks [] false matDev = .go ∧
      (∀ n ∈ stepNamed .mma 1 2 matDev, dKind n.d ≠ 6) ∧ msealCheck matDev = .go ∧
      16 ≤ (List.replicate 16 (matWord .accz 0 0)).length ∧
      (let s := matDev.onHere (fun k => k.onCmp (fun x =>
          { x with mq := { matWord .accz 0 0 with batch := 8 } :: (List.range 8).map (fun i => { matWord .accz 0 0 with batch := i }), batch := 8 }));
        (∃ m ∈ (s.here).cmp.mq, m.batch = (s.here).cmp.batch) ∧ 8 ≤ (s.here).cmp.sealedInFlight) ∧
      (let s := matDev.onHere (fun k => { k.onCmp (fun x => { x with doomed := some 1 }) with faults := (faultDev.core 0).faults });
        ∃ n, (s.here).cmp.doomed = some n ∧ ∃ f ∈ (s.here).faults, f.eng = some .cmp ∧ f.serial = n) ∧
      (let s := matDev.onHere (fun k => k.setWait .cmp (.msettle 1));
        (s.core 0).cmp.eng.wait = .msettle 1 ∧ (s.core 0).cmp.sealedInFlight ≤ 1 ∧ (s.core 0).hold = false) ∧
      (let s := matDev.onHere (fun k => k.setWait .cmp .matrixLimit);
        (s.core 0).cmp.eng.wait = .matrixLimit ∧ (s.core 0).hold = false) := by
  refine ⟨⟨by decide +kernel, by decide +kernel⟩, ?_, ?_, ?_, ?_, ?_, ?_, ?_, ?_, ?_, ?_, ?_, ⟨1, ?_, ?_⟩, ?_, ?_⟩ <;> decide +kernel

def mqDev (m : MWord) : State := devWith (fun k => k.onCmp (fun x => { x with mq := [m] }))

/-- An ACCLD whose source is at 2^40, where the tables of context 0 hold nothing, and one at 2^56. -/
def accldAt (a : Nat) : MWord := matWord .accld (dSet (desc 4 11 1 1 8) 0 8 a) 0

theorem witness_MatrixProgress :
    (let s := mqDev (matWord .accz 0 0); (s.core 0).cmp.mq = matWord .accz 0 0 :: [] ∧ s.halts 0 = false ∧
      (s.core 0).hold = false ∧ (matWord .accz 0 0).next < (matWord .accz 0 0).parts ∧ s.partBar 0 (matWord .accz 0 0) = .none ∧
      s.shlim ≠ 0 ∧ (matWord .accz 0 0).kind ≠ .mdrain ∧ s.posted = [] ∧ (∀ p ∈ (s.core 0).cmp.eng.pushq, p.op ≠ 1)) ∧
    ({ matWord .accz 0 0 with next := 1 }).parts ≤ 1 ∧
    (∃ p ∈ [{ farPost (.write [1]) with who := { dev.ctlWho with agent := .mat 0 1 } }], p.who.agent = .mat 0 1) ∧
    (let m := matWord .mdrain (desc 4 6 1 2 1) 0; (mqDev m).partBar 0 m = .none ∧ m.keeps 0 = false ∧ m.next < m.parts) ∧
    (mqDev (accldAt (2 ^ 42))).partBar 0 (accldAt (2 ^ 42)) = .shadow (2 ^ 42) false ∧
    (mqDev (accldAt (2 ^ 56))).partBar 0 (accldAt (2 ^ 56)) = .fault .noncanon (2 ^ 56) ∧
    (let s := devWith (fun k => (k.onCmp (fun x => { x with mq := [matWord .accz 0 0] })).setWait .ctl (.slot 3 .free));
      (s.core 0).ctl.wait = .slot 3 .free ∧ s.slotBusy (s.core 0).theTask.ctx 3 = false) := by decide +kernel

/-- Two products of a step, 3 · 5 + 4 · 6, in element 0 of tile 0 (R93, R223). -/
theorem test_matrix_step :
    nextAnd (exec (.matrixWordComplete 0 3) ((mqDev (matWord .mma (desc 1 1 1 2 2) (desc 2 1 2 1 1))).onCore 0 (fun k =>
        (k.putBuf .abuf 0 [3, 4]).putBuf .wbuf 0 [5, 6]))) (fun t =>
      (t.core 0).cmp.mq == [] && (t.core 0).cbuf.read 0 0 == 0x4043800000000000) = true := by decide +kernel

theorem witness_GeneratorIntegers : (genDev.here).ogu = some genEval := by decide +kernel

theorem test_generator :
    nextAnd (exec (.genRotl 1 2 3) genDev) (fun t => (t.here).ogu.map (fun v => v.reg 1) == some 0x280) = true ∧
    nextAnd (exec (.genI2f 1 2) genDev) (fun t => (t.here).ogu.map (fun v => v.reg 1) == some 0x40A00000) = true ∧
    nextAnd (exec (.genLui 1 0x1FE0) genDev) (fun t => (t.here).ogu.map (fun v => v.reg 1) == some 0x7F800000) = true ∧
    nextAnd (exec (.genOuti 2) genDev) (fun t => (t.here).ogu.map (fun v => v.out) == some (some (some 0x40A00000))) = true ∧
    nextAnd (exec (.genLoop 4 2) genDev) (fun t => (t.here).ogu.map (fun v => v.pc) == some 3) = true := by decide +kernel

/-- Bytes with some of them given. -/
def bytesOf (n : Nat) (l : List (Nat × Nat)) : List Byte := (List.range n).map (fun i => BitVec.ofNat 8 ((l.lookup i).getD 0))

/-- Context 0 with hypotheses 1, 2 (LIVE at the root) and 3 (LIVE under 1), all of set 5. -/
def hypDev (f : State → State) : State :=
  f ((devWith (fun k => { k with task := some { task0 with desc := { task0.desc with vsize := 0x1000 } } })).onCtx 0 (fun c => { c with
    hyps := [{ id := 1, state := .live, parent := 0, set := 5 }, { id := 2, state := .live, parent := 0, set := 5 },
      { id := 3, state := .live, parent := 1, set := 5 }] }))

theorem witness_Hypotheses :
    (let s := hypDev (fun u => u.setSreg 1 0x0501); let c := s.ctx s.myCtx
      (s.sreg 1).toNat < 2 ^ 16 ∧ c.rootOrLive ((s.sreg 1).setWidth 8) = true ∧ c.freeIds = 4 :: (List.range 251).map (fun i => BitVec.ofNat 8 (i + 5))) ∧
    2 ^ 16 ≤ (0x10000 : DWord).toNat ∧ (hypDev id).myCtx = 0 ∧ ((hypDev id).ctx 0).rootOrLive 9 = false ∧
    (let s := dev.onCtx 0 (fun c => { c with hyps := (List.range 255).map (fun i =>
        { id := BitVec.ofNat 8 (i + 1), state := .live, parent := 0, set := 0 }) });
      (s.ctx 0).rootOrLive 0 = true ∧ (s.ctx 0).freeIds = [] ∧ ((s.ctx 0).freeIds.take 1).length < 1) ∧
    ((0x0520 : DWord).toNat % 64 = 32 ∧ (0x0520 : DWord).toNat / 2 ^ 6 % 4 = 0 ∧ (((hypDev id).ctx 0).freeIds.take 32).length = 32 ∧
      (((hypDev id).ctx 0).freeIds.take 32).head? = some 4) ∧
    ((0xFF : DWord).toNat < 2 ^ 8 ∧ ((hypDev id).ctx 0).liveAtRoot 2 = true ∧ ((hypDev id).ctx 0).liveAtRoot 3 = false ∧
      ((hypDev id).ctx 0).isLive 3 = true ∧ ((hypDev id).ctx 0).isLive 9 = false) ∧
    (let s := hypDev (fun u => u.onCtx 0 (fun c => { c with wins := [{ name := 1, members := [1, 3] }] }));
      ((s.ctx 0).window 1).map (fun u => ((s.ctx 0).leading u.members).length) = some 2 ∧ (s.ctx 0).liveAtRoot 1 = true) ∧
    (((hypDev id).ctx 0).hyp 1).isSome = true ∧ 2 ∈ ((hypDev id).ctx 0).siblings 1 := by decide +kernel

/-- A version under a hypothesis, its confirmation, and the refutation of its sibling (R270, R273). -/
theorem test_hypotheses :
    nextAnd (exec (.hopen 4 1) (hypDev (fun u => u.setSreg 1 0x0700))) (fun t =>
      t.sreg 4 == 4 && (t.ctx 0).hyp 4 == some { id := 4, state := .live, parent := 0, set := 7 }) = true ∧
    nextAnd (exec (.stb 2 1 0) (hypDev (fun u => ((u.setSreg 1 0x1000).setSreg 2 0x77).onCtl (fun k => { k with hcur := 1 })))) (fun t =>
      t.phys 0x1000 == 0 && (t.ctx 0).version 1 0x1000 == some 0x77 && (t.ctx 0).version 3 0x1000 == some 0x77 &&
      (t.ctx 0).version 2 0x1000 == none &&
      nextAnd (exec (.hresolve 5 true) (t.setSreg 5 1)) (fun w => w.phys 0x1000 == 0x77 && (w.ctx 0).isRefuted 2)) = true := by
  decide +kernel

/-- An image of one word, OUT g1, at 0x1000 (R119). -/
def imageDev : State :=
  dev.commit 0x1000 (bytesOf 36 [(0, 0x67), (16, 1), (18, 1), (20, 4), (34, 4), (35, 0x78)])

/-- Context 0's pool 1: 24 pages of 64 KiB at 0x200000, MAP at 0x6000 with page 0 taken, OWNER at 0x7000. -/
def poolDev : State :=
  ({ devWith (fun k => { k with task := some { task0 with desc := { task0.desc with pooltab := 0x5000 } } }) with
    mem := Cells.splice 0 (Cells.splice 0 dev.mem 0x6000 [1]) 0x5040 (bytesOf 64
      [(2, 0x20), (8, 24), (12, 16), (13, 1), (17, 0x60), (25, 0x70)]) }).setSreg 1 1

theorem witness_MemoryManagement :
    (∃ hd, imageDev.fetchImage 0x1000 32 = .ok hd ∧ (imageHeaderOk hd && okAnd (imageDev.fetchImage 0x1020 (4 * fieldAt hd 16 2)) (fun bs =>
      (badGenWord 0 (wordsOf bs)).isNone && (badShape (wordsOf bs).length 0 [] (wordsOf bs)).isNone)) = true) ∧
    imageDev.slotBusy 0 3 = false ∧ (imageDev.ctx 0).slot 3 = none ∧
    (let s := (mqDev { matWord .mma (desc 6 8 1 1 0) (desc 2 8 1 1 4) with ga := some genEval.slot }).onCtx 0 (fun c =>
        c.setSlot 0 (some genEval.slot)); s.slotBusy 0 0 = true ∧ ((s.ctx 0).slot 0).isSome = true) ∧
    (let s := poolDev; (s.sreg 1).toNat ≤ 15 ∧ s.liveHcur = 0 ∧ (okAnd (s.load s.poolWho .load (s.poolVa 1) 64) (fun r =>
      (poolOf r.1).ok && (match s.findClear (poolOf r.1) (pagesOf (poolOf r.1).map (((poolOf r.1).npages + 7) / 8)) with
        | .ok (some x) => okAnd (s.poolAccess ((poolOf r.1).owner + x.1) 1) (fun _ => true)
        | .ok none => false
        | .error _ => false)) = true)) ∧
    (let s := poolDev; okAnd (s.poolOfPage 0x210000 (List.range 16)) (fun p => match p with
      | some p => decide (0x210000 % 2 ^ p.pshift = 0) && okAnd (s.poolAccess (p.map + (0x210000 - p.base) / 2 ^ p.pshift / 8) 1) (fun _ => true) &&
          okAnd (s.poolAccess (p.owner + (0x210000 - p.base) / 2 ^ p.pshift) 1) (fun _ => true)
      | none => false) = true ∧
      okAnd (s.poolOfPage 0x400000 (List.range 16)) (fun p => p.isNone) = true) ∧
    (let u := dev.freeSameBase 0 0x1000; u.tlt.any (fun t => t.meets 0 0x1000 256) = false ∧ u.freeTlt 0 = some 0) ∧
    (let s := { dev with tlt := [{ idx := 5, ctx := 0, base := 0x1000, len := 256, state := .draining }] };
      s.tlt.find? (fun t => t.idx == (5 : BitVec 8).toNat && t.state == .draining) =
        some { idx := 5, ctx := 0, base := 0x1000, len := 256, state := .draining } ∧ s.stillUsed 5 = false ∧
      s.tlt.any (fun t => t.meets 0 0x1080 128) = true) ∧
    (let m := mapArg 0x21E00000001; m.ok = true ∧ m.n = 2 ∧ m.off % 2 ^ 16 = 0 ∧ m.off + 2 ^ 16 * m.n = bufSize (Space.ofCode m.buf) ∧
      dev.windowClash 0 3 .abuf m.off 0x40000 (2 ^ 16 * m.n) = false ∧
      okAnd (dev.windowPages dev.ctlWho ((List.range m.n).map (fun i => 0x40000 + i * 2 ^ 16))) (fun pas =>
        pas == [0x40000, 0x50000]) = true ∧ dev.unmapBarNo 0 3 = none) ∧
    (let s := { (devWith (fun k => { k with abuf := [(0, 7)] })) with
        windows := [{ core := 0, w := 3, buf := .abuf, off := 0, va := 0x40000, pas := [0x3000000000] }], downLinks := [(0, 1)] };
      (s.unmapBarNo 0 3).isSome = true) ∧
    (let s := hypDev (fun u => u.onCtl (fun k => { k with hcur := 1 })); s.liveHcur ≠ 0 ∧ s.recordFree = true) ∧
    (let p : Pool := { base := 0x200000, npages := 2, pshift := 16, v := true, map := 0x6000, owner := 0x7000, ok := true };
      let s := { dev with mem := Cells.splice 0 dev.mem 0x6000 [3] };
      (match s.findClear p (pagesOf p.map ((p.npages + 7) / 8)) with
        | .ok none => true
        | _ => false) = true) := by
  refine ⟨exists_ok (by decide +kernel), ?_⟩; decide +kernel

theorem test_memory_management :
    nextAnd (exec (.gload 1 3) (imageDev.setSreg 1 0x1000)) (fun t => (((t.ctx 0).slot 3).map (fun g => g.words)) == some [0x78040000]) = true ∧
    nextAnd (exec (.palloc 4 1) poolDev) (fun t => t.sreg 4 == 0x210000 && t.phys 0x6000 == 3 && t.phys 0x7001 == 0) = true ∧
    nextAnd (exec (.tltset 4 1 2) ((regs 0x1000 256 0).setSreg 4 2)) (fun t => t.sreg 4 == 0 && t.tlt.length == 1) = true ∧
    nextAnd (exec (.mapw 3 1 2) (regs 0x40000 0x10000000001 0)) (fun t =>
      nextAnd (exec (.stb 3 5 0) ((t.setSreg 5 0x40005).setSreg 3 0x9A)) (fun u => (u.here).bufByte .abuf 5 == 0x9A)) = true := by
  decide +kernel

/-- A box of one row of 130 bytes (R171). -/
def box130 : BitVec 1024 := BitVec.ofNat 1024 (130 + 2 ^ 160)

/-- LDS with a COPY of that box from memory to the A-buffer in flight. -/
def copyOp : CopyOp :=
  { kind := .copy, dst := 0x10, src := 0x1000, dsp := .abuf, ssp := .glob, box := box130, unit := 0, held := false, tlt := none }

def opOf (k : OpKind) : Op := { id := 1, kind := k, hyp := 0, tag := 0, frag := 0, waddr := 0, serial := 1, sig := false }

def copyDev (f : CopyOp → CopyOp) : State :=
  (ldsDev.onHere (fun k => k.onXfer false (fun x => { x with ops := [opOf (.copy (f copyOp))] }))).commit 0x1080 [5, 6]

/-- A job of engine 0: 16 by 16 samples, a pitch of 64, a frame stride of 1536 (R184). -/
def mediaRec : List Byte :=
  bytesOf 64 [(4, 1), (32, 16), (34, 16), (36, 64), (41, 6)]

/-- LDS whose a1 names a media job record that R185 accepts, and the engine it goes to. -/
def mediaDev : State :=
  { ldsDev.setAreg 1 0x1000 with mem := Cells.splice 0 dev.mem 0x1000 mediaRec }

theorem witness_CopiesAndMedia :
    (let s := ldsDev.onHere (fun k => k.onXfer false (fun x => { x with bx := x.bx.set 0 (BitVec.ofNat 1024 (128 + 2 ^ 32 * 2 + 2 ^ 161)) }));
      s.takes { wn := true } ∧
      copyCheck { copyOp with box := s.bxreg 0 } s = .go ∧ copyCheck { copyOp with kind := .gath, box := s.bxreg 0 } s = .go ∧
      copyCheck { copyOp with kind := .scat, box := s.bxreg 0 } s = .go ∧ copyCheck { copyOp with kind := .zero, box := s.bxreg 0 } s = .go) ∧
    (let s := copyDev id; ((s.core 0).xfer false).op 1 = some (opOf (.copy copyOp)) ∧ s.halts 0 = false ∧ s.posted = [] ∧ copyOp.unit < bxUnits copyOp.box ∧
      okAnd (s.unitOf (s.core 0) (s.opWho 0 false (opOf (.copy copyOp))) copyOp) (fun p => p.2 == { src := some 0x1000, dst := some 0x10, n := 128 }) = true) ∧
    (let s := copyDev (fun c => { c with dst := 0x200000 });
      (match s.unitOf (s.core 0) (s.opWho 0 false (opOf (.copy copyOp))) { copyOp with dst := 0x200000 } with
        | .ok _ => false
        | .error b => b == .fault .bufRange 0x200000) = true) ∧
    (let p := { copyOp with src := 0x40000000000 }; let s := copyDev (fun _ => p);
      (match s.unitOf (s.core 0) (s.opWho 0 false (opOf (.copy p))) p with
        | .ok _ => false
        | .error b => b == .shadow 0x40000000000 false) = true ∧ s.shlim ≠ 0) ∧
    (let p := { copyOp with ssp := .cbuf, src := 0 }
      let s := (copyDev (fun _ => p)).onHere (fun k => k.onCmp (fun x => { x with mq := [matWord .accz 0 0] }));
      (match s.unitOf (s.core 0) (s.opWho 0 false (opOf (.copy p))) p with
        | .ok _ => false
        | .error b => b == .wait) = true) ∧
    (bxUnits copyOp.box ≤ ({ copyOp with unit := 2 } : CopyOp).unit ∧ bxEmpty copyOp.box = false ∧ bxEmpty 0 = true) ∧
    (mediaDev.takes { wn := true } ∧ okAnd (mdecRead (mediaDev.areg 1) mediaDev) (fun r => r == mediaRec) = true ∧
      okAnd (mdecRead ((mediaDev.taken { wn := true }).areg 1) (mediaDev.taken { wn := true })) (fun r => r == mediaRec) = true) ∧
    (let s := mediaDev.onHere (fun k => { k with imemLds := [(0, 0x6A040000)] }.setWait .lds .mdecQueue);
      ((s.core 0).eng .lds).wait = .mdecQueue ∧ (s.core 0).hold = false ∧
      (s.core 0).instrAt .lds .lds 8192 ((s.core 0).eng .lds).pc = .mdec { wn := true } 1) ∧
    (let s := mediaDev.onHere (fun k => { k with imemLds := [(0, 0x50404001)] }.setWait .lds .deferred);
      ((s.core 0).eng .lds).wait = .deferred ∧ (s.core 0).hold = false ∧
      (s.core 0).instrAt .lds .lds 8192 ((s.core 0).eng .lds).pc = .xferSemadd { } 2 (.imm 1)) ∧
    (let s := mediaDev.onHere (fun k => { k with imemLds := [(0, 0x80040000)] }.setWait .lds .deferred);
      (s.core 0).instrAt .lds .lds 8192 ((s.core 0).eng .lds).pc = .tuse { } 1) ∧
    (let s := cmpDev.onHere (fun k => { k with imemCmp := [(0, 0xC1C28000)] }.setWait .cmp .deferred);
      ((s.core 0).eng .cmp).wait = .deferred ∧
      (s.core 0).instrAt .cmp .cmp 32768 ((s.core 0).eng .cmp).pc = .histrd { } 2 2 false) := by
  refine ⟨⟨⟨?_, ?_⟩, ?_⟩, ?_, ?_, ?_, ?_, ?_, ⟨⟨?_, ?_⟩, ?_⟩, ?_⟩ <;> decide +kernel

/-- The second unit writes the last two bytes, and the step ends with its row complete (R174). -/
theorem test_copy :
    nextAnd (exec (.copyComplete 0 .lds 1 9) (copyDev id)) (fun t =>
      (t.here).bufBytes .abuf 0x8F 4 == [0, 5, 6, 0] && (t.here).lds.ops == []) = true ∧
    nextAnd (exec (.copyUnitFault 0 .lds 1) (copyDev (fun c => { c with dst := 0x200000 }))) (fun t =>
      (t.here).faults.map (fun f => (f.cause, f.tval)) == [(Cause.bufRange, 0x200000)]) = true := by decide +kernel

/-- A media job of core 0's LDS in engine 0's queue, and running. -/
def mdecJob : MdecJob := { record := mediaRec, slot := 0, uid := 0, sts := false, op := 1, who := { ldsDev.engWho with agent := .job 0 false 1 } }

theorem witness_MediaEngine :
    (let s := { ldsDev with media := ldsDev.media.set 0 { queue := [mdecJob] } }; s.media[0].job = none ∧ s.media[0].queue = mdecJob :: []) ∧
    (let s := { ldsDev.onHere (fun k => k.onXfer false (fun x => { x with ops := [opOf .mdec] })) with
        media := ldsDev.media.set 0 { job := some mdecJob } };
      s.media[0].job = some mdecJob ∧ mdecJob.held = false ∧ mdecJob.fin = false ∧ mdecJob.stat = false ∧ mdecJob.bits = none ∧
      (s.taskCore 0 0).isSome = true ∧ ((s.core 0).xfer false).op 1 = some (opOf .mdec) ∧
      (∀ q ∈ ((s.core 0).xfer false).ops, q.id < 1 → q.completed = true) ∧ s.posted = [] ∧
      okAnd (s.load mdecJob.who .load (jobSrc mediaRec) (jobLen mediaRec)) (fun _ => true) = true ∧
      okAnd (s.store mdecJob.who (jobStat mediaRec) (List.replicate 16 0)) (fun _ => true) = true) ∧
    (jobEngine mediaRec < 4 ∧ ¬jobEngine (bytesOf 64 [(3, 0xFF)]) < 4) := by decide +kernel

/-- A collective of one member, one transfer of 128 bytes from 0x2000 to 0x3000 (R290). -/
def collRec : List Byte :=
  bytesOf 128 [(2, 1), (6, 1), (9, 0x20), (17, 0x30), (25, 0x40), (40, 1), (44, 1), (48, 7), (56, 1)]

def collDev : State := { ldsDev.setAreg 1 0x1000 with mem := Cells.splice 0 dev.mem 0x1000 collRec }

def collInst : CollInst :=
  { num := 1, core := 0, slot := 0, uid := 0, sts := false, op := 1, who := ldsDev.engWho, record := collRec, group := [0],
    waddr := 0, frag := 0, tag := 0, serial := 1 }

def arrival : CollArrival :=
  { id := 2, x := { ctx := 0, tgt := 0, collid := 7, rank := 0, walk := 0, daddr := 0x3000, bytes := List.replicate 128 9 } }

def instDev (i : CollInst) : State :=
  { collDev.onHere (fun k => k.onXfer false (fun x => { x with ops := [opOf (.coll 1 false)] })) with
    colls := [i], collNum := 3, collData := [arrival] }

/-- A descriptor of two f32 logits, TOPK 1 and INVT 1.0 (R281). -/
def fireflyDesc : List Byte := bytesOf 128 [(0, 2), (5, 1), (10, 0x80), (11, 0x3F)]

/-- A Firefly region of one page whose descriptor the checks accept. -/
def region : FireflyRegion :=
  { stack := 0, die := 0, ctx := 0, world := 0, va := 0x10000, desc := fireflyDesc, pas := [0x10000], seen := [], bad := false }

/-- A line of that arrival, staged in memory-side cache. -/
def stagedLine : StagedLine :=
  { arr := 2, rank := 0, walk := 0, base := 0x3000, len := 128, va := 0x3000, leaf := { amoCmd.leaf with pa := 0x3000 },
    bytes := List.replicate 128 9, slot := none }

theorem witness_CollectivesAndFirefly :
    (collDev.takes { wn := true } ∧ okAnd (collRead 1 collDev) (fun r => r == (collRec, [0])) = true ∧
      okAnd (collRead 1 (collDev.taken { wn := true })) (fun r => r == (collRec, [0])) = true) ∧
    (let s := instDev collInst; s.halts 0 = false ∧ ((s.core 0).xfer false).op 1 = some (opOf (.coll 1 false)) ∧
      s.inst 1 = some collInst ∧ collInst.held = false ∧ ((s.core 0).xfer false).settledBefore 1 = true ∧
      s.unitFault (collInst.sourceWho 0) collInst.saddr (crBytes collInst.record / 128) = none ∧ memberDev collInst.peer = s.devid.toNat) ∧
    (let i := { collInst with record := bytesOf 128 [(2, 1), (6, 1), (13, 4), (17, 0x30), (25, 0x40), (40, 1), (44, 1), (48, 7), (56, 1)] };
      (instDev i).unitFault (i.sourceWho 0) i.saddr (crBytes i.record / 128) = some (.shadow false, 2 ^ 42) ∧ (instDev i).shlim ≠ 0) ∧
    (let i := { collInst with record := bytesOf 128 [(2, 1), (6, 1), (15, 1), (17, 0x30), (25, 0x40), (40, 1), (44, 1), (48, 7), (56, 1)] };
      (instDev i).unitFault (i.sourceWho 0) i.saddr (crBytes i.record / 128) = some (.trap .noncanon, 2 ^ 56)) ∧
    (let i := { collInst with group := [0x10000] }; memberDev i.peer ≠ (instDev i).devid.toNat ∧
      (instDev i).devReached (dieOf i.core) (memberDev i.peer) = false) ∧
    (let s := instDev collInst; s.collData[0]? = some arrival ∧ arrival.held = false ∧ arrival.inst = none ∧
      s.matchInst arrival.x = some collInst ∧ s.matchInst { arrival.x with ctx := 1 } = none ∧
      (let a := { arrival with inst := some 1 }; let t := { s with collData := [a] }
        t.collData.find? (fun b => b.id == a.id) = some a ∧ a.inst.bind t.inst = some collInst ∧
        (destLines a.x).drop a.sent = (0x3000, 128) :: [] ∧ ¬a.done + 1 < (destLines a.x).length ∧
        t.firstFault collInst.destWho [{ kind := .store, group := 0, va := 0x3000, n := a.x.daddr.toNat + a.x.bytes.length - 0x3000 }] = none ∧
        okAnd (t.access collInst.destWho .store 0x3000 128) (fun l => !t.away l && decide (stackOf l.pa < 12) &&
          decide (l.pa < 2 ^ 36) && (t.termite.toList.map List.length).head? == some 0 && t.stageAt collInst l == some none) = true)) ∧
    (1 < (destLines { arrival.x with daddr := 0x3040 }).length ∧ crOp collInst.record = 0) ∧
    (let i := { collInst with counted := 1 }; let s := instDev i
      s.colls[0]? = some i ∧ s.instAlive i = true ∧ i.counted = crExpect i.record ∧ i.staged = [] ∧ i.localDone = false ∧
        i.failed = false ∧ s.instWaits i = false ∧ ({ i with staged := [stagedLine] } : CollInst).staged ≠ [] ∧
        memberDev ((i.group[0]?).getD 0) = s.devid.toNat) ∧
    (let i := { collInst with localDone := true, counted := 1 }; let m : CollMsg := { ctx := 0, collid := 7, tgt := 0, member := 0 }
      let s := { instDev i with collReports := [m], collNotes := [m] };
      s.collReports[0]? = some m ∧ s.rootInst m = some i ∧ s.collNotes[0]? = some m ∧
      (distinct [] i.group).all (fun x => [(0 : Word)].contains x) = true ∧
      (distinct [] [(0 : Word), 1]).all (fun x => [(0 : Word)].contains x) = false ∧
      s.colls.find? (fun j => j.core == m.tgt && j.who.ctx == m.ctx && crCollid j.record == m.collid && j.localDone &&
        !j.allDone) = some i) ∧
    (let i := { collInst with record := bytesOf 128 [(3, 0x31), (4, 2)] };
      crEvent i.record 0 % 4 = 1 ∧ ((instDev i).taskCore i.slot i.uid).isSome = true ∧ crEvent i.record 1 % 4 = 2 ∧
        crEvent i.record 2 % 4 = 0) ∧
    (let s := { dev with armReqs := [region] }; s.armReqs = region :: [] ∧ region.bad = false ∧ fdOk region.desc = true ∧
      ¬(32 ≤ (s.armed.filter (fun g => g.stack == region.stack)).length)) ∧
    (let f := { region with seen := (List.range 8).map (fun i => 128 + i) }; let s := { dev with armed := [f] }
      s.armed[0]? = some f ∧ f.complete = true ∧ s.maskBytes f = some []) := by
  refine ⟨⟨⟨?_, ?_⟩, ?_⟩, ?_, ?_, ?_, ?_, ⟨?_, ?_, ?_, ?_, ?_, ?_, ?_, ?_, ?_, ?_, ?_⟩, ?_, ?_, ?_, ?_, ?_, ?_⟩ <;> decide +kernel

/-- The transfer of a collective to its own core, its arrival at the Termite, and the line's write (R293 to R295). -/
theorem test_collective :
    nextAnd (exec (.srcFree 0 .lds 1 4) { instDev collInst with collData := [] }) (fun t =>
      t.collData.length == 1 && t.colls.map (fun i => i.walk) == [1]) = true ∧
    nextAnd (exec (.collArrival { i := 0, lines := 8 }) (instDev collInst)) (fun t =>
      t.phys 0x307F == 0 && (t.termite[0]).length == 1 &&
      nextAnd (exec (.termiteCommand { st := 0, n := 0 }) t) (fun u => u.phys 0x307F == 9 && u.colls.map (fun i => i.counted) == [1])) = true := by
  decide +kernel

/-- A record of one level and one task, its container at 0, with n dependences at an address that no page maps (R302). -/
def lrec (n : Nat) : List Byte := bytesOf 256 [(16, 1), (80, 1), (85, n), (104, 1), (134, 1)]

/-- A launch of context 0 in slot 7 in a phase. -/
def launch (n : Nat) (p : Phase) : Launch := { src := 3, record := lrec n, age := 0, ctx := 0, phase := p }

def lcDev (l : Launch) : State := dev.setSlot 7 (some l)

/-- A container of the one word EXIT, resident at 0. -/
def exitCont : Container := { va := 0, entry := 0, ctl := [0xC4000002], lds := [], cmp := [], sts := [], jt := [], queues := [] }

theorem witness_Launches :
    (dev.boot = .ready ∧ (15 : DWord).toNat % 2 ^ 16 < 2 ^ (dev.lq[3].logn') ∧ ¬(16 : DWord).toNat % 2 ^ 16 < 2 ^ (dev.lq[3].logn')) ∧
    (let s := { dev with lq := dev.lq.set 3 { en := true, tail := 1 } };
      s.freeSlot = some 0 ∧ (srcOrder s.recPtr).find? (fun i => s.srcPending i) = some 3) ∧
    (let s := { dev with pool := [{ record := lrec 0, ctx := 0, slot := 0, taskid := 0 }] };
      s.freeSlot = some 0 ∧ (srcOrder s.recPtr).find? (fun i => s.srcPending i) = some 64) ∧
    completionOf (lrec 0) % 64 = 0 ∧
    (let l := launch 1 .deps; let s := lcDev l
      s.slot 7 = some l ∧ l.phase = .deps ∧ 0 < fieldAt l.record 85 1 ∧ s.depValue l 0 = none) ∧
    (let l := launch 0 .deps; let s := lcDev l
      s.slot 7 = some l ∧ l.phase = .deps ∧ ∀ i < fieldAt l.record 85 1, ∃ v, s.depValue l i = some v ∧ depTarget l.record i ≤ v) ∧
    (let l := launch 0 .ready; let s := lcDev l
      s.slot 7 = some l ∧ l.phase = .ready ∧ s.containerFor l = .error 0x07) ∧
    (let l := launch 0 .ready; let s := (lcDev l).onCtx 0 (fun c => { c with resident := [exitCont] })
      s.slot 7 = some l ∧ l.phase = .ready ∧ s.containerFor l = .ok exitCont) ∧
    (let l := { launch 0 .loaded with cursor := some [] }; (lcDev l).takeNext [] = some (7, l)) ∧
    (let s := devWith (fun k => { k with victim := true });
      (s.core 0).victim = true ∧ (s.core 0).task.isSome = true ∧ (s.core 0).hold = false ∧ (s.core 0).ctl.wait ≠ .message) ∧
    (let l := { launch 0 .loaded with cursor := some [], since := some 0 }; let s := { lcDev l with clock := 18000000 };
      s.slot 7 = some l ∧ l.since = some 0 ∧ l.eff < 7 ∧ 18000000 * (l.eff + 1 - l.prio) ≤ l.waited + (s.clock - 0)) ∧
    (let l := launch 0 .loaded; (lcDev l).slot 7 = some l ∧ (lcDev l).finished l = true ∧ (lcDev l).completionBar l = none ∧
      okAnd ((lcDev l).store l.who (completionOf l.record) l.completion) (fun _ => true) = true) ∧
    (let l := { launch 0 .loaded with record := bytesOf 256 [(93, 4)] }; completionOf l.record % 64 = 0 ∧ ((lcDev l).completionBar l).isSome = true) ∧
    (completionOf (bytesOf 256 [(88, 1)]) % 64 ≠ 0 ∧ dev.mayRing 3 = true ∧
      ({ dev with tdi := dev.tdi.set 2 { state := .run, queues := 8 } } : State).mayRing 3 = false) := by
  refine ⟨?_, ?_, ?_, ?_, ?_, ⟨?_, ?_, ?_⟩, ?_⟩
  · decide +kernel
  · decide +kernel
  · decide +kernel
  · decide +kernel
  · decide +kernel
  · decide +kernel
  · decide +kernel
  · intro i h
    exact absurd h (by rw [show fieldAt (launch 0 .deps).record 85 1 = 0 by decide +kernel]; exact Nat.not_lt_zero i)
  · decide +kernel

/-- A doorbell past the ring sets ERR (R301); bytes that are no container refuses the launch with 0x07 (R122). -/
theorem test_launch :
    nextAnd (exec (.lqtailDoorbell 3 16) dev) (fun t => t.lq[3].err && t.lq[3].tail == 0) = true ∧
    nextAnd (exec (.containerLoad 7) (lcDev (launch 0 .ready))) (fun t =>
      (t.slot 7).map (fun l => l.phase) == some (.refused 0x07 1)) = true := by decide +kernel

/-- Core 0's shadow control context serves a fault of an LDS word. -/
def servDev (ats : Bool) : State :=
  { (ldsDev.onHere (fun k => ({ k with serving := some ({ who := .word .lds, va := 0x5000, ats := ats }, 0) }).setWait .lds .shadow)) with
    clock := 100 }

/-- A core whose clocks are held for the oldest matrix word's fault. -/
def holdDev : State :=
  { devWith (fun k => { k with hold := true, holdAt := 0, shadowQ := [{ who := .matrix, va := 0x5000, ats := false }] }) with
    clock := 1800001 }

theorem witness_FaultService :
    (let s := devWith (fun k => { k with shadowQ := [{ who := .ctl, va := 0x5000, ats := false }] });
      (s.core 0).serving = none ∧ (s.core 0).sealed = false ∧ (s.core 0).nextReq = some { who := .ctl, va := 0x5000, ats := false }) ∧
    (((servDev false).core 0).serving = some ({ who := .word .lds, va := 0x5000, ats := false }, 0) ∧
      (((servDev false).core 0).eng .lds).wait = .shadow) ∧
    ((servDev true).core 0).serving = some ({ who := .word .lds, va := 0x5000, ats := true }, 0) ∧
    decide ({ servDev false with shlim := 99 }.clock - 0 ≤ (99 : DWord).toNat) = false ∧
    ((devWith (fun k => k.setWait .ctl .shadow)).core 0).ctl.wait = .shadow ∧
    (((copyDev id).core 0).xfer false).op 1 = some (opOf (.copy copyOp)) ∧
    ((holdDev.core 0).serving = none ∧ (holdDev.core 0).hold = true ∧ (holdDev.core 0).sealed = false ∧
      (holdDev.core 0).shadowQ.find? (fun q => q.who == .matrix) = some { who := .matrix, va := 0x5000, ats := false } ∧
      holdDev.shlim.toNat < holdDev.clock - (holdDev.core 0).holdAt) ∧
    (0x1000 % 8 = 0 ∧ dev.paExists 0x1000 = true ∧ (3 : BitVec 5) ≠ 0) ∧
    (dev.atsBusy 0 0x1000 0x10000 = false ∧
      (let p := farPost (.write [1]); let e : TlbEnt := { ctx := 0, page := 1, big := true, leaf := 0x4F, pasid := 0 }
        ({ dev with posted := [p], tlb := dev.tlb.set 0 [e] } : State).atsBusy 0 (2 ^ 51) 0x10000 = true)) ∧
    (dev.boot = .ready ∧ dev.tlbiGo = false) ∧
    (let s := { dev with tlbiGo := true }; s.tlbiGo = true ∧ s.diesOut = [] ∧ s.tlbiBusy = false) ∧
    (let s := { dev with tdi := dev.tdi.set 2 { state := .run, ctxs := 4 } }; s.holderOf 2 ≠ none) ∧
    (let s := lcDev (launch 0 .deps); s.holderOf 0 = none ∧ s.ctxInUse 0 = true) ∧
    (let s := { dev with cores := State.reset.cores };
      s.holderOf 0 = none ∧ s.ctxInUse 0 = false ∧ ∀ k ∈ (s.ctx 0).resident, k.va ≠ s.ctxarg) ∧
    (let s := { dev with cores := State.reset.cores }.onCtx 0 (fun c => { c with resident := [exitCont] });
      s.holderOf 0 = none ∧ s.ctxInUse 0 = false ∧ ∃ k ∈ (s.ctx 0).resident, k.va = s.ctxarg) := by
  refine ⟨?_, ?_, ?_, ?_, ?_, ?_, ?_, ?_, ?_, ?_, ?_, ?_, ?_, ⟨?_, ?_, ?_⟩, ?_⟩
  all_goals decide +kernel

/-- A service that outlasts SHLIM leaves the word to trap PAGE_NOT_PRESENT (R67); one in time lets it run again. -/
theorem test_service :
    nextAnd (exec (.shadowServiceDone 0 true { mem := [], own := [] }) { servDev false with shlim := 99 }) (fun t =>
      (t.here).faults.map (fun f => (f.cause, f.tval)) == [(Cause.pageNotPresent, 0x5000)]) = true ∧
    nextAnd (exec (.shadowServiceDone 0 true { mem := [], own := [] }) { servDev false with shlim := 100 }) (fun t =>
      (t.here).faults == [] && ((t.core 0).eng .lds).wait == .none) = true := by decide +kernel

/-- A bring-up in which everything trains, and the parts that may fail. -/
def bring : BringUp := { devid := 5 }

theorem witness_ResetsAndPlatform :
    (dev.boot = .ready ∧ dev.diesOut = [] ∧ dev.present 0 = true) ∧
    (let s := { dev with diesOut := [2] }; (2 : BitVec 2).toNat ∈ s.diesOut ∧ s.tripped = false ∧ s.diesOut ≠ []) ∧
    ({ dev with tripped := true } : State).tripped = true ∧
    ((4 : BitVec 3).toNat ≤ 4 ∧ (1 : BitVec 3).toNat ≤ 4 ∧ (4 : BitVec 3) ≠ 1 ∧
      (min (4 : BitVec 3).toNat (1 : BitVec 3).toNat, max (4 : BitVec 3).toNat (1 : BitVec 3).toNat) ∉ dev.downLinks) ∧
    dev.nudonWidth 0 ≠ 0 ∧ State.reset.boot ≠ .ready ∧ dev.noPcie = false ∧ ({ dev with noPcie := true } : State).noPcie = true ∧
    ({ dev with boot := .fail } : State).boot = .fail ∧
    (0x138 : BitVec 32).toNat < 0x1000 ∧ 0x1800 ≤ (0x2000 : BitVec 32).toNat ∧
    (let s := { dev with tdi := dev.tdi.set 2 { state := .run, queues := 8 } };
      s.queueHolder 3 ≠ none ∧ s.queueHolder 2 = none ∧ 0x1000 ≤ (0x1060 : BitVec 32).toNat ∧ ((0x1060 : BitVec 32).toNat - 0x1000) / 32 = 3) ∧
    (0x100 ≤ (0x138 : BitVec 32).toNat ∧ (0x138 : BitVec 32).toNat < 0x140 ∧ (2 : BitVec 4) ≠ 0) := by decide +kernel

/-- Bring-up ends READY with every core, and with neither PCIe port trained in BOOTFAIL 4 (R13, R316, R335). -/
theorem test_bring_up :
    nextAnd (exec (.coldReset bring) dev) (fun t => t.boot == .ready && t.caps == capsReset && t.devid == 5) = true ∧
    nextAnd (exec (.coldReset { bring with pcie0 := .none, pcie1 := .none }) dev) (fun t =>
      t.boot == .fail && t.failcode == 4 && t.noPcie) = true := by decide +kernel

/-- An UNSUPPORTED core is not reset; a failed link is down both ways. -/
theorem test_platform :
    nextAnd (exec (.ucieLinkFailure 2 1) dev) (fun t => !t.linkUp 1 2 && !t.linkUp 2 1 && t.linkUp 0 1) = true ∧
    nextAnd (exec (.registerWrite 0 0x188 5) dev) (fun t => t.shlim == 5) = true := by decide +kernel

/-- Function 2's TDI in a state, with a channel whose shared ring is at 0x40000 and private ring at 0x50000 in context 0. -/
def tdiDev (st : TdiState) : State :=
  dev.onTdi 2 (fun t => { t with state := st, ctxs := 1, ide := { up := true, set := false }, ch := t.ch.set 1 { sh := 0x40000, pr := 0x50000, ctl := 0x103, state := .opened, door := 1 } })

/-- Core 0 in frame 0 of 10 microseconds, world 2's. -/
def frameDev (b : Bool) : State :=
  { devWith (fun k => { k with
      frames := k.frames.set 0 { v := true, world := 2, len := 10 }, cycleTab := (k.cycleTab.set 0 { v := true, world := 2, len := 10 }).set 1 { v := true, world := 3, len := 10 }
      frame := some 0, sealed := b }) with clock := 18000 }

/-- The same with the private ring at 0x20000000 in a page of world 2, whose lines 0 and 2 are written; slot 0 of the shared ring,
at 0x40040, has SEQ 0. -/
def ringDev (door : BitVec 16) (seq : Word) : State :=
  { (tdiDev .run).onChan 2 1 (fun h => { h with pr := 0x20000000, door := door, exp := seq }) with
    mem := [(0, 1), (2, 2), (0x20000, 1), (0x20002, 3), (0x30000, 0x4F), (0x30008, 0x4F), (0x30009, 2), (0x3000B, 0x20)],
    tags := [(0x400000, 2, 0), (0x400002, 2, 0)] }

theorem witness_WorldsAndChannels :
    (dev.boot = .ready ∧ (2 : BitVec 4) ≠ 0 ∧ ((tdiDev .locked).tdiOf 2).isLocked = true ∧ ((tdiDev .unlocked).tdiOf 2).isLocked = false) ∧
    (let s := { dev with clock := 180000 }; s.walkAt + 180000 ≤ s.clock) ∧
    (((frameDev false).core 0).sealAt = some 7200 ∧ ((frameDev false).core 0).sealed = false ∧ 7200 ≤ (frameDev false).clock ∧
      ((frameDev false).core 0).ctl.wait ≠ .message) ∧
    (((frameDev true).core 0).frameEnd = some 18000 ∧ ((frameDev true).core 0).sealed = true ∧ 18000 ≤ (frameDev true).clock) ∧
    (let k := (frameDev false).core 0; k.nextWorld ≠ k.frameWorld ∧ k.victim = false ∧ ((dev.core 1).task = none)) ∧
    (((tdiDev .run).tdiOf 2).ide.up = true ∧ ((tdiDev .run).tdiOf 2).isLocked = true ∧ (dev.tdiOf 2).ide.up = false) ∧
    (let s := ringDev 1 0; let h := s.chan 2 1;
      h.formOk = true ∧ (s.tdiOf 2).ctxs.getLsbD h.ctx.toNat = true ∧ s.descValid h.ctx = true ∧ okAnd (s.resetRings 2 h) (fun _ => true) = true ∧
      h.state = .opened ∧ h.en = true ∧
      okAnd (s.ringRead (s.chanWho 2 h) (h.rings 2).1.2 ((h.rings 2).1.1 + 8) 8) (fun b => b == List.replicate 8 0) = true ∧
      okAnd (s.producerTail 2 h) (fun n => n == 1) = true ∧ h.ahead 0 1 = true ∧ okAnd (s.copySlot 2 h 0) (fun _ => true) = true) ∧
    (let s := ringDev 0 0; let h := s.chan 2 1;
      okAnd (s.ringRead (s.chanWho 2 h) (h.rings 2).1.2 ((h.rings 2).1.1 + 8) 8) (fun b => b == List.replicate 8 0) = true ∧
      okAnd (s.producerTail 2 h) (fun n => n == 0) = true ∧ h.ahead 0 0 = false) ∧
    (let s := ringDev 1 5; let h := s.chan 2 1;
      okAnd (s.copySlot 2 h 0) (fun _ => true) = false ∧
      okAnd (s.ringRead (s.chanWho 2 h) (h.rings 2).1.2 ((h.rings 2).1.1 + (64 + 0 % h.slots * h.slotSize)) h.slotSize) (fun b =>
        fieldAt b 0 4 != h.exp.toNat) = true) ∧
    (((tdiDev .run).chan 2 1).formOk = true ∧ okAnd ((tdiDev .run).resetRings 2 ((tdiDev .run).chan 2 1)) (fun _ => true) = false) ∧
    (((tdiDev .run).onTdi 2 (fun t => { t with ctxs := 2 })).tdiOf 2).ctxs.getLsbD (((tdiDev .run).chan 2 1).ctx.toNat) = false ∧
    ((tdiDev .run).chan 2 0).state ≠ .opened := by decide +kernel

/-- An untrusted read of a private page reads all ones and counts (R323); a slot crosses to the private ring (R330). -/
theorem test_worlds :
    nextAnd (exec (.untrustedPrivateAccess 2 false) (tdiDev .run)) (fun t =>
      (t.tdiOf 2).viol == 1 && t.sent == [.value 0xFFFFFFFFFFFFFFFF]) = true ∧
    nextAnd (exec (.bounceSlotCopy 2 1) (ringDev 1 0)) (fun t =>
      (t.chan 2 1).exp == 1 && t.phys 0x40008 == 1 && ((t.chan 2 1).state == .opened)) = true ∧
    nextAnd (exec (.frameSeal 0) (frameDev false)) (fun t => (t.core 0).sealed) = true := by decide +kernel

/-- The device with its first port trained (R331). -/
def linkDev : State := { dev with nudon := 1 }

theorem witness_Messages :
    (dev.boot ≠ .boot ∧ dev.boot = .ready ∧ dev.spdmOk = false ∧ { dev with spdmOk := true }.spdmOk = true ∧
      { dev with session := .handshake }.session = .handshake ∧ { dev with session := .secured }.session = .secured ∧
      dev.session ≠ .secured ∧ dev.session ≠ .handshake ∧ (dev.tdiOf 2).state ≠ .error ∧
      ((tdiDev .error).tdiOf 2).state = .error ∧ ((tdiDev .locked).tdiOf 2).state = .locked ∧ (dev.tdiOf 2).state ≠ .locked) ∧
    (1 ≤ (1 : BitVec 8).toNat ∧ (1 : BitVec 8).toNat ≤ 1 ∧ (5 : BitVec 8).toNat ≤ 5 ∧ 5 < (6 : BitVec 8).toNat ∧
      (6 : BitVec 8).toNat < 255 ∧ (254 : BitVec 8).toNat < 255 ∧ ¬(2 : BitVec 8).toNat ≤ 1) ∧
    ((dev.onTdi 2 (fun t => { t with ide := { up := true, set := false } })).tdiOf 2).ide.up = true ∧ (dev.tdiOf 2).ide.up = false ∧
    (dev.lockRefused 2 3 0 = false ∧ dev.lockRefused 2 0 1 = true) ∧ dev.stateSensor 3 = none ∧
    (linkDev.remoteBar (.store 0x1000 [1]) = none ∧ linkDev.remoteBar (.load 0x1000 0) = some .pagePerm ∧
      linkDev.remoteBar (.amo 0x1000 .add .d 1 0) = none ∧ remoteAddr (.store 0x1000 [1]) < hbmEnd ∧
      (dev.enqueueTermite 0x1000 (.remote (.store 0x1000 [1]))).isSome = true ∧
      (let full := { dev with termite := dev.termite.set 0 (List.replicate 1024 (.remote (.store 0x1000 [1]))) };
        (full.enqueueTermite 0x1000 (.remote (.store 0x1000 [1]))).isNone = true)) ∧
    (amoNew .add .d 3 1 0 = some 4 ∧ amoNew .cas .d 3 1 0 = none) := by decide +kernel

/-- The answers at the edges of the tables of R317: slots 1 and 2, blocks 5, 6 and 255. -/
theorem test_measurement_edges :
    (let s := { dev with meas := dev.meas.set 4 (some 7) };
      let last (o : Out) : Option Reply := match o with | .next t => t.sent.getLast? | _ => none;
      last (exec (.getCertificate 1) s) = some (.spdm (.certificate 1)) ∧
      last (exec (.challenge 2) s) = some (.spdm .unsupportedRequest) ∧
      last (exec (.getMeasurements 5) s) = some (.spdm (.measurements [(5, 7)])) ∧
      last (exec (.getMeasurements 6) s) = some (.spdm .unsupportedRequest) ∧
      last (exec (.getMeasurements 255) s) = some (.spdm (.measurements [(5, 7)]))) := by decide +kernel

/-- LOCK and START (R318, R319), and a remote store to this device's memory (R289). -/
theorem test_messages :
    nextAnd (exec (.lockInterfaceRequest 2 3 0) dev) (fun t =>
      (t.tdiOf 2).state == .locked && nextAnd (exec (.startInterfaceRequest 2) t) (fun u => (u.tdiOf 2).state == .run &&
        u.sent == [.tdisp 2 .lockAck, .tdisp 2 .startAck])) = true ∧
    nextAnd (exec (.remoteHomeAccess 1 { acc := .store 0x1000 [7, 8], mside := false }) linkDev) (fun t => t.phys 0x1001 == 8) = true := by decide +kernel

/-! ### Further states that meet clauses of the statements -/

/-- 2, a quarter, -1 and the special operands of f32, and what `Is` says of two of them (R101). -/
theorem witness_Elementary :
    Fmt.f32 ∈ [Fmt.f16, .bf16, .f32] ∧ Fmt.f32.value 0x3E800000 = .fin false 8388608 (-25) ∧ Fmt.f32.value 0xBF800000 = .fin true 8388608 (-23) ∧
    Fmt.f32.value 0x7F800000 = .inf false ∧ Fmt.f32.value 0x7F800001 = .nan true ∧ Fmt.f32.value 0x3FC00000 = .fin false 12582912 (-23) ∧
    (Fmt.f32.value 0x3E800000).Is false (1 / 4) ∧ (Fmt.f32.value 0xBF800000).Is true (-1) ∧ (Fmt.f32.value 0x3FC00000).Is false (3 / 2) ∧
    (Fmt.f32.value 0).Is false 0 ∧ (1 / 4 : ℝ) = (2 : ℝ) ^ (-2 : Int) ∧ (-1 : ℝ) = ((-1 : Int) : ℝ) ∧ (∀ i : Int, (3 / 2 : ℝ) ≠ i) := by
  refine ⟨by decide, by decide +kernel, by decide +kernel, by decide +kernel, by decide +kernel, by decide +kernel,
    ⟨8388608, -25, by decide +kernel, by norm_num⟩, ⟨8388608, -23, by decide +kernel, by norm_num⟩,
    ⟨12582912, -23, by decide +kernel, by norm_num⟩, ⟨0, -149, by decide +kernel, by norm_num⟩, by norm_num, by norm_num, fun i h => ?_⟩
  have h3 : (3 : ℝ) = ((2 * i : Int) : ℝ) := by push_cast; linarith
  have : (3 : Int) = 2 * i := by exact_mod_cast h3
  omega

/-- One over four, its root and the powers of R101's exact cases, and an inexact one of each (R100, R101). -/
theorem test_elementary :
    deliver .f32 .rne (Fmt.f32.value 0x40800000).rsqrt = (0x3F000000, { }) ∧
    deliver .f32 .rne (Fmt.f32.value 0xC0400000).exp2 = (0x3E000000, { }) ∧
    deliver .f32 .rne (Fmt.f32.value 0x3E000000).log2 = (0xC0400000, { }) ∧
    deliver .f32 .rne (Fmt.f32.value 0x3F000000).exp2 = (0x3FB504F3, { nx := true }) ∧
    deliver .f32 .rne (Fmt.f32.value 0x40000000).rsqrt = (0x3F3504F3, { nx := true }) := by decide +kernel

/-- A drain of one stored row into the A-buffer: `ty` and `fl` are the element type and the flags of the descriptor, `n` its
columns. -/
def drainWord (ty fl n d8 : Nat) (at_ : Nat) : MWord :=
  { matWord .mdrain (BitVec.ofNat 512 (2 ^ 64 * (1 + 16 * ty) + 2 ^ 72 * fl + 2 ^ 96 + 2 ^ 128 * n + 2 ^ 320 * 64 + 2 ^ 424 * 2)) 0 with
    d8 := BitVec.ofNat 8 d8, next := at_ }

/-- The tile of R98's example, 12, -3, 0.4 and 0, and a word of the queue. -/
def drainDev (m : MWord) : State :=
  (mqDev m).onCore 0 (fun k => { k with cbuf := [(0, 0x4028000000000000), (1, 0xC008000000000000), (2, 0x3FD999999999999A)] })

theorem witness_MatrixArithmetic :
    (matWord .mma (desc 1 1 1 2 2) (desc 2 1 2 1 1)).granule 0 = some 0 ∧
    ({ matWord .mmaz (desc 1 1 1 2 2) (desc 2 1 2 1 1) with next := 1 } : MWord).granule 1 = some 0 ∧
    (matWord .mmv (desc 1 1 1 2 2) (desc 2 1 2 1 1)).granule 0 = some 0 ∧ (matWord .accz 0 0).kind = .accz ∧
    (matWord .accld (desc 1 1 1 2 2) 0).kind = .accld ∧ (EType.value .ks8 0x83).isNan = false := by decide +kernel

/-- Drains: into scaled K8 of the A-buffer, of a nibble that keeps its partner, into memory, and of an element out of range. -/
theorem witness_MatrixArithmetic_drains :
    (let m := drainWord 9 8 4 0x30 0; m.kind = .mdrain ∧ m.next < 4096 ∧ dRow0 m.da < dRows m.da ∧ dCol0 m.da < dCols m.da ∧
      m.keeps m.next = m.nib.isSome ∧ dType m.da = .k8 ∧ dScaled m.da = true ∧ m.auto = true ∧ dSpace m.da = .abuf ∧
      dClearRead m.da = false ∧ (mqDev m).peeks = []) ∧
    (let m := drainWord 10 0 3 0 2; m.keeps 2 = true ∧ m.nib.isNone = true ∧ dType m.da = .k4) ∧
    (let m := drainWord 9 8 4 0x30 4; dCols m.da ≤ dCol0 m.da + 4 ∧ m.next < 4096) := by decide +kernel

theorem witness_MatrixArithmetic_memory :
    (let m := matWord .mdrain (dSet (desc 4 11 1 1 8) 0 8 0x1000) 0;
      dSpace m.da = .glob ∧ m.pend = [] ∧ dType m.da = .a64 ∧ dScaled m.da = false ∧
      ((mqDev m).destLeaf ((mqDev m).matWho 0 m) m.da 0x1000).isSome = true ∧
      elemBytes (dType m.da) = 8 ∧ m.completes 0 = [0x100] ∧ m.keeps 0 = m.nib.isSome) := by decide +kernel

/-- The value 3/4 and its power of two, as a histogram's bin asks for them (R99). -/
theorem witness_MatrixArithmetic_bin :
    (XVal.fin false 3 (-2)).Is false (3 / 4) ∧ (3 / 4 : ℝ) ≠ 0 ∧ (2 : ℝ) ^ (-1 : Int) ≤ |(3 / 4 : ℝ)| ∧
      |(3 / 4 : ℝ)| < (2 : ℝ) ^ (-1 + 1 : Int) :=
  ⟨⟨3, -2, rfl, by norm_num⟩, by norm_num, by rw [abs_of_pos] <;> norm_num, by rw [abs_of_pos] <;> norm_num⟩

/-- R98's block under RNE: its scale byte and its four codes, counted by the set whose hmin is -3 (R99). -/
theorem test_auto_scale :
    (let m := drainWord 9 8 4 0x30 0; let s := drainDev m; let who := s.matWho 0 m;
      s.drainScale 0 who m 0 = some 0x83 ∧ (List.range 4).map (fun e => (s.drainBitsOf 0 who m e).1) = [0x7B, 0xDB, 0x37, 0x00]) ∧
    (histBin (-3) (.fin false 3 (-2)) = 3 ∧ histBin (-3) (.fin false 1 (-40)) = 1 ∧ histBin (-3) (.fin true 3 101) = 30 ∧
      histBin (-3) (.fin true 0 0) = 0 ∧ histBin (-3) (.inf true) = 31) ∧
    nextAnd (exec (.matrixWordComplete 0 4) (drainDev (drainWord 9 8 4 0x30 0))) (fun t =>
      (t.core 0).bufBytes .abuf 0 4 == [0x7B, 0xDB, 0x37, 0x00] && (t.core 0).bufByte .abuf 64 == 0x83) = true := by
  decide +kernel

/-- Words of each class of types at a type outside it (R192), and a K4 store that keeps a nibble of an uncorrectable granule, of
an uncorrectable line and of a page that no table maps (R204, R312). -/
theorem witness_CheckFaults_stored :
    (EType.k4 ∉ [EType.i8, .u8, .i16, .u16, .i32, .u32] ++ [EType.f16, .bf16, .f32] ∧ EType.f32 ∉ [EType.i8, .u8, .i16, .u16, .i32, .u32] ∧
      EType.i8 ∉ [EType.f16, .bf16, .f32] ∧ EType.i16 ∉ [EType.i32, .u32] ∧ EType.u32 ∉ [EType.f32] ∧ EType.i32 ∉ [EType.u32]) ∧
    (let s := shaped .k4 3 (fun u => u.onHere (fun k => { k with badSram := [(.abuf, 0)] }));
      (∃ x ∈ s.contig { } 2, x.addr = 1 ∧ ∀ y ∈ s.contig { } 2, y.addr = 1 → y.hi = x.hi) ∧
      s.keepFault s.here s.engWho .abuf 1 = some (.trap .eccUncorr, 1) ∧ (Space.abuf, 1 / 16) ∈ (s.here).badSram ∧ s.predFalse { } = false) ∧
    (let s := shaped .k4 3 (fun u => { u.setKreg 2 0x1000 with badLines := [0x20] });
      s.keepFault s.here s.engWho .glob 0x1001 = some (.trap .eccUncorr, 0x1001) ∧
      okAnd (s.translate s.engWho 0x1001) (fun l => l.dev.isNone && (s.windowAt l.pa).isNone && s.badData l .load 1) = true) ∧
    (let s := { shaped .k4 3 (fun u => u.setKreg 2 0x40001) with
        windows := [{ core := 1, w := 3, buf := .abuf, off := 0, va := 0x40000, pas := [0x40000] }] };
      okAnd (s.translate s.engWho 0x40001) (fun l => l.dev.isNone && (s.windowAt l.pa).map (fun p => p.2) == some 1) = true) ∧
    (let s := shaped .k4 3 (fun u => u.setKreg 2 0x1000);
      elemCheck { } .glob .store (fun u => u.contig { } 2) s = .go ∧ s.keepFault s.here s.engWho .glob 0x1001 = none ∧
      storeCheck { } .glob (fun u => u.contig { } 2) s = .go) := by decide +kernel

/-- A write of CMP's own under way to PCIe space, which a K4 store that keeps a nibble sees (R201, R254). -/
def ownWrite : Post := { farPost (.write [0xAB, 0xCD]) with who := { dev.ctlWho with agent := .seq 0 .cmp } }

theorem witness_VectorMemory_late :
    (let s := { vfar with posted := [ownWrite] };
      okAnd (s.translate s.engWho 0x20000001) (fun l => s.postsTo s.engWho l && s.ownByte s.engWho l.dev l.pa == some 0xCD &&
        ownWrite.leads s.engWho && ownWrite.leaf.dev == l.dev && decide (ownWrite.leaf.pa ≤ l.pa) && s.byteAt .glob 0x20000001 == 0xCD) = true) ∧
    (vfar.lateElemAt .f32 (elemAt .f32 0x20000000 0 0) = true ∧ vfar.actSeq = .cmp ∧
      (vfar.lateLane .f32 (0, elemAt .f32 0x20000000 0 0)).2.2 =
        [] ++ .away 0x20000000 { amoCmd.leaf with pa := 2 ^ 51, mside := false, big := true } :: (vfar.lateLane .f32 (0, elemAt .f32 0x20000000 0 0)).2.2.drop 1) ∧
    (let s := shaped .f32 4 (fun u => u.setKreg 2 0x1000);
      s.peeks = [] ∧ s.posted = [] ∧ 0x1000 % 2 ^ 16 + elemBytes .f32 ≤ 2 ^ 16 ∧ okAnd (s.access s.engWho .load 0x1000 4) (fun _ => true) = true ∧
      storeCheck { } .glob (fun u => u.contig { } 2) s = .go ∧ storeCheck { } .glob (fun u => u.indexed { } 3 2) s = .go) ∧
    (let s := (shaped .f32 4 id).onHere (fun k => k.setWait .cmp .fullEmpty);
      (s.core 0).cmp.eng.wait = .fullEmpty ∧ s.engGoes 0 .cmp = true ∧ s.runRefuted 0 .cmp = false) ∧
    (let s := (hypDev (fun u => u.refute 0 2)).onHere (fun k => k.onEng .cmp (fun g =>
        { g with cur := some { cmd := { count := 1, hyp := 2 }, iter := 0, serial := 1 } }));
      s.runRefuted 0 .cmp = true) := by decide +kernel

/-- Context 0 with versions: of id 1 at 0x1000 and 0x1001, the second behind a later committed write, and of id 2 (R262, R273). -/
def verDev : State :=
  hypDev (fun u => u.onCtx 0 (fun c => { c with vers :=
    [{ hyp := 1, va := 0x1000, pa := 0x1000, val := 7, enc := 0, seq := 0, behind := false },
     { hyp := 1, va := 0x1001, pa := 0x1001, val := 8, enc := 0, seq := 0, behind := true },
     { hyp := 2, va := 0x1000, pa := 0x1000, val := 9, enc := 0, seq := 0, behind := false }] }))

theorem witness_Hypotheses_bytes :
    (okAnd (verDev.access verDev.ctlWho .store 0x1000 4) (fun l => l.dev.isNone && !l.filter && !l.mside &&
        (verDev.windowAt l.pa).isNone && !isPcie l.pa) = true ∧ (0x1000 : DWord).toNat % 4 = 0 ∧
      ((verDev.onCtl (fun k => { k with hcur := 1 })).here).ctl.hcur ≠ 0 ∧ verDev.tlt = [] ∧ (verDev.ctx 0).isLive 1 = true ∧
      ((verDev.refute 0 2).ctx 0).isRefuted 2 = true) ∧
    ((verDev.ctx 0).version 3 0x1000 = some 7 ∧ (verDev.ctx 0).version 3 0x2000 = none ∧ verDev.stale = [] ∧ verDev.tags = [] ∧
      verDev.windows = [] ∧ (verDev.ctx 0).allocs = [] ∧ (verDev.ctx 0).frees = []) ∧
    ((verDev.ctx 0).path 256 3 = [3] ++ 1 :: [] ∧
      (verDev.ctx 0).vers.find? (fun w => w.hyp == 1 && w.pa == 0x1000) =
        some { hyp := 1, va := 0x1000, pa := 0x1000, val := 7, enc := 0, seq := 0, behind := false } ∧
      (verDev.ctx 0).hyp 3 = some { id := 3, state := .live, parent := 1, set := 5 }) ∧
    ((∀ w ∈ (verDev.ctx 0).vers, w.hyp = 1 → w.enc = 0) ∧
      (((verDev.ctx 0).vers.filter (fun w => w.hyp == 1)).map (fun w => w.pa)).Nodup ∧ (verDev.ctx 0).subtree 1 ≠ []) ∧
    (let s := verDev.onCtx 0 (fun c => { c with wins := [{ name := 1, members := [1, 3] }] });
      ((s.ctx 0).window 1).map (fun u => ((s.ctx 0).leading u.members)[1]?) = some (some 3)) := by decide +kernel

/-- HRESOLVE's confirm commits 7 and leaves the byte behind a committed write (R262, R273). -/
theorem test_confirm :
    nextAnd (exec (.hresolve 5 true) ((verDev.commit 0x1001 [4]).setSreg 5 1)) (fun t =>
      t.phys 0x1000 == 7 && t.phys 0x1001 == 4 && (t.ctx 0).vers == []) = true := by decide +kernel

/-- LDS owes a push that waits for an access elsewhere (R256, R261). -/
def awayCore (f : Core → Core) : Core :=
  f (({ } : Core).onEng .lds (fun g => { g with away := [9], pushq :=
    [{ toNext := true, kind := .step, op := 1, serial := 1, ready := true, poison := false, after := [9] }] }))

theorem witness_TermitePerforms_landed :
    (let k := awayCore id; ((k.eng .lds).pushq.head?.map (fun p => (p.after, p.ready))) = some ([9], true) ∧ 9 ∈ (k.eng .lds).away ∧
      (∀ g ∈ [Engine.cmp, .sts], 9 ∉ (k.eng g).away) ∧ k.stopped = false ∧ (k.fifo (pushFifo .lds true)).length < 8 ∧
      (k.landed 9).ltoc = [false]) ∧
    (awayCore (fun k => { k with hold := true })).stopped = true ∧
    (let p := { farPost (.write [1]) with who := { dev.ctlWho with agent := .mat 0 2, sees := 5 } }
      let q := { farPost (.write [1]) with who := { dev.ctlWho with agent := .seq 0 .cmp } };
      q.num < p.who.sees ∧ q.leads p.who = true ∧ p.who.agent ≠ q.who.agent ∧ q.pcieWrite = true ∧ p.pcie = true) ∧
    (let m := { amoCmd with op := .event 5 }; (termOf (.ctl m)).termite[0][0]? = some (TermOp.ctl m) ∧ m.op = .event 5) := by
  decide +kernel

/-- A command in CMP's ring whose record lies in an uncorrectable line (R23, R312). -/
theorem witness_DispatchQueues_ecc :
    (let s := { devWith (fun k => k.onEng .cmp (fun g => { g with ring := [(3, cmd1)], ringTail := 4 })) with badLines := [0x2029] };
      ((s.core 0).eng .cmp).ring = (3, cmd1) :: [] ∧ ((s.core 0).eng .cmp).queue.length < 32 ∧
      (match s.load (s.whoOf 0 0) .load ((s.core 0).theTask.ringAddr .cmp 3).toNat 64 with
        | .ok _ => false
        | .error f => f.1 == .trap .eccUncorr) = true) ∧
    (let s := devWith (fun k => { k.onEng .cmp (fun g => { g with ring := [(3, cmd1)], ringTail := 4 }) with
        task := some { task0 with jtEmpty := 0, spill := 2 ^ 42 } });
      (match s.load (s.whoOf 0 0) .load ((s.core 0).theTask.ringAddr .cmp 3).toNat 64 with
        | .ok _ => false
        | .error f => f.1 == .shadow false) = true) := by decide +kernel

/-- CTL waits in WFE or WAITEV at the event at 0x1000 (R156, R162). -/
def waitingAt (w : Wait) : State := eventDev.onCore 0 (fun k => { k with ctl := { k.ctl with wait := w, lastEvent := some (none, 0x1000) } })

theorem witness_EventsAndSpawn_wake :
    (((waitingAt (.event 0x1000 4)).core 0).ctl.wait = .event 0x1000 4 ∧ ((waitingAt (.event 0x1000 4)).core 0).ctl.lastEvent = some (none, 0x1000) ∧
      (4 : DWord).toNat ≤ (7 : DWord).toNat ∧ ((waitingAt (.event 0x1000 4)).core 0).stopped = false) ∧
    ((waitingAt .eventMet).core 0).ctl.wait = .eventMet ∧ ((waitingAt .eventMet).core 0).stopped = false ∧
    (let s := { msDev with cores := eventDev.cores }; okAnd (s.access s.ctlWho .atomic (s.sreg 1).toNat 8) (fun l =>
      l.mside && l.dev.isNone && decide (l.pa < hbmEnd)) = true ∧ (s.here).ctl.hcur = 0 ∧ (s.sreg 1).toNat % 8 = 0) ∧
    (let o : SpillEnt := { spillEnt with uid := 3, age := 1 }
      let s := { eventDev.setSlot 0 (some { src := 0, record := [], age := 0, ctx := 0, phase := .loaded }) with
        spillq := [o] ++ spillEnt :: [] };
      s.spillq = [o] ++ spillEnt :: [] ∧ o.slot = spillEnt.slot ∧ o.age ≠ spillEnt.age ∧
      (match s.load { spillEnt.who with ctx := 9 } .load (2 ^ 42) 256 with
        | .ok _ => false
        | .error _ => true) = true) := by decide +kernel

/-- A WAITEV ends once its event has met the target, though the value is lowered before CTL looks (R156). -/
theorem test_event_met :
    ((((waitingAt (.event 0x1000 4)).wakeEvent none 0x1000 7).commit 0x1000 [0]).core 0).ctl.wait = .eventMet ∧
    nextAnd (exec (.waitevSatisfied 0) (((waitingAt (.event 0x1000 4)).wakeEvent none 0x1000 7).commit 0x1000 [0])) (fun t =>
      (t.core 0).ctl.wait == .none) = true ∧
    (((waitingAt (.event 0x1000 4)).wakeEvent (some 3) 0x1000 7).core 0).ctl.wait = .event 0x1000 4 := by decide +kernel

theorem witness_EngineTokens_after :
    (let s := devWith (fun k => { k with ltoc := [false], imemCmp := [(0, 0xE0000000)] }.setWait .cmp .tokens);
      ((s.core 0).eng .cmp).wait = .tokens ∧ s.engGoes 0 .cmp = true ∧ ((cmpDev.here).eng .cmp).halted = false) ∧
    (let p : PushEnt := { toNext := true, kind := .step, op := 1, serial := 1, ready := true, poison := false };
      p.ready = true ∧ p.after = [] ∧ ({ p with after := [3] } : PushEnt).after ≠ []) := by decide +kernel

/-- Members that a failed link of this device cuts off, and the report and the note of one that it does not (R9, R300). -/
theorem witness_CollectivesAndFirefly_cut :
    (let i := { collInst with group := [0x20] }; let s := { instDev i with downLinks := [(0, 1)] };
      memberDev i.peer = s.devid.toNat ∧ s.linkUp (dieOf i.core) (dieOf (memberCore i.peer)) = false ∧
      (instDev i).linkUp (dieOf i.core) (dieOf (memberCore i.peer)) = true) ∧
    (let s := instDev collInst; (∀ q ∈ s.posted, q.who.agent ≠ .coll collInst.num) ∧ memberDev 0x10000 ≠ s.devid.toNat ∧
      s.devReached (dieOf collInst.core) (memberDev 0x10000) = false) := by decide +kernel

theorem witness_Launches_wants :
    (let l := { launch 0 .loaded with cursor := some [], since := some 0 }; l.wants = true) ∧
    (let l := { launch 0 .loaded with since := some 0 }; l.wants = false) := by decide +kernel

theorem witness_FaultService_store :
    isPcie (2 ^ 51) = true ∧ (2 ^ 51) % 8 = 0 ∧ (farDev).paExists (2 ^ 51) = true ∧ isPcie 0x1000 = false ∧
    (servDev false).seqGoes 0 .ctl = true := by decide +kernel

/-- A core whose seal begins with the next frame of its own world, changed or not while it is sealed, and a victim's group (R327). -/
theorem witness_WorldsAndChannels_frames :
    (let s := (frameDev true).onCore 0 (fun k => { k with stays := true, cycleTab := k.cycleTab.set 1 { v := true, world := 2, len := 10 } });
      (s.core 0).stays = true ∧ (s.core 0).nextWorld = (s.core 0).frameWorld ∧ (s.core 0).frameEnd = some 18000 ∧ (s.core 0).sealed = true ∧
      18000 ≤ s.clock) ∧
    (let s := (frameDev true).onCore 0 (fun k => { k with stays := true });
      (s.core 0).stays = true ∧ (s.core 0).nextWorld ≠ (s.core 0).frameWorld) ∧
    ((frameDev true).core 0).stays = false ∧
    (let s := (frameDev false).onCore 0 (fun k => { k with victim := true }); (s.core 0).victim = true ∧ 0 ∈ s.gangCores 0) := by
  decide +kernel

/-- A context whose descriptor has a nonzero reserved bit refuses the lock (R5, R319, log 29). -/
theorem witness_Messages_lock :
    (let s := { dev with mem := Cells.splice 0 dev.mem (dev.descPa 0 + 2) [1] };
      (1 : DWord).getLsbD 0 = true ∧ descForm (s.descBytes 0) = false ∧ (dev.descOf 0).world ≠ 2 ∧ s.lockRefused 2 0 1 = true) ∧
    (dev.remoteBar (.load 0x1000 0) ≠ none ∧ amoNew .cas .d 3 1 0 = none ∧ AmoOp.add = .add) := by decide +kernel

theorem witness_CopiesAndMedia_waits :
    (let s := mediaDev.onHere (fun k => k.setWait .lds .mdecQueue);
      ((s.core 0).eng .lds).wait = .mdecQueue ∧ s.engGoes 0 .lds = true) ∧
    (let s := mediaDev.onHere (fun k => k.setWait .lds .deferred); ((s.core 0).eng .lds).wait = .deferred ∧ s.engGoes 0 .lds = true) ∧
    (let s := cmpDev.onHere (fun k => k.setWait .cmp .matrixLimit); (s.core 0).cmp.eng.wait = .matrixLimit ∧ s.engGoes 0 .cmp = true) ∧
    (let s := cmpDev.onHere (fun k => k.setWait .cmp (.msettle 1)); (s.core 0).cmp.eng.wait = .msettle 1 ∧ s.engGoes 0 .cmp = true) := by
  decide +kernel

/-- The sender's task is the launch's of age 0, and a later launch in its slot is not (R299). -/
theorem witness_RemoteFlags_age :
    (let s := msgDev (.rflag 0 0 0 0 0 1 4 5); (s.core 0).stopped = false ∧ (s.slot 0).map (fun l => l.age) = some 0) ∧
    (let s := (msgDev (.rflag 0 0 0 7 0 1 4 5)); (s.slot 0).map (fun l => l.age) ≠ some 7 ∧ s.flagWaits 0 7 1 = false) := by decide +kernel

/-! ### The assembler: R120's block, and the container that 10_assembly_commentary.md prints -/

/-- A source of lines. -/
def phasSource (ls : List String) : List Byte :=
  ls.flatMap (fun l => l.toList.map (fun c => BitVec.ofNat 8 c.toNat) ++ [10])

/-- The container of a source, or nothing. -/
def assembled (ls : List String) : List Byte :=
  match Phas.assemble "test" (phasSource ls) with
  | .ok b => b
  | .error _ => []

/-- The line and cause of a source's error. -/
def refusedAt (ls : List String) : Option (Nat × Phas.Cause) :=
  match Phas.assemble "test" (phasSource ls) with
  | .ok _ => none
  | .error d => some (d.line, d.cause)

/-- The listing of 10_assembly_commentary.md. -/
def firstListing : List String :=
  [".equ ROUNDS, 4", ".ctl", ".entry start", "start:", "    addi  s1, s0, ROUNDS        ; iteration count",
   "    disp  lds, fill, s1, s2     ; arguments s2..s5, all zero", "    disp  cmp, take, s1, s2", "    exit",
   ".load", ".frag fill, 0", "    nop.sn                      ; push one token into LtoC", "    end", ".fin", ".comp",
   ".frag take, 0", "    (p3) vadd.wp v1, v2, v3     ; pops one token", "    end", ".fin", ".sync",
   "    .declare fifo ltoc, 4"]

/-- The bytes that the chapter prints for the header and the section table. -/
theorem test_phas_header : (assembled firstListing).take 0xE0 =
    [0x5A, 0x56, 0x58, 0x31, 1, 0, 0x40, 0, 5, 0, 0, 0, 0, 0, 0, 0, 0x40, 0, 0, 0, 0, 0, 0, 0, 0, 0, 0, 0, 0, 0, 0, 0,
     0xD0, 0x0D, 0, 0, 0, 0, 0, 0, 0, 0, 0, 0, 0, 0, 0, 0, 0, 0, 0, 0, 0, 0, 0, 0, 0, 0, 0, 0, 0, 0, 0, 0] ++
    Phas.le 4 1 ++ Phas.le 4 0 ++ Phas.le 8 0x100 ++ Phas.le 8 16 ++ Phas.le 8 0 ++
    Phas.le 4 2 ++ Phas.le 4 0 ++ Phas.le 8 0x140 ++ Phas.le 8 8 ++ Phas.le 8 0 ++
    Phas.le 4 3 ++ Phas.le 4 0 ++ Phas.le 8 0x180 ++ Phas.le 8 8 ++ Phas.le 8 0 ++
    Phas.le 4 6 ++ Phas.le 4 0 ++ Phas.le 8 0x1C0 ++ Phas.le 8 3072 ++ Phas.le 8 0 ++
    Phas.le 4 7 ++ Phas.le 4 0 ++ Phas.le 8 0xDC0 ++ Phas.le 8 16 ++ Phas.le 8 0 := by
  decide +kernel

/-- The bytes that the chapter prints for the sections. -/
theorem test_phas_sections :
    (let b := assembled firstListing
     b.length == 0xDD0 &&
     (b.drop 0x100).take 16 == [0x04, 0x00, 0x20, 0x08, 0x80, 0x08, 0x00, 0xB0, 0x80, 0x08, 0x00, 0xB1, 0x02, 0x00, 0x00,
       0xC4] &&
     (b.drop 0x140).take 8 == [0x00, 0x00, 0x80, 0x00, 0x00, 0x00, 0x00, 0x08] &&
     (b.drop 0x180).take 8 == [0x86, 0x08, 0x80, 0x21, 0x00, 0x00, 0x20, 0xC0] &&
     (b.drop 0x1C0).take 8 == [0, 0, 0, 0x80, 0, 0, 0, 0] && (b.drop 0x5C0).take 8 == [0, 0, 0, 0x80, 0, 0, 0, 0] &&
     (b.drop 0xDC0) == [1, 0, 0, 0, 0, 0, 0, 0, 0, 0, 0, 0, 4, 0, 0, 0]) = true := by
  decide +kernel

/-- The loader accepts that container up to its last check but the ring's (R122). -/
theorem test_phas_loads :
    (let b := assembled firstListing
     headerOk b && sectionsOk b (sectionsOf b) && codeSizesOk (sectionsOf b) &&
       syncOk (sectionBytes b (sectionsOf b) 7)) = true := by
  decide +kernel

/-- R120's block and the section that it prints. -/
theorem test_phas_sync :
    (let b := assembled [".sync", ".declare fifo ltoc, 2", ".declare fifo ctol, 2", ".declare sem 3, 5",
       ".declare queue cmp, 40"]
     sectionBytes b (sectionsOf b) 7) =
      [4, 0, 0, 0, 0, 0, 0, 0, 0, 0, 0, 0, 2, 0, 0, 0, 0, 1, 0, 0, 2, 0, 0, 0, 1, 3, 0, 0, 5, 0, 0, 0,
       2, 1, 0, 0, 0x28, 0, 0, 0] := by
  decide +kernel

/-- Operators and functions of R107, with the values its text gives; the count of a shift above 63 gives 0. -/
theorem test_phas_values :
    (let v (s : String) : Option Int := match Phas.lexLine (s.toList.map Char.toNat) with
       | .ok ls => match Phas.exprOf ls with
         | .ok e => match e.eval (fun n => .error (.undefined n)) with
           | .ok x => some x.toInt
           | .error _ => none
         | .error _ => none
       | .error _ => none
     v "lo16(0x789A_BCDE)" == some (-17186) && v "hi16(0x789A_BCDE)" == some 0x789B && v "-7/2" == some (-3) &&
       v "-7%2" == some (-1) && v "10-3-2" == some 5 && v "1|2^3&6<<1+1" == some 3 && v "1<<64" == some 0 &&
       v "-1>>63" == some 1 && v "7/0" == none && v "0x1_" == none && v "18446744073709551616" == none) = true := by
  decide +kernel

/-- Errors of R108 to R114 and R124, with the line of each. -/
theorem test_phas_errors :
    (refusedAt [".load", ".frag f, 0", "nop.wp", "end", ".fin"] == some (3, .suffix) &&
     refusedAt [".comp", ".frag f, 0", "vadd.wp.wp v1, v2, v3", "end", ".fin"] == some (3, .suffix) &&
     refusedAt [".comp", ".frag f, 0", "(p3) nop", "end", ".fin"] == some (3, .predicate) &&
     refusedAt [".load", ".frag f, 0", "nop", "end", ".fin"] == some (3, .noWord) &&
     refusedAt [".load", ".frag f, 0", "end", "nop.sn", ".fin"] == some (4, .fragmentBody) &&
     refusedAt [".sync", ".declare fifo ltoc, 4", ".declare fifo ltoc, 4"] == some (3, .declaredTwice) &&
     refusedAt [".equ a, b", ".equ b, a"] == some (1, .circular) &&
     refusedAt [".data", ".space n", ".equ n, 4"] == some (2, .undefined ['n'])) = true := by
  decide +kernel

/-- The symbols section of a source with a `.slot` (R121), and no such section without one. -/
theorem test_phas_symbols :
    (let b := assembled [".ctl", "here: exit", ".slot w, 3", ".data", ".byte 1", "d: .byte 2"]
     sectionBytes b (sectionsOf b) 9) =
      Phas.nameBytes ['h', 'e', 'r', 'e'] 24 ++ [1, 0, 0, 0, 0, 0, 0, 0] ++ Phas.nameBytes ['w'] 24 ++
        [0, 0, 0, 0, 3, 0, 0, 0] ++ Phas.nameBytes ['d'] 24 ++ [8, 0, 0, 0, 1, 0, 0, 0] := by
  decide +kernel

/-- The value that LUI and ADDI build from R107's functions of 0x7FFF_8000 (log 54). -/
theorem test_hi16_lo16_edge :
    ((Phas.UnOp.hi16.eval 0x7FFF8000).extractLsb' 0 16).signExtend 64 <<< 16 + Phas.UnOp.lo16.eval 0x7FFF8000 =
      0xFFFFFFFF7FFF8000 := by
  decide +kernel


end Sys2Proof.Tests
end

section
/-!
SUPPORT. Branches and jumps (R149) and the trap instructions (R161) of CTL: the lemmas that say what each does, and the
two statements about them.
-/

namespace Sys2Proof.Machine

/-! ### Branch targets (R128) and comparisons (R149) -/

theorem targetBad_eq_true_iff (t : Int) : targetBad t = true ↔ ¬(0 ≤ t ∧ t ≤ 16383) := by
  simp only [targetBad, Bool.or_eq_true, decide_eq_true_eq]
  omega

/-- The choice that every jump by an offset makes, with the target's bounds spelt out (R128). -/
theorem ite_targetBad {α : Type} (t : Int) (trap go : α) :
    (if targetBad t = true then trap else go) = if 0 ≤ t ∧ t ≤ 16383 then go else trap := by
  by_cases h : 0 ≤ t ∧ t ≤ 16383
  · rw [if_pos h, if_neg (fun hb => (targetBad_eq_true_iff t).1 hb h)]
  · rw [if_neg h, if_pos ((targetBad_eq_true_iff t).2 h)]

theorem branch_eq (taken : Bool) (off : BitVec 16) (s : State) :
    branch taken off s =
      if taken then
        if 0 ≤ ((s.here).ctl.pc : Int) + off.toInt ∧ ((s.here).ctl.pc : Int) + off.toInt ≤ 16383 then
          .next (s.onCtl (fun k => k.jump (((s.here).ctl.pc : Int) + off.toInt).toNat))
        else .next (s.ctlTrap .illegalInstr (BitVec.ofInt 64 (((s.here).ctl.pc : Int) + off.toInt)))
      else .next s.retire := by
  simp only [branch, ite_targetBad]
  rfl

theorem beq_eq_decide_toNat (x y : DWord) : (x == y) = decide (x.toNat = y.toNat) := by
  simp only [BitVec.toNat_inj, Bool.beq_eq_decide_eq]

theorem bne_eq_decide_toNat (x y : DWord) : (x != y) = decide (x.toNat ≠ y.toNat) := by
  rw [bne, beq_eq_decide_toNat, decide_not]

/-- Each branch word is the shared operation under its row's comparison of the registers as numbers. -/
theorem exec_branchRows (s : State) (a b : BitVec 5) (off : BitVec 16) :
    ∀ p ∈ branchRows, exec (p.1 a b off) s = branch (p.2 (s.sreg a) (s.sreg b)) off s := by
  simp only [branchRows, List.forall_mem_cons]
  refine ⟨?beq, ?bne, rfl, ?bge, rfl, ?bgeu, fun _ h => nomatch h⟩
  case beq => exact congrArg (branch · off s) (beq_eq_decide_toNat _ _)
  case bne => exact congrArg (branch · off s) (bne_eq_decide_toNat _ _)
  case bge => exact congrArg (branch · off s) BitVec.sle_eq_not_slt.symm
  case bgeu => exact congrArg (branch · off s) (BitVec.ule_eq_not_ult _ _).symm

/-! ### JAL and JALR (R149) -/

/-- The link value, PC + 1, written as an integer and as a natural number. -/
theorem link_ofInt (pc : Nat) : BitVec.ofInt 64 ((pc : Int) + 1) = BitVec.ofNat 64 (pc + 1) :=
  BitVec.ofInt_natCast 64 (pc + 1)

theorem exec_jal (off : BitVec 26) (s : State) :
    exec (.jal off) s =
      if 0 ≤ ((s.here).ctl.pc : Int) + off.toInt ∧ ((s.here).ctl.pc : Int) + off.toInt ≤ 16383 then
        .next ((s.setSreg 31 (BitVec.ofInt 64 (((s.here).ctl.pc : Int) + 1))).onCtl
          (fun k => k.jump (((s.here).ctl.pc : Int) + off.toInt).toNat))
      else .next (s.ctlTrap .illegalInstr (BitVec.ofInt 64 (((s.here).ctl.pc : Int) + off.toInt))) := by
  change execJal off s = _
  simp only [execJal, ite_targetBad, link_ofInt]
  rfl

/-- JALR's target is the sum in the integers, mod 2^64 (R149). -/
theorem toNat_add_imm16s (x : DWord) (imm : BitVec 16) :
    ((x + imm16s imm).toNat : Int) = ((x.toNat : Int) + imm.toInt) % 2 ^ 64 := by
  have himm : imm16s imm = BitVec.ofInt 64 imm.toInt := rfl
  rw [himm, BitVec.toNat_add, BitVec.toNat_ofInt]
  omega

theorem exec_jalr (d a : BitVec 5) (imm : BitVec 16) (s : State) :
    exec (.jalr d a imm) s =
      if (s.sreg a + imm16s imm).toNat ≤ 16383 then
        .next ((s.setSreg d (BitVec.ofInt 64 (((s.here).ctl.pc : Int) + 1))).onCtl
          (fun k => k.jump (s.sreg a + imm16s imm).toNat))
      else .next (s.ctlTrap .illegalInstr (s.sreg a + imm16s imm)) := by
  change execJalr d a imm s = _
  simp only [execJalr, link_ofInt]
  by_cases h : (s.sreg a + imm16s imm).toNat ≤ 16383
  · rw [if_pos h, if_neg (Nat.not_lt.2 h)]
  · rw [if_neg h, if_pos (Nat.lt_of_not_le h)]

/-! ### Registers and memory under a change of the running core -/

/-- A general register after a change of the running core. -/
theorem State.sreg_onHere (s : State) (f : Core → Core) (r : BitVec 5) :
    (s.onHere f).sreg r = (f s.here).ctl.reg r := by
  simp only [State.sreg, State.onHere_actCore, State.core_onHere_self]

/-- A change of the running core that keeps its buffers changes no byte of memory: a window reads a buffer (R49). -/
theorem State.phys_onHere (s : State) (f : Core → Core) (pa : Nat)
    (hbuf : ∀ b off, (f s.here).bufByte b off = (s.here).bufByte b off) : (s.onHere f).phys pa = s.phys pa := by
  have hw : (s.onHere f).windowAt pa = s.windowAt pa := rfl
  simp only [State.phys, hw]
  cases s.windowAt pa with
  | none => rfl
  | some served =>
    obtain ⟨w, off⟩ := served
    by_cases hc : w.core = s.actCore
    · simp only [hc, State.core_onHere_self]
      exact hbuf w.buf off
    · have hcore : (s.onHere f).core w.core = s.core w.core := s.core_onCore_ne _ _ _ hc
      simp only [hcore]

/-! ### RETT (R161) -/

/-- What RETT makes of CTL's registers. -/
@[simp] theorem Core.returnTrap_ctl (k : Core) : k.returnTrap.ctl =
    { k.ctl with
      pc := k.ctl.tpc.toNat, loops := k.ctl.savedLoops, savedLoops := [], tstat := { k.ctl.tstat with inh := false },
      qcancelAt := if k.ctl.qcancelAt = some k.ctl.tpc.toNat then k.ctl.qcancelAt else none } := rfl

/-- RETT changes nothing of an engine's control state but that it may pop again. -/
@[simp] theorem Core.returnTrap_eng (k : Core) (e : Engine) :
    k.returnTrap.eng e = { k.eng e with stopped := false } := by
  cases e <;> rfl

@[simp] theorem Core.returnTrap_reg (k : Core) (r : BitVec 5) : k.returnTrap.ctl.reg r = k.ctl.reg r := rfl

@[simp] theorem Core.returnTrap_bufByte (k : Core) (b : Space) (off : Nat) :
    k.returnTrap.bufByte b off = k.bufByte b off := by
  cases b <;> rfl

theorem exec_rett_inh {s : State} (h : (s.here).ctl.tstat.inh = true) :
    exec .rett s = .next (s.onHere Core.returnTrap) := if_pos h

theorem exec_rett_noHandler {s : State} (h : (s.here).ctl.tstat.inh = false) :
    exec .rett s = .next (s.ctlTrap .illegalInstr s.ctlWord) := if_neg (Bool.eq_false_iff.1 h)

end Sys2Proof.Machine

open Sys2Proof Sys2Proof.Machine

/-- Settles O18: every branch is the shared operation `branch` under its row's comparison, and the model's test of a
target is R128's bounds. -/
theorem branchAndJump : Obligations.BranchAndJump := by
  intro s d a b off imm off26
  refine ⟨fun p hp => ?_, exec_jal off26 s, s.sreg a + imm16s imm, toNat_add_imm16s _ _, exec_jalr d a imm s⟩
  rw [exec_branchRows s a b off p hp]
  exact branch_eq _ off s

/-- Settles O30: TRAP and BRK retire and then take their trap; RETT in a handler changes the running core by
`Core.returnTrap`, whose frame keeps the registers, the queues and the buffers that windows read. -/
theorem trapInstructions : Obligations.TrapInstructions := by
  intro s a
  refine ⟨rfl, rfl, exec_rett_noHandler, fun h => ⟨_, exec_rett_inh h, ?pc, ?loops, ?tstat, ?eng, ?sreg, ?phys, ?core⟩⟩
  case pc | loops | tstat => simp only [State.here_onHere, Core.returnTrap_ctl]
  case eng => intro e; simp only [State.here_onHere, Core.returnTrap_eng, and_self]
  case sreg => intro r; rw [State.sreg_onHere, Core.returnTrap_reg]; rfl
  case phys => exact fun pa => s.phys_onHere _ pa (Core.returnTrap_bufByte _)
  case core => exact fun d hd => s.core_onCore_ne _ d _ hd

end
